-- ==== Sys2Proof/Word.lean ====
section
/-!
DEFINITION. The word types of the model. Bit vectors stand for what the manual treats as bits: register
words, handles, floating-point encodings, counters that wrap. Everything else is a natural number.
-/
namespace Sys2Proof

/-- One byte. -/
abbrev Byte := BitVec 8

/-- A 16-bit word. -/
abbrev W16 := BitVec 16

/-- A 32-bit word: handles, sequence numbers, register words. -/
abbrev W32 := BitVec 32

/-- A 64-bit word: sync counters, TICK_COUNT, seeds. -/
abbrev W64 := BitVec 64

/-- An IEEE 754 binary32 encoding. -/
abbrev F32 := BitVec 32

/-- An IEEE 754 binary16 encoding. -/
abbrev F16 := BitVec 16

/-- Sparse data by key: a list of (key, value) pairs, keys strictly rising. -/
abbrev Tbl (α : Type) := List (Nat × α)

end Sys2Proof
end

