-- ==== Sys2Proof/Syntax.lean ====
section
/-!
DEFINITION. The commands of the block: one constructor of `Instr` per row of spec/opcode_table.json, and
the operand structures they carry. The table gives no operand bits, so the operands are the model's: the
fields of R349 and of the command tables for a host command, the access for a register row, the unit
concerned and the value reported for an event (log 1).
-/
namespace Sys2Proof

/-- MODE of the SYNC field of a packet (R349). -/
inductive SyncMode where
  | none | wait | signal
  deriving DecidableEq, Repr

/-- What the module's accesses to a command's buffers meet in host memory: the bytes read, if every read
succeeds, and whether writes succeed (R386). Host memory is the environment's (log 6). -/
structure Io where
  rd : Option (List Byte)
  wr : Bool
  /-- the modified lines, by window line number, that the host returns where a back-invalidate snoop finds its copy (R472) -/
  back : List (Nat × List Byte) := []
  deriving DecidableEq, Repr

/-- The header of a command packet (R349), with the slot it came from. -/
structure Cmd where
  spool  : Nat
  seq    : W32
  slot   : Nat
  handle : W32
  expert : Bool
  fence  : Bool
  signalOnDone : Bool
  quiet  : Bool
  mode   : SyncMode
  counter : Nat
  io     : Io
  deriving DecidableEq, Repr

/-- SAMPLE_PARAMS of R258. -/
structure SampleParams where
  seed   : W64
  temperature : F16
  topP   : F16
  repPenalty : F16
  window : Nat
  topK   : Nat
  rsvd   : W32
  deriving DecidableEq, Repr

/-- A stage record of R178. -/
structure StageRec where
  stage : Nat
  keel  : Nat
  slotFirst : Nat
  slotCount : Nat
  layerFirst : Nat
  layerCount : Nat
  embed : Bool
  head  : Bool
  sample : Bool
  outE4m3 : Bool
  nextStage : Nat
  nextModule : Nat
  remote : Bool
  /-- a reserved bit or byte of the record is not 0 -/
  rsvd : Bool
  deriving DecidableEq, Repr

/-- The expert fields of SESSION_OPEN (R409). -/
structure OpenExt where
  cls    : Nat
  params : SampleParams
  draft  : W32
  stops  : List Nat
  deriving DecidableEq, Repr

/-- The expert fields of MODEL_REPLACE (R405). The mask lists unit numbers. -/
structure ReplaceExt where
  prewrite : Bool
  mask  : List Nat
  pairs : List (W32 × W32)
  deriving DecidableEq, Repr

/-- Which attributes SESSION_REBIND changes (R409), with their values. -/
structure Rebind where
  steer  : Option W32
  delta  : Option W32
  cls    : Option Nat
  params : Option SampleParams
  stops  : Option (List Nat)
  deriving DecidableEq, Repr

/-- A tile's product of one position: entry number, position, model layer, matrix ROLE of R292 and tile
number of the matrix. The head is role 7. -/
structure BlockKey where
  entry : Nat
  pos   : Nat
  layer : Nat
  role  : Nat
  tile  : Nat
  deriving DecidableEq, Repr

/-- By how much the charge that each physical column integrates in each plane of a product differs from one unit charge for
each gated row whose cell stores 1, in 1/256 of a unit charge (R32, R68; log 13). What is not listed differs by 0. -/
abbrev Charges := List (List Int)

/-- The same differences in the cycles of one recalibration pass (R78): the 8 zero-plane cycles and the 32 quarter-plane
cycles of the measured tile, of its weight columns; and per tile the 8 all-rows cycles, of its 32 reference columns. -/
structure CalPass where
  zeroPlane : List (List Int)
  quarters : List (List Int)
  allRows : List (List (List Int))
  deriving DecidableEq, Repr

/-- Where a keel DRAM line failed (R440, R462). Of the master copy: the line within its tile record, and another line of
its parity group that the rebuild finds failing, with that line's own DRAM offset (R298). `held` is accumulator spill and
results held under R135 and R190. Of embedding, vector and adapter data: the entry whose item read the line. -/
inductive DramRegion where
  | master (model : Nat) (pend : Bool) (sect record line : Nat) (second : Option (Nat × Nat))
  | frame (key : Nat)
  | frameTable (session layer : Nat)
  | scores (entry : Nat)
  | held (entry : Nat)
  | embedVectors (entry sect : Nat)
  | adapter (entry : Nat)
  | calCounts (panel : Nat)
  deriving DecidableEq, Repr

/-- What a failed keel SRAM word held (R441). -/
inductive SramContent where
  | weightScale (tile : Nat)
  | correction (panel : Nat)
  | buffer (entry : Nat)
  deriving DecidableEq, Repr

/-- What a control frame carries (R478); the manual gives no byte layout for it (log 19). -/
inductive Ctrl where
  | sealMark (handle : W32) (stage : Nat)
  | countBroadcast (count : W64)
  | periodChange (period : Nat) (at_ : W64)
  | periodAnswer (accept : Bool)
  | periodCancel
  | cancelMask (handle : W32)
  | reserve (handle : W32) (first count : Nat)
  | starved (handle : W32) (keel missing : Nat)
  deriving DecidableEq, Repr

/-- The payload of a link frame (R478). A handoff names its boundary's format, which its receiver needs; chain traffic that
crosses the bridle keeps its source keel and its destination module (R25; log 19). -/
inductive Payload where
  | ctrl (c : Ctrl)
  | handoff (handle : W32) (epoch stage first count : Nat) (flags : W16) (dwell slip : Nat) (e4m3 : Bool)
      (data : List Byte)
  | bytes (b : List Byte)
  | transit (src dest : Nat) (p : Payload)
  deriving DecidableEq, Repr

/-- A chain or bridle frame (R477). -/
structure Frame where
  cls  : Nat
  typ  : Nat
  srcKeel : Nat
  dest : Nat
  seq  : Nat
  nak  : Bool
  ack  : Nat
  payload : Payload
  deriving DecidableEq, Repr

/-- Where a register read falls, and how many bytes it reads (R11). -/
structure ReadAt where
  offset : Nat
  size : Nat
  deriving DecidableEq, Repr

/-- One attempt at a unit of checked work (R437, R438): the core or tail unit of the keel that runs it, whether the operation
multiplies or adds, its operands' integer values or significands, and the result that the unit produced. -/
structure ResidueTry where
  unit : Nat
  mul : Bool
  x : Int
  y : Int
  result : Int
  deriving DecidableEq, Repr

/-- A 64-byte DRAM burst as it is read, with its CRC-16 (R439). -/
structure Burst where
  data : List Byte
  crc : W16
  deriving DecidableEq, Repr

/-- One raised request of a DRAM channel (R491): class, index, beats. -/
structure ArbReq where
  cls : Nat
  idx : Nat
  beats : Nat
  deriving DecidableEq, Repr

/-- Where the voltage of an input that is not good lies: below 44 V, from there to 46 V, or above 62 V (R501). -/
inductive InLevel where
  | low | sag | high
  deriving DecidableEq, Repr

/-- What an I3C write to the sideband carries: SETDASA with a static and a dynamic address, or a private write to a dynamic address
(R560). -/
inductive SbWrite where
  | setdasa (static dynamic : Nat)
  | priv (addr offset : Nat) (data : List Byte)
  deriving DecidableEq, Repr

/-- A trigger of the ADC sequence (R525). -/
inductive AdcSource where
  | tick | timer | pwm (conv : Nat)
  deriving DecidableEq, Repr

/-- What a configuration request asks for, so far as the manual says what the module does on it: a write of VF Enable
(R332, R539), the base of the HDM range or none (R473), a read of the DVSEC range size (R471) or of the Register Locator DVSEC's entry
for BAR2 (R469), the port ID of port-based routing, a read of the AER uncorrectable error status or a write of 1s to it (R466), over SPDM the certificate
chain of a slot or a measurement block with the requester's nonce (R559); or anything else. -/
inductive CfgOp where
  | other
  | vfEnable (on : Bool)
  | hdmRange (base : Option Nat)
  | hdmSize
  | registerLocator
  | portId (id : Nat)
  | aerStatus
  | aerClear (bits : W32)
  | certificate (slot : Nat)
  | measurement (index : Nat) (nonce : List Byte)
  deriving DecidableEq, Repr

/-- What the bring-up steps of R542 find outside the digital state: the levels of the strap pins, the keels failing BIST,
the state of the factory region, the keels failing DRAM training, the panels whose factory trim record fails its CRC, and
whether link 0 reaches CXL operation, at which width and with which SPEED code of R500 (R466, R467). -/
structure BringUp where
  bootSel : Nat
  clkSel : Nat
  modAddr : Nat
  bistFail : List Nat
  factoryBad : Bool
  dramFail : List Nat
  trimBad : List Nat
  cxl : Bool
  lanes : Nat := 8
  rate : Nat := 3
  deriving DecidableEq, Repr

/-- The commands of the block. -/
inductive Instr where
  -- device commands (R397)
  | nop (c : Cmd)
  | identify (c : Cmd) (addr : Nat)
  | getStatus (c : Cmd)
  | setOption (c : Cmd) (option value : Nat)
  | getOption (c : Cmd) (option source : Nat)
  | tickConfig (c : Cmd) (period : Nat) (ext : Option (Nat × Nat))
  | syncSignal (c : Cmd) (counter op : Nat) (value : W64)
  | syncWait (c : Cmd) (counter rel timeout : Nat) (target : W64)
  | spoolOpen (c : Cmd) (sqBase cqBase sqOrder cqOrder : Nat) (firstSeq : W32) (quotas : Option (Nat × Nat))
  | spoolClose (c : Cmd) (release : Bool)
  | keepalive (c : Cmd)
  | spoolAdopt (c : Cmd)
  -- model commands (R405)
  | bundleStage (c : Cmd) (addr length mode first count : Nat) (keels : Option (List Nat))
  | modelPlace (c : Cmd) (stages : List StageRec) (formats : Option (List Nat))
  | modelWrite (c : Cmd)
  | modelCommit (c : Cmd)
  | modelReplace (c : Cmd) (fate : Nat) (ext : Option ReplaceExt)
  | modelUnload (c : Cmd) (pend : Bool)
  | panelRetire (c : Cmd) (panel : Nat)
  | panelRemap (c : Cmd) (mode panel : Nat) (spare : W32) (addr : Nat)
  -- session commands (R409)
  | sessionOpen (c : Cmd) (maxContext : Nat) (steer delta : W32) (ext : Option OpenExt)
  | sessionPrefill (c : Cmd) (addr count : Nat) (sample dropPending : Bool)
  | sessionStep (c : Cmd) (count : Nat)
  | sessionCancel (c : Cmd) (free : Bool)
  | sessionRelease (c : Cmd)
  | sessionRebind (c : Cmd) (r : Rebind)
  | sessionFork (c : Cmd) (ext : Option (SampleParams × Nat))
  | sessionTruncate (c : Cmd) (length : Nat) (pend : W32)
  | sessionRecompute (c : Cmd) (addr first count : Nat)
  | sessionQuery (c : Cmd) (addr : Nat)
  | specVerify (c : Cmd) (k : Nat) (rejection list : Bool) (addr : Nat)
  -- adapter and frame commands (R413)
  | adapterLoad (c : Cmd) (addr length : Nat) (replaces : Option W32)
  | adapterRetire (c : Cmd)
  | adapterQuery (c : Cmd)
  | steerBankLoad (c : Cmd) (addr first count : Nat)
  | frameQuota (c : Cmd) (sessions frames : Nat)
  | frameQuery (c : Cmd) (addr : Nat)
  | kvExport (c : Cmd) (addr limit : Nat)
  | kvImport (c : Cmd) (addr length : Nat) (pend : W32)
  -- calibration, test and fault commands (R417)
  | calRun (c : Cmd) (panel : W32) (keels : Nat)
  | calRead (c : Cmd) (panel addr : Nat)
  | calWrite (c : Cmd) (addr : Nat)
  | trimRead (c : Cmd) (first count addr : Nat)
  | trimWrite (c : Cmd) (addr count : Nat)
  | redundancyLoad (c : Cmd) (addr count : Nat)
  | refreshPolicy (c : Cmd) (dies divisor : Nat)
  | testPanel (c : Cmd) (panel : Nat)
  | testCore (c : Cmd) (core : Nat)
  | bistRun (c : Cmd) (keels : Nat)
  | faultRead (c : Cmd) (addr first count : Nat)
  | exposureRead (c : Cmd) (panel count addr : Nat)
  | captureRead (c : Cmd) (tile addr : Nat)
  | checkPolicy (c : Cmd) (panel policy : Nat)
  -- security and housekeeping commands (R421)
  | attest (c : Cmd) (addr limit : Nat) (nonce : List Byte)
  | imageWrite (c : Cmd) (addr copy : Nat)
  | keyInfo (c : Cmd) (addr : Nat)
  | adcSequence (c : Cmd) (addr : Nat)
  | adcRead (c : Cmd) (channels : Nat) (addr : Nat)
  | thermalConfig (c : Cmd) (addr : Nat)
  | supplyStatus (c : Cmd)
  -- register accesses
  | sqTailDoorbell (fn spool value : Nat)
  | cqHeadWrite (fn spool value : Nat)
  | spoolCtrlOpen (fn spool : Nat)
  | spoolCtrlResync (fn spool : Nat)
  | syncCounterWrite (fn counter size : Nat) (value : W64)
  | latchedLowRead (fn bar : Nat) (offset : ReadAt)
  | latchedHighRead (fn bar offset : Nat)
  | calSnap (keel : Nat)
  | resetCtrl (value : W32)
  | rewiden (link : Nat)
  | cvuHostPoly (u value : Nat)
  | cvuHostInit (u : Nat)
  | cvuHostValueWrite (u offset size : Nat) (value : W64)
  | cvuHostData (u size : Nat) (value : W64)
  | adcInjectGo (value : W32)
  | registerWrite (fn bar offset size : Nat) (value : W64)
  | sidebandWrite (w : SbWrite)
  | sidebandRead (addr : Nat)
  | imageGo
  -- intake and records
  | packetFetch (spool : Nat) (pkt block : Option (List Byte))
  | commandStart (spool : Nat) (seq : W32) (io : Io)
  | statusRecordWrite (spool : Nat) (ok : Bool)
  | syncWaitTimeout (spool : Nat) (seq : W32)
  | spoolTimeout (spool : Nat)
  -- the tick and the pipeline
  | tickEdge (adjust : Int)
  | quotaWindowEnd
  | sealDecision (keel : Nat)
  | tileProduct (k : BlockKey) (charges : Charges) (badWords : List Nat)
  | productRepeat (k : BlockKey) (charges : Charges) (badWords : List Nat)
  | splitReplay (k : BlockKey) (lowHalf highHalf : Charges) (badWords : List Nat)
  | wideModeBlock (k : BlockKey)
  | outlierRow (k : BlockKey) (row : Nat)
  | deltaSection (entry pos layer matrix : Nat)
  | spotCheck (k : BlockKey)
  | residueRerun (keel : Nat) (tail : Bool) (tries : List ResidueTry) (entry pos : Nat)
  | drain (entry pos layer role : Nat)
  | kvWrite (entry pos layer : Nat)
  | frameCopy (session layer index : Nat) (draft : Bool)
  | attnPassA (entry pos layer shard : Nat)
  | attnPassB (entry pos layer shard : Nat)
  | attnPassC (entry pos layer shard : Nat)
  | steeringUpdate (entry pos layer : Nat)
  | samplingJob (entry : Nat)
  | acceptanceJob (entry : Nat)
  -- service
  | refreshHalf (tile half : Nat)
  | refreshUrgent (tile : Nat)
  | recalibration (panel : Nat) (a b : CalPass)
  | calInterval (panel : Nat)
  | recalUrgent (panel : Nat)
  | scrubUnit (tile u : Nat) (codes : List (List Nat))
  | scrubUrgent (tile : Nat)
  | scrubLate (tile : Nat)
  | rowRewrite (tile row : Nat) (good : Bool)
  | rewriteUrgent (tile : Nat)
  | substitutionWrite (tile : Nat)
  | checkStoreRewrite (tile : Nat)
  | writePiece (tile : Nat) (verified : List Bool)
  | tileWriteDone (tile : Nat)
  | panelFieldTest (panel : Nat) (dev : List (List Charges))
  | coreFieldTest (core : Nat) (pass : Bool)
  | spotCheckDue (panel : Nat)
  | dramLineFail (keel : Nat) (region : DramRegion) (offset : Nat) (first reread : Burst)
  | sramParity (keel word : Nat) (content : SramContent) (data : W64) (parity : Bool)
  | dramArbitration (keel chan : Nat) (raised : List ArbReq)
  | arbWindowEnd (keel chan : Nat)
  -- weight replacement, adapters, tick alignment
  | cutOver (model : Nat)
  | shadowWriteStart (model unit : Nat)
  | layerSwitched (model unit : Nat)
  | adapterFree (kind index : Nat)
  | periodChange
  | followerAnswerTimeout
  | tickInEdge (phase : Int)
  | holdover
  -- links
  | linkFrameReceive (link : Nat) (upper : Bool) (raw : List Byte) (corrected uncorrected : Nat) (payload : Payload)
  | ackTimeout (link : Nat)
  | ackOnlyTimer (link : Nat)
  | laneFault (link lane : Nat)
  | retrainDone (link : Nat) (working : List Nat)
  | linkLost (link : Nat) (retrainFailed : Bool)
  | linkTrainRetry (link : Nat) (working : List Nat)
  | chainNeighbourLearn (link addr : Nat)
  | hdmAccess (write : Bool) (offset : Nat) (data : List Byte) (hostKeeps : Bool)
  | viral
  | configRequest (fn : Nat) (op : CfgOp)
  | flr (fn : Nat)
  -- reset
  | powerOn (backup : Bool)
  | perst (widthNs : Nat) (held : Bool)
  | mrst (widthNs : Nat) (held : Bool)
  | hotReset
  | resetAfterNvPulse
  | bringUp (b : BringUp)
  -- supplies and temperature
  | supplySwitch (ov : Bool)
  | supplyReturn
  | supplyFault (level : InLevel)
  | brownout (ov : Bool)
  | thermalTrip (die : Nat)
  | capUnmet
  | diodeReading (millivolts : Nat) (temp : W16)
  | scanConversion (code down : Nat)
  | stackResume (stack : Nat)
  | adcTrigger (src : AdcSource)
  | adcConversion (code : Nat)
  -- completions and late events
  | hostDmaTransfer (spool : Nat) (seq : W32) (ok : Bool)
  | inputGood (backup good : Bool)
  | ideStreamState (mem : Bool) (secure : Bool)
  | nvProgramDone (ok : Bool)
  | bistRunDone (failed : List Nat)
  | attestReportDone (ok : Bool)
  | cxlError (status : W32)
  deriving DecidableEq, Repr

end Sys2Proof
end

