-- ==== Sys2Proof/Machine/Bits.lean ====
section
/-!
DEFINITION. Byte order, bit fields and small counters. Multi-byte fields are little-endian (R6) and a field
is written [high:low] with both ends included (R5).
-/
namespace Sys2Proof.Machine

/-- Byte `i` of a byte string, 0 beyond its end. -/
def byteAt (bs : List Byte) (i : Nat) : Nat := (bs.getD i 0).toNat

/-- `n` bytes from the front of a byte string as a little-endian number (R6). -/
def leFront (bs : List Byte) (n : Nat) : Nat :=
  match n with
  | 0 => 0
  | k + 1 => byteAt bs 0 + 256 * leFront (bs.drop 1) k

/-- The little-endian number in bytes `off` to `off + n - 1` (R6). -/
def le (bs : List Byte) (off n : Nat) : Nat := leFront (bs.drop off) n

/-- A number as `n` little-endian bytes (R6). -/
def toLe (n : Nat) (x : Nat) : List Byte :=
  match n with
  | 0 => []
  | k + 1 => BitVec.ofNat 8 x :: toLe k (x / 256)

/-- Bits [lo + n - 1 : lo] of a number (R5). -/
def bitsOf (x lo n : Nat) : Nat := (x / 2 ^ lo) % 2 ^ n

/-- Bit `i` of a number. -/
def bitOf (x i : Nat) : Bool := x / 2 ^ i % 2 == 1

/-- A bit as a number. -/
def b2n (b : Bool) : Nat := if b then 1 else 0

/-- `n` zero bytes. -/
def zeros (n : Nat) : List Byte := List.replicate n 0

/-- Bytes `off` to `off + n - 1`. -/
def slice (bs : List Byte) (off n : Nat) : List Byte := (bs.drop off).take n

/-- Whether bytes `off` to `off + n - 1` are all 0. -/
def zeroAt (bs : List Byte) (off n : Nat) : Bool := (slice bs off n).all (· == 0)

/-- A byte string with the bytes `patch` laid over it from `off`. -/
def overlay (bs : List Byte) (off : Nat) (patch : List Byte) : List Byte :=
  bs.take off ++ patch ++ bs.drop (off + patch.length)

/-- A counter of `w` bits that stops at its maximum. -/
def satAdd (w x n : Nat) : Nat := min (x + n) (2 ^ w - 1)

/-- A signed number in 16 bits of two's complement. -/
def signed16 (i : Int) : Nat := (BitVec.ofInt 16 i).toNat

/-- A signed number in 64 bits of two's complement. -/
def signed64 (i : Int) : Nat := (BitVec.ofInt 64 i).toNat

/-- The two's complement value of the low `w` bits of a number. -/
def toSigned (w x : Nat) : Int := (BitVec.ofNat w x).toInt

/-- The least index at which a predicate holds, below `n`. -/
def leastBelow (n : Nat) (p : Nat → Bool) : Option Nat := (List.range n).find? p

/-- Integer division rounded up. -/
def ceilDiv (a b : Nat) : Nat := (a + b - 1) / b

/-- The distinct elements of a list, in order of first appearance. -/
def distinct {α : Type} [BEq α] (l : List α) : List α :=
  l.foldl (fun acc x => if acc.contains x then acc else acc ++ [x]) []

/-- A list with element `i` replaced. -/
def setAt {α : Type} (l : List α) (i : Nat) (x : α) : List α := l.set i x

/-- Insertion by a Boolean order, stable: `x` goes before the first element it precedes. -/
def insertBy {α : Type} (before : α → α → Bool) (x : α) : List α → List α
  | [] => [x]
  | y :: r => if before x y then x :: y :: r else y :: insertBy before x r

/-- Stable insertion sort by a Boolean order. -/
def sortBy {α : Type} (before : α → α → Bool) (l : List α) : List α :=
  l.foldl (fun acc x => insertBy before x acc) []

/-- Lexicographic order of lists of numbers, strict. -/
def lexLt : List Nat → List Nat → Bool
  | [], [] => false
  | [], _ :: _ => true
  | _ :: _, [] => false
  | a :: r, b :: t => if a < b then true else if b < a then false else lexLt r t

end Sys2Proof.Machine
end

