-- ==== Sys2Proof/Config.lean ====
section
/-!
DEFINITION. What one implementation fixes and the manual leaves open. Every constant here is opaque: no
proof can see a value of it, so a claim holds whatever the hardware does. Each is named in the log.
-/
namespace Sys2Proof.Config

/-- EXP of R210, taken where it lies within 2 ulp of the exponential; the manual gives no bits (log 11). -/
opaque exp : F32 → F32

/-- The RMS normalisation of an ARCH 1 layer and of the head (R292): epsilon, gains, input (log 12). -/
opaque rmsNorm : F32 → List F32 → List F32 → List F32

/-- The rotary positions of R292: base, head width, position, head vector (log 12). -/
opaque rope : F32 → Nat → Nat → List F32 → List F32

/-- The gated-MLP function of R292: ACT, gate element (log 12). -/
opaque act : Nat → F32 → F32

/-- Which way a converter rounds a charge that lies exactly between two codes (R51): column charge (log 13). -/
opaque tieUp : Nat → Bool

/-- How a keel splits a reduction over row blocks across its vector cores (R147): the sizes of the parts but the last, by the
number of row blocks (log 99). -/
opaque coreSplit : Nat → List Nat

/-- Whether an ECDSA P-521 signature verifies: key, signed digest, signature (R289, R549; log 14). -/
opaque sigVerifies : List Byte → List Byte → List Byte → Bool

/-- The identity key's signature over a report, 132 bytes (R555, R557; log 14). -/
opaque sign : List Byte → List Byte

/-- The certificate chain of the identity key (R555, R559; log 14). -/
opaque certChain : List Byte

/-- What an SPDM measurement response signs: the requester's nonce, the block (R559; log 14). -/
opaque spdmTranscript : List Byte → List Byte → List Byte

/-- IDENTITY_PUBLIC of R556, 132 bytes (log 14). -/
opaque identityPublic : List Byte

/-- The SHA-512 of the factory region (R557; log 14). -/
opaque factoryDigest : List Byte

/-- The SHA-512 of the image in use while it is the factory defaults, whose bytes the manual does not lay
out (R404, R557; log 14). -/
opaque defaultImageDigest : List Byte

/-- The factory trim of a converter, as the 12-bit entry of R90: panel, converter (R88; log 15). -/
opaque factoryTrim : Nat → Nat → BitVec 12

/-- TEMP of a panel's factory trim record (R90; log 15). -/
opaque factoryTemp : Nat → W16

/-- Whether the parity bit of a keel SRAM word makes the number of its ones odd (R441; log 134). -/
opaque oddParity : Bool

/-- The image that the reel engine generates for a tile under TEST_PANEL, as a W2 tile record (R454; log 135). -/
opaque testRecord : Nat → List Byte

/-- How a test's vectors come from the generator of R142: the seed from the module tile number, the test count and the vector, and
the A8 code from a draw (R452; log 135). -/
opaque testSeed : Nat → Nat → Nat → W64
opaque testCode : Nat → Int

/-- SEED that the basic form of SESSION_OPEN takes from the handle and the tick of intake (R283; log 16). -/
opaque seed : W32 → W64 → W64

/-- The factory table that turns a thermistor code into 1/16 °C: channel, code (R523; log 17). -/
opaque thermTable : Nat → Nat → W16

/-- Whether a pulse of 100 ns to 1 µs on PERST# or MRST# resets the module (R535): the free counter (log 18). -/
opaque pulseResets : Nat → Bool

/-- A free 32-bit value where the manual states no result: the free counter (log 10). -/
opaque freeWord : Nat → W32

end Sys2Proof.Config
end

