-- ==== Sys2Proof/Machine/Fp.lean ====
section
/-!
DEFINITION. Floating-point arithmetic of the digital side: IEEE 754 binary32 with round to nearest even, the
quiet NaN 0x7FC0_0000 and kept subnormals (R149), with the binary16, BF16 and E4M3 conversions of R56, R133,
R154 and R203. Every operation computes exactly and rounds once.
-/
namespace Sys2Proof.Machine

/-- What an encoding stands for; a finite value is (-1)^s · m · 2^e. -/
inductive Fv where
  | nan
  | inf (s : Bool)
  | fin (s : Bool) (m : Nat) (e : Int)
  deriving DecidableEq, Repr

/-- Read an encoding with `eb` exponent and `mb` fraction bits. -/
def unpack (eb mb x : Nat) : Fv :=
  let s := bitOf x (eb + mb)
  let e := bitsOf x mb eb
  let f := bitsOf x 0 mb
  let emin : Int := 2 - (2 ^ (eb - 1) : Nat) - (mb : Nat)
  if e = 2 ^ eb - 1 then (if f = 0 then .inf s else .nan)
  else if e = 0 then .fin s f emin
  else .fin s (f + 2 ^ mb) (emin + (e - 1 : Nat))

/-- Magnitude bits of m · 2^e (plus a little when `sticky`), rounded to nearest even, or upward when `up`,
without a bound on the exponent. -/
def packRaw (eb mb m : Nat) (e : Int) (sticky up : Bool) : Nat :=
  if m = 0 then (if sticky && up then 1 else 0)
  else
    let emin : Int := 2 - (2 ^ (eb - 1) : Nat) - (mb : Nat)
    let te : Int := max emin (e + (Nat.log2 m : Nat) - (mb : Nat))
    let q : Nat :=
      if te ≤ e then m * 2 ^ (e - te).toNat
      else
        let sh := (te - e).toNat
        let q := m / 2 ^ sh
        let r := m % 2 ^ sh
        let half := 2 ^ (sh - 1)
        let inc : Bool :=
          if up then r != 0 || sticky
          else decide (half < r) || (r == half && (sticky || q % 2 == 1))
        q + b2n inc
    if 2 ^ mb ≤ q then ((te - emin).toNat + 1) * 2 ^ mb + (q - 2 ^ mb) else q

/-- Magnitude bits of an IEEE format: the all-ones exponent is infinity. -/
def packMag (eb mb m : Nat) (e : Int) (sticky up : Bool) : Nat :=
  min (packRaw eb mb m e sticky up) ((2 ^ eb - 1) * 2 ^ mb)

/-- The encoding of a rounded value. -/
def pack (eb mb : Nat) (s : Bool) (m : Nat) (e : Int) (sticky : Bool) : Nat :=
  b2n s * 2 ^ (eb + mb) + packMag eb mb m e sticky false

/-- The quiet NaN of R149. -/
def qNaN : F32 := 0x7FC00000#32

/-- Read a binary32 encoding. -/
def fv (x : F32) : Fv := unpack 8 23 x.toNat

/-- A finite value rounded to binary32. -/
def f32Of (s : Bool) (m : Nat) (e : Int) (sticky : Bool) : F32 := BitVec.ofNat 32 (pack 8 23 s m e sticky)

/-- Infinity of a sign. -/
def fInf (s : Bool) : F32 := if s then 0xFF800000#32 else 0x7F800000#32

/-- Zero of a sign. -/
def fZero (s : Bool) : F32 := if s then 0x80000000#32 else 0#32

/-- An integer times 2^e, rounded to binary32; 0 takes the sign `z`. -/
def f32OfInt (i : Int) (e : Int) (z : Bool) : F32 :=
  if i = 0 then fZero z else f32Of (decide (i < 0)) i.natAbs e false

/-- FP32(I) of R56. -/
def f32OfI (i : Int) : F32 := f32OfInt i 0 false

/-- A signed mantissa. -/
def sgn (s : Bool) (m : Nat) : Int := if s then -(m : Int) else (m : Int)

/-- binary32 addition (R149). -/
def fadd (a b : F32) : F32 :=
  match fv a, fv b with
  | .nan, _ => qNaN
  | _, .nan => qNaN
  | .inf s, .inf t => if s = t then fInf s else qNaN
  | .inf s, _ => fInf s
  | _, .inf t => fInf t
  | .fin s m e, .fin t n f =>
    let lo := min e f
    f32OfInt (sgn s m * 2 ^ (e - lo).toNat + sgn t n * 2 ^ (f - lo).toNat) lo (s && t)

/-- Change of sign. -/
def fneg (a : F32) : F32 := a ^^^ 0x80000000#32

/-- binary32 subtraction (R149). -/
def fsub (a b : F32) : F32 := if fv b = .nan then qNaN else fadd a (fneg b)

/-- binary32 multiplication (R149). -/
def fmul (a b : F32) : F32 :=
  match fv a, fv b with
  | .nan, _ => qNaN
  | _, .nan => qNaN
  | .inf s, .inf t => fInf (s != t)
  | .inf s, .fin t n _ => if n = 0 then qNaN else fInf (s != t)
  | .fin s m _, .inf t => if m = 0 then qNaN else fInf (s != t)
  | .fin s m e, .fin t n f => f32Of (s != t) (m * n) (e + f) false

/-- binary32 division (R149). -/
def fdiv (a b : F32) : F32 :=
  match fv a, fv b with
  | .nan, _ => qNaN
  | _, .nan => qNaN
  | .inf _, .inf _ => qNaN
  | .inf s, .fin t _ _ => fInf (s != t)
  | .fin s _ _, .inf t => fZero (s != t)
  | .fin s m e, .fin t n f =>
    if n = 0 then (if m = 0 then qNaN else fInf (s != t))
    else f32Of (s != t) (m * 2 ^ 80 / n) (e - f - 80) (m * 2 ^ 80 % n != 0)

/-- The integer square root of `n`, bit by bit from bit `k`. -/
def isqrtFrom (n : Nat) : Nat → Nat → Nat
  | 0, r => r
  | k + 1, r => isqrtFrom n k (if (r + 2 ^ k) * (r + 2 ^ k) ≤ n then r + 2 ^ k else r)

/-- binary32 square root (R123 step 1). -/
def fsqrt (a : F32) : F32 :=
  match fv a with
  | .nan => qNaN
  | .inf s => if s then qNaN else fInf false
  | .fin s m e =>
    if m = 0 then fZero s
    else if s then qNaN
    else
      let odd := e % 2 != 0
      let n := (if odd then 2 * m else m) * 2 ^ 80
      let f := (if odd then e - 1 else e) - 80
      let r := isqrtFrom n 64 0
      f32Of false r (f / 2) (r * r != n)

/-- NaN test. -/
def fIsNaN (a : F32) : Bool := fv a == .nan

/-- Infinity test. -/
def fIsInf (a : F32) : Bool := match fv a with | .inf _ => true | _ => false

/-- Finite test. -/
def fIsFin (a : F32) : Bool := match fv a with | .fin _ _ _ => true | _ => false

/-- The sign bit. -/
def fSign (a : F32) : Bool := a.msb

/-- Absolute value. -/
def fabs (a : F32) : F32 := a &&& 0x7FFFFFFF#32

/-- Order of non-NaN values as integers. -/
def fKey (a : F32) : Int := sgn a.msb (fabs a).toNat

/-- a < b; false with a NaN. -/
def flt (a b : F32) : Bool := !fIsNaN a && !fIsNaN b && decide (fKey a < fKey b)

/-- a ≤ b; false with a NaN. -/
def fle (a b : F32) : Bool := !fIsNaN a && !fIsNaN b && decide (fKey a ≤ fKey b)

/-- The larger of two values; NaN if either is (R209, R210). -/
def fmax (a b : F32) : F32 := if fIsNaN a || fIsNaN b then qNaN else if flt a b then b else a

/-! EXP (R210), in fixed point with 256 fraction bits. -/

/-- e^x for |x| ≤ 128: the series at x / 256, squared eight times. -/
def expFixed (x : Int) : Nat :=
  let one : Int := 2 ^ 256
  let t := (List.range 40).foldr (fun (n : Nat) (acc : Int) => one + x / 256 * acc / (one * (n + 1))) one
  (List.range 8).foldl (fun v _ => v * v / 2 ^ 256) t.toNat

/-- The exponential of a value that is no NaN: 0 below -128, and beyond every finite encoding from 128. -/
def expReal (x : F32) : Nat :=
  match fv x with
  | .nan => 0
  | .inf s => if s then 0 else 2 ^ 385
  | .fin s m e =>
    let v := sgn s (m * 2 ^ (256 + e).toNat)
    if v < -(2 ^ 263) then 0 else if 2 ^ 263 < v then 2 ^ 385 else expFixed v

/-- One unit in the last place of binary32 at a value. -/
def expUlp (v : Nat) : Nat := 2 ^ (max 130 (min 383 (Nat.log2 v)) - 23)

/-- Whether an encoding lies within 2 ulp of a value; infinity stands for 2^128. -/
def expClose (v : Nat) (y : F32) : Bool :=
  match fv y with
  | .nan => false
  | .inf s => !s && decide (2 ^ 384 ≤ v + 2 * expUlp v)
  | .fin s m e => !s && decide (((m * 2 ^ (256 + e).toNat : Nat) - (v : Int)).natAbs ≤ 2 * expUlp v)

/-- EXP: a fixed function within 2 ulp of the exponential, whose bits the manual does not give; of a NaN the quiet NaN
(R149, R210; log 11). -/
def fexp (x : F32) : F32 :=
  if fIsNaN x then qNaN
  else
    let v := expReal x
    if expClose v (Config.exp x) then Config.exp x else f32Of false v (-256) true

/-- Nearest integer of m · 2^e, ties to even. -/
def rneInt (m : Nat) (e : Int) : Nat :=
  if 0 ≤ e then m * 2 ^ e.toNat
  else
    let sh := (-e).toNat
    let q := m / 2 ^ sh
    let r := m % 2 ^ sh
    q + b2n (decide (2 ^ sh < 2 * r) || (2 * r == 2 ^ sh && q % 2 == 1))

/-- Nearest integer of a finite value, ties to even; 0 otherwise. -/
def fToInt (a : F32) : Int :=
  match fv a with
  | .fin s m e => sgn s (rneInt m e)
  | _ => 0

/-- A binary16 value widened exactly (R56). -/
def f16ToF32 (x : F16) : F32 :=
  match unpack 5 10 x.toNat with
  | .nan => qNaN
  | .inf s => fInf s
  | .fin s m e => if m = 0 then fZero s else f32Of s m e false

/-- A BF16 value widened exactly. -/
def bf16ToF32 (x : W16) : F32 := if fIsNaN (BitVec.ofNat 32 (x.toNat * 65536)) then qNaN else BitVec.ofNat 32 (x.toNat * 65536)

/-- binary32 rounded to BF16, to nearest even (R133 step 1). -/
def f32ToBf16 (a : F32) : W16 :=
  match fv a with
  | .nan => 0x7FC0#16
  | .inf s => if s then 0xFF80#16 else 0x7F80#16
  | .fin s m e => BitVec.ofNat 16 (pack 8 7 s m e false)

/-- A rational rounded to binary16, to nearest even (R81). -/
def f16OfRat (s : Bool) (num den : Nat) : F16 :=
  BitVec.ofNat 16 (pack 5 10 s (num * 2 ^ 60 / den) (-60) (num * 2 ^ 60 % den != 0))

/-- A non-negative binary32 value rounded to binary16 upward and limited to 65,504 (R203, R204). -/
def f16Up (a : F32) : F16 :=
  match fv a with
  | .fin _ m e => BitVec.ofNat 16 (min (packMag 5 10 m e false true) 0x7BFF)
  | _ => 0x7BFF#16

/-- Binary16 finite test. -/
def f16IsFin (x : F16) : Bool := match unpack 5 10 x.toNat with | .fin _ _ _ => true | _ => false

/-- The value of an E4M3 code (R154, R206). -/
def e4m3ToF32 (c : Nat) : F32 :=
  let s := bitOf c 7
  let e := bitsOf c 3 4
  let f := bitsOf c 0 3
  if e = 15 ∧ f = 7 then qNaN
  else if e = 0 then (if f = 0 then fZero s else f32Of s f (-9) false)
  else f32Of s (8 + f) ((e : Int) - 10) false

/-- The E4M3 magnitude code at or below m · 2^e, limited to 0x7E, and whether the value is exact. -/
def e4m3Floor (m : Nat) (e : Int) : Nat × Bool :=
  if m = 0 then (0, true)
  else
    let te : Int := max (-9) (e + (Nat.log2 m : Nat) - 3)
    let q := if te ≤ e then m * 2 ^ (e - te).toNat else m / 2 ^ (te - e).toNat
    let exact : Bool := if te ≤ e then true else m % 2 ^ (te - e).toNat == 0
    let code := if 8 ≤ q then ((te + 9).toNat + 1) * 8 + (q - 8) else q
    if 0x7E < code then (0x7E, false) else (code, exact)

/-- The E4M3 code of a finite value, to nearest even, limited to ±448 (R154). -/
def f32ToE4m3 (a : F32) : Nat :=
  match fv a with
  | .nan => 0x7F
  | .inf s => b2n s * 128 + 0x7E
  | .fin s m e => b2n s * 128 + min (packRaw 4 3 m e false false) 0x7E

end Sys2Proof.Machine
end

