-- ==== Sys2Proof/Machine/Table.lean ====
section
/-!
DEFINITION. Sparse tables and byte memory. A table is a list of pairs with rising keys; memory is a list of
`Host.Cell` in one canonical form: addresses strictly rising and no byte equal to what an unlisted address
reads as, which is 0 (log 9).
-/
namespace Sys2Proof

/-- The value of key `k`, or `d` where the table lists none. -/
def Tbl.get {α : Type} (t : Tbl α) (d : α) (k : Nat) : α :=
  match t with
  | [] => d
  | (j, v) :: r => if j = k then v else Tbl.get r d k

/-- The value of key `k`, if listed. -/
def Tbl.find {α : Type} (t : Tbl α) (k : Nat) : Option α :=
  match t with
  | [] => none
  | (j, v) :: r => if j = k then some v else Tbl.find r k

/-- Give key `k` the value `v`, keeping the keys rising. -/
def Tbl.set {α : Type} (t : Tbl α) (k : Nat) (v : α) : Tbl α :=
  match t with
  | [] => [(k, v)]
  | (j, w) :: r =>
    if k = j then (k, v) :: r
    else if k < j then (k, v) :: (j, w) :: r
    else (j, w) :: Tbl.set r k v

/-- Take key `k` out of the table. -/
def Tbl.del {α : Type} (t : Tbl α) (k : Nat) : Tbl α :=
  match t with
  | [] => []
  | (j, w) :: r => if j = k then Tbl.del r k else (j, w) :: Tbl.del r k

/-- Change the value of key `k` by `f`. -/
def Tbl.upd {α : Type} (t : Tbl α) (d : α) (k : Nat) (f : α → α) : Tbl α :=
  t.set k (f (t.get d k))

/-- Change every listed value. -/
def Tbl.mapAll {α β : Type} (t : Tbl α) (f : Nat → α → β) : Tbl β :=
  List.map (fun p => (p.1, f p.1 p.2)) t

/-- Byte memory in canonical form. -/
abbrev Mem := List Host.Cell

/-- What an address reads as: its listed byte, or 0. -/
def Mem.read (m : Mem) (a : Nat) : Byte :=
  match m with
  | [] => 0
  | (j, b) :: r => if j = a then b else Mem.read r a

/-- Write one byte; writing 0 removes the entry. -/
def Mem.write (m : Mem) (a : Nat) (b : Byte) : Mem :=
  match m with
  | [] => if b = 0 then [] else [(a, b)]
  | (j, c) :: r =>
    if a = j then (if b = 0 then r else (a, b) :: r)
    else if a < j then (if b = 0 then (j, c) :: r else (a, b) :: (j, c) :: r)
    else (j, c) :: Mem.write r a b

/-- Write consecutive bytes from address `a`. -/
def Mem.writeBytes (m : Mem) (a : Nat) (bs : List Byte) : Mem :=
  match bs with
  | [] => m
  | b :: r => Mem.writeBytes (m.write a b) (a + 1) r

/-- Make `n` consecutive bytes from address `a` read 0. -/
def Mem.clear (m : Mem) (a n : Nat) : Mem := m.filter fun c => decide (c.1 < a) || decide (a + n ≤ c.1)

/-- Read `n` consecutive bytes from address `a`. -/
def Mem.readBytes (m : Mem) (a : Nat) (n : Nat) : List Byte :=
  (List.range n).map (fun i => m.read (a + i))

/-- The canonical form: addresses strictly rising from `lo`, no byte 0. -/
def Mem.wfFrom (lo : Nat) : Mem → Bool
  | [] => true
  | (a, b) :: r => decide (lo ≤ a) && decide (b ≠ 0) && Mem.wfFrom (a + 1) r

/-- The canonical form of a memory. -/
def Mem.wf (m : Mem) : Bool := Mem.wfFrom 0 m

end Sys2Proof
end

