-- ==== Sys2Proof/Machine/State.lean ====
section
/-!
DEFINITION. The state of the module: everything the spec gives it, as plain data, and its value right after
reset. One structure per subsystem; the queue of waiting commands is `pending`.
-/
namespace Sys2Proof.Machine

/-- Why a step stops. The spec stops the module nowhere, so no command answers with a fault. -/
inductive Fault where
  /-- Raised by no command: one whose operands name no unit of the module changes nothing (log 21). Safe. -/
  | illFormed
  deriving DecidableEq, Repr

/-- Why a command has no meaning. -/
inductive Refusal where
  /-- A command of the table that this model does not yet give a meaning; no command answers so. Safe. -/
  | notModelled (mnemonic : String)
  deriving DecidableEq, Repr

/-! Non-volatile memory and boot (14) -/

/-- The ordering code: bin and signed-only lock (R1, R3). -/
structure Part where
  binB : Bool
  signedOnly : Bool
  deriving DecidableEq, Repr

/-- A user copy of the option image in NV flash (R546, R553). -/
inductive NvCopy where
  | blank
  | torn
  | image (b : List Byte)
  deriving DecidableEq, Repr

/-- The NV cause word (R506, R536). -/
inductive NvCause where
  | none | brownout | thermalTrip
  deriving DecidableEq, Repr

/-- NV flash: factory facts and the image copies. -/
structure Nv where
  part : Part
  stepMajor : Nat
  stepMinor : Nat
  serial : W64
  copyA : NvCopy
  copyB : NvCopy
  cause : NvCause
  /-- spare physical panels of each sail die at shipment (R20) -/
  spares : List (List Nat)
  deriving DecidableEq, Repr

/-- The full-reset sources of R535. -/
inductive ResetSrc where
  | powerOn | brownout | perst | hotReset | mrst | thermalTrip | register
  deriving DecidableEq, Repr

/-- An IMAGE_WRITE in progress (R553). -/
structure ImgJob where
  spool : Nat
  seq : W32
  copy : Nat
  bytes : List Byte
  /-- pulses ended: the erase, then one for each page -/
  pulses : Nat
  deriving DecidableEq, Repr

/-- Reset, straps, option image and sideband state (R563). -/
structure Boot where
  powered : Bool
  step : Nat
  ready : Bool
  loadDone : Bool
  hold : Nat
  bistFail : Nat
  cause : BitVec 9
  /-- sources of the bring-up in progress (R537) -/
  arriving : List ResetSrc
  flrLast : Nat
  strapBoot : Nat
  strapClk : Nat
  strapAddr : Nat
  trimBad : Nat
  /-- panels whose factory trim record failed its CRC (R544) -/
  trimZero : List Nat
  aStatus : Nat
  bStatus : Nat
  inUse : Nat
  /-- the image in force; none for the factory defaults -/
  image : Option (List Byte)
  nvFault : Bool
  imageBusy : Bool
  pulse : Bool
  latched : List ResetSrc
  /-- reset pins that are asserted and not yet released (R537) -/
  pins : List ResetSrc
  buffer : Mem
  waitImage : Bool
  sbOffset : Nat
  /-- the dynamic address that SETDASA has assigned (R560) -/
  sbAddr : Option Nat
  vfEnable : Bool
  ideIo : Bool
  ideMem : Bool
  /-- THERM_TRIP# is driven low -/
  trip : Bool
  imgJob : Option ImgJob
  deriving DecidableEq, Repr

/-! Options and the tick (05, 10) -/

/-- Option values: in force, pending for the next edge, given by the chosen image (R398, R400). -/
structure Opts where
  force : Tbl Nat
  pend  : Tbl Nat
  image : Tbl Nat
  deriving DecidableEq, Repr

/-- A change due at the next edge or seal (R171 step 4). -/
inductive EdgeAct where
  | refresh (dies divisor : Nat)
  | trims (panel : Nat) (entries : List Nat) (temp : Nat)
  | policy (panel pol : Nat)
  | clearSuspect (panel : Nat)
  | retire (panel : Nat)
  | remap (panel spare : Nat)
  | adcSeq (b : List Byte)
  | thermal (b : List Byte)
  /-- new corrections; of an agreed recalibration with its tiles' ladder and zero sums (R73, R81) -/
  | corrections (panel : Nat) (o gc gt : List F16) (refs : List (Nat × Int × Int)) (byHost : Bool)
  | substitution (tile : Nat) (entries : List Nat)
  | tickCfg (role comp : Nat)
  | finish (spool : Nat) (seq : W32) (code : Nat) (results : List Byte)
  | calWriteDone (spool : Nat) (seq : W32) (panel : Nat)
  | attest (spool : Nat) (seq : W32)
  /-- an SPDM measurement: index, nonce (R559) -/
  | measure (index : Nat) (nonce : List Byte)
  /-- the end of a SESSION_CANCEL: its session, its command, FREE (R269, R270) -/
  | cancel (sess spool : Nat) (seq : W32) (free : Bool)
  /-- the end of a SPOOL_CLOSE with RELEASE: the spool it names, its command (R348) -/
  | closeSpool (target spool : Nat) (seq : W32)
  /-- a retiring adapter to which nothing refers is freed (R282) -/
  | freeAdapter (kind index : Nat)
  deriving DecidableEq, Repr

/-- A pending change of TICK_PERIOD (R161, R167). -/
structure PeriodPend where
  period : Nat
  at_ : W64
  /-- the command that asked; none on a follower -/
  cmd : Option (Nat × W32)
  edge : Nat
  /-- chain ports whose followers have not answered -/
  waiting : List Nat
  deriving DecidableEq, Repr

/-- The tick master (R158–R169, R193). -/
structure Tick where
  count : W64
  edges : Nat
  time : Nat
  role : Nat
  comp : Nat
  period : Nat
  locked : Bool
  holdover : Bool
  skew : Int
  missed : Nat
  lockRun : Nat
  /-- the master's TICK_COUNT in this tick, once a broadcast has brought it; whether lock has been reached and that
  count not yet taken (R166) -/
  master : Option W64
  adopt : Bool
  pend : Option PeriodPend
  acts : List EdgeAct
  adjust : Int
  capStep : Nat
  budget : Nat
  overruns : Nat
  quotaEdge : Nat
  deriving DecidableEq, Repr

/-! Spools (09) -/

/-- Spool states (R345). -/
inductive SpoolSt where
  | closed | opened | halted | orphaned
  deriving DecidableEq, Repr

/-- A status record before it is laid out in its slot (R353). -/
structure Rec where
  opcode : Nat
  cls : Nat
  code : Nat
  seq : W32
  handle : W32
  tick : W64
  results : List Byte
  dup : Bool
  deriving DecidableEq, Repr

/-- A record produced and not yet written, with the counter its writing signals (R372). -/
structure DueRec where
  record : Rec
  signal : Option Nat
  /-- the spool that closes once this record is written (R348) -/
  closes : Option Nat
  deriving DecidableEq, Repr

/-- What an outstanding command is waiting for or doing. -/
inductive Job where
  | idle
  | syncWait (counter rel : Nat) (target : W64) (deadline : Option Nat)
  | tick
  | stage (model mode first count : Nat) (bytes : List Byte) (keels : List Nat)
  | write (model : Nat)
  | replace (model : Nat)
  | remap (panel spare : Nat)
  | output (parts : List (Nat × List Byte)) (results : List Byte)
  | kvExport (frames : List Nat) (parts : List (Nat × List Byte)) (results : List Byte)
  | kvImport (session : Nat) (bytes : List Byte) (pend : W32)
  | adapterLoad (kind index : Nat) (bytes : List Byte)
  | bankLoad (model first : Nat) (bytes : List Byte)
  | adapterRetire (kind index : Nat)
  | redundancy (tiles : List Nat)
  | calRun (left : List Nat) (agreed disagreed skipped : Nat)
  | testPanel (panel : Nat)
  | testCore (core : Nat)
  | bist (keels : Nat)
  | attest (addr : Nat) (nonce : List Byte) (report : List Byte)
  | image
  | session (index : Nat)
  | close (spool : Nat)
  deriving DecidableEq, Repr

/-- An outstanding command (R364). -/
structure OutCmd where
  /-- what tells it from the spool's other outstanding commands: its sequence number, unless another command took that (`shown`) -/
  seq : W32
  /-- the sequence number that its records carry, where a later command took it -/
  shown : Option W32
  /-- it was fetched before the last resynchronisation of its spool (R360, R361) -/
  stale : Bool
  /-- TICK_COUNT at its intake (R283) -/
  fetched : W64
  slot : Nat
  opcode : Nat
  instr : Instr
  /-- its WAIT is satisfied, or it has none (R375) -/
  released : Bool
  started : Bool
  accepted : Bool
  /-- its spool was orphaned or closed: its completing record goes to spool 0 (R377); it is then held apart (`orphanKeys`) -/
  orphan : Bool
  /-- credits reserved for its own records (R368) -/
  resv : Nat
  /-- TOKEN records it produced (R394) -/
  tokens : Nat
  job : Job
  deriving DecidableEq, Repr

/-- A duplicate-store entry (R358). -/
structure DupEntry where
  seq : W32
  opcode : Nat
  stored : Option Rec
  deriving DecidableEq, Repr

/-- One spool (R343). -/
structure Spool where
  sqBase : Nat
  cqBase : Nat
  sqOrder : Nat
  cqOrder : Nat
  resyncSeq : W32
  resyncHead : Nat
  dirty : Bool
  useSq : Nat
  useCq : Nat
  useSqOrd : Nat
  useCqOrd : Nat
  sqTail : Nat
  cqHead : Nat
  sqHead : Nat
  cqTail : Nat
  phase : Bool
  nextSeq : W32
  st : SpoolSt
  cqFault : Bool
  fetchFault : Bool
  openErr : Bool
  doorbellErr : Bool
  cqStall : Bool
  errCode : Nat
  errSlot : Nat
  errSeq : W32
  lastFetch : Nat
  eventCount : W32
  eventsLost : Nat
  /-- quotas, where one has been set; otherwise the option defaults (R346, R382) -/
  sessQuota : Option Nat
  frameQuota : Option Nat
  out : List OutCmd
  dup : List DupEntry
  due : List DueRec
  /-- records written and not yet consumed, oldest first (R341) -/
  ring : List Rec
  /-- credits reserved for TOKEN records of ready entries (R368) -/
  resv : Nat
  /-- it closes once its due records are written: SPOOL_CLOSE with QUIET, whose DONE is suppressed (R348, R355) -/
  closing : Bool
  deriving DecidableEq, Repr

/-- A spool after reset: closed. -/
def Spool.init : Spool where
  sqBase := 0
  cqBase := 0
  sqOrder := 0
  cqOrder := 0
  resyncSeq := 0
  resyncHead := 0
  dirty := false
  useSq := 0
  useCq := 0
  useSqOrd := 0
  useCqOrd := 0
  sqTail := 0
  cqHead := 0
  sqHead := 0
  cqTail := 0
  phase := false
  nextSeq := 0
  st := .closed
  cqFault := false
  fetchFault := false
  openErr := false
  doorbellErr := false
  cqStall := false
  errCode := 0
  errSlot := 0
  errSeq := 0
  lastFetch := 0
  eventCount := 0
  eventsLost := 0
  sessQuota := none
  frameQuota := none
  out := []
  dup := []
  due := []
  ring := []
  resv := 0
  closing := false

/-- The CXL side: latches, the last value read, what the module wrote to host memory (R12, R468, R472). -/
structure Bus where
  /-- released waits that have not started, in the order of R375 -/
  wakes : List (Nat × W32)
  /-- the spool whose turn it is at intake, and the packets fetched from it in this turn (R362) -/
  turn : Nat
  served : Nat
  latch : Tbl W32
  rdata : W64
  resp : Nat
  host : Mem
  viral : Bool
  /-- HDM window lines of which the host holds a copy, and the line last read -/
  snoop : List Nat
  /-- lines for which the module issued back-invalidate snoops at its last access to the window (R472) -/
  snooped : List Nat
  line : List Byte
  /-- the base of the HDM range, once the host has programmed it (R473) -/
  hdmBase : Option Nat
  /-- the port ID that the fabric manager assigned, and the uncorrectable error status of the AER capability (R466, R499) -/
  portId : Nat
  aer : W32
  /-- what SPDM last presented: a measurement block or a certificate chain, and the signature with it (R559) -/
  spdm : List Byte
  spdmSig : List Byte
  deriving DecidableEq, Repr

/-! Models (08) -/

/-- Model states (R286); closed is a free index, staging one held by a BUNDLE_STAGE in progress. -/
inductive ModelSt where
  | closed | staging | staged | placed | written | committed | replacing
  deriving DecidableEq, Repr

/-- Where a unit lies: its keel, first slot, slots, and the epoch its copy holds (R301, R311). -/
structure UnitPl where
  keel : Nat
  first : Nat
  count : Nat
  epoch : Nat
  deriving DecidableEq, Repr

/-- A unit's progress in a replacement (R319, R320). -/
structure ReplUnit where
  barrier : Bool
  first : Nat
  edge : Nat
  switched : Bool
  deriving DecidableEq, Repr

/-- A replacement in progress (R312–R322). -/
structure Repl where
  spool : Nat
  seq : W32
  newEpoch : Nat
  fate : Nat
  prewrite : Bool
  mask : List Nat
  pairs : List (W32 × W32)
  cut : Bool
  units : Tbl ReplUnit
  blocked : List Nat
  deriving DecidableEq, Repr

/-- A model index (R284). -/
structure Model where
  gen : Nat
  used : Bool
  st : ModelSt
  bytes : List Byte
  keels : List Nat
  pendB : Option (List Byte × List Nat)
  stages : List StageRec
  base : Nat
  units : Tbl UnitPl
  fmts : List Nat
  epoch : Nat
  repl : Option Repl
  /-- records marked MASTER_LOST, by unit and record: of the committed bundle, and of the pending one (R298, R323) -/
  lost : List (Nat × Nat)
  pendLost : List (Nat × Nat)
  bank : Tbl (List Byte)
  deriving DecidableEq, Repr

/-- A model index after reset. -/
def Model.init : Model where
  gen := 0
  used := false
  st := .closed
  bytes := []
  keels := []
  pendB := none
  stages := []
  base := 0
  units := []
  fmts := []
  epoch := 0
  repl := none
  lost := []
  pendLost := []
  bank := []

/-! Sessions and adapters (07) -/

/-- Session states (R242); closed is a free index. -/
inductive SessSt where
  | closed | idle | busy | starved | held
  deriving DecidableEq, Repr

/-- The kinds of running session commands. -/
inductive RunKind where
  | prefill | step | recompute | verify
  deriving DecidableEq, Repr

/-- A running session command: what it has still to place, and for SPEC_VERIFY its drafts (R248, R253, R262). -/
structure Run where
  spool : Nat
  seq : W32
  opcode : Nat
  kind : RunKind
  tokens : List Nat
  pos : Nat
  total : Nat
  sample : Bool
  left : Nat
  chunk : Nat
  keep : Option Nat
  k : Nat
  rejection : Bool
  list : Bool
  drafts : List Nat
  probs : List (List F32)
  emitted : Nat
  stop : Nat
  /-- credits reserved between two draft steps (R368) -/
  held : Nat
  deriving DecidableEq, Repr

/-- A session (R241). -/
structure Session where
  gen : Nat
  used : Bool
  st : SessSt
  spool : Nat
  model : W32
  epoch : Nat
  maxCtx : Nat
  cls : Nat
  steer : Option W32
  delta : Option W32
  params : SampleParams
  stops : List Nat
  draft : Option W32
  length : Nat
  pend : Option Nat
  history : List Nat
  kvStale : Bool
  mixed : Bool
  importing : Bool
  /-- layer roots (BASE, ORDER) of R220, for the model and for the draft -/
  runs : Tbl (Nat × Nat)
  druns : Tbl (Nat × Nat)
  draftLen : Nat
  run : Option Run
  lastArith : W16
  lastDwell : Nat
  lastSlip : Nat
  lastTick : W64
  deriving DecidableEq, Repr

/-- Sampling parameters that turn everything off. -/
def SampleParams.off : SampleParams where
  seed := 0
  temperature := 0
  topP := 0
  repPenalty := 0x3C00#16
  window := 0
  topK := 0
  rsvd := 0

/-- A session index after reset. -/
def Session.init : Session where
  gen := 0
  used := false
  st := .closed
  spool := 0
  model := 0
  epoch := 0
  maxCtx := 0
  cls := 0
  steer := none
  delta := none
  params := SampleParams.off
  stops := []
  draft := none
  length := 0
  pend := none
  history := []
  kvStale := false
  mixed := false
  importing := false
  runs := []
  druns := []
  draftLen := 0
  run := none
  lastArith := 0
  lastDwell := 0
  lastSlip := 0
  lastTick := 0

/-- An adapter index (R240, R282). -/
structure Adapter where
  gen : Nat
  used : Bool
  resident : Bool
  retiring : Bool
  fn : Nat
  model : W32
  base : Nat
  bytes : List Byte
  cmd : Option (Nat × W32)
  deriving DecidableEq, Repr

/-- An adapter index after reset. -/
def Adapter.init : Adapter where
  gen := 0
  used := false
  resident := false
  retiring := false
  fn := 0
  model := 0
  base := 0
  bytes := []
  cmd := none

/-! Key-value store (06) -/

/-- A frame-table entry (R216). -/
structure FrameE where
  ref : Nat
  owner : Nat
  layer : Nat
  fmt : Nat
  epoch : Nat
  kSet : Nat
  vSet : Nat
  ks : List F16
  vs : List F16
  /-- something has been written to it since it was reserved (R223, R414) -/
  written : Bool
  deriving DecidableEq, Repr

/-- A free frame's entry. -/
def FrameE.init : FrameE where
  ref := 0
  owner := 0
  layer := 0
  fmt := 0
  epoch := 0
  kSet := 0
  vSet := 0
  ks := []
  vs := []
  written := false

/-- A page-list entry, with the frame a pending copy reads (R219, R231). -/
structure PageE where
  frame : Nat
  copy : Bool
  old : Nat
  valid : Bool
  deriving DecidableEq, Repr

/-- An empty page-list entry. -/
def PageE.init : PageE where
  frame := 0
  copy := false
  old := 0
  valid := false

/-- A score reservation of a position-layer (R213). -/
structure ScoreResv where
  entry : Nat
  pos : Nat
  layer : Nat
  keel : Nat
  bytes : Nat
  spill : Bool
  deriving DecidableEq, Repr

/-- The key-value store and DRAM. Frames are keyed keel × 2^21 + frame, page entries keel × 2^24 + index. -/
structure Kv where
  frames : Tbl FrameE
  freed : Tbl (List Nat)
  fresh : Tbl Nat
  pages : Tbl PageE
  runs : Tbl (List (Nat × Nat))
  /-- parked sessions with the keel that is short, oldest first (R224, R225) -/
  parked : List (Nat × Nat)
  zero : List Nat
  dram : Mem
  scores : List ScoreResv
  deriving DecidableEq, Repr

/-! The pipeline (05) -/

/-- Kinds of items (R181). -/
inductive ItemKind where
  | embed | layer | pre | passA (n : Nat) | passB (n : Nat) | passC (n : Nat)
  /-- the three passes of a single shard, where the part before them was admitted on its own -/
  | attn
  | post | head | sampling
  deriving DecidableEq, Repr

/-- An item of a position at its stage. -/
structure Item where
  pos : Nat
  layer : Nat
  kind : ItemKind
  /-- the edge at which it was first admitted -/
  admitted : Option Nat
  /-- it is admitted in the tick that runs now -/
  now : Bool
  done : Bool
  deriving DecidableEq, Repr

/-- Kinds of entries. -/
inductive EntryKind where
  | prefill | decode | verify | draft
  deriving DecidableEq, Repr

/-- An entry: one session's step at a stage (R14, R280). -/
structure Entry where
  id : Nat
  sess : Nat
  handle : W32
  spool : Nat
  seq : W32
  kind : EntryKind
  model : Nat
  first : Nat
  count : Nat
  tokens : List Nat
  /-- it is the last entry of its command -/
  last : Bool
  /-- it samples at its last position -/
  sample : Bool
  stage : Nat
  /-- it has been handed to another module and has not come back (R180) -/
  away : Bool
  epoch : Nat
  stamped : Bool
  steer : Option W32
  delta : Option W32
  cls : Nat
  params : SampleParams
  /-- the session's STOP_SET at its first stage (R245) -/
  stops : List Nat
  arith : W16
  dwell : Nat
  slip : Nat
  ready : Bool
  readyEdge : Nat
  since : Nat
  items : List Item
  reserved : List Nat
  /-- credits reserved for its TOKEN records -/
  credits : Nat
  sealing : Bool
  masked : Bool
  /-- positions whose handoff has reached the next stage's keel -/
  handed : List Nat
  /-- cause of a slip recorded by the work of this tick: 1 OVERRUN, 2 SERVICE -/
  late : Nat
  token : Option Nat
  accepted : Nat
  noLogit : Bool
  /-- cut-over came while it was in flight with fate RECOMPUTE -/
  cutStop : Bool
  deriving DecidableEq, Repr

/-- What a written tile holds: model index, unit, tile record of the unit, epoch. -/
structure TileSrc where
  model : Nat
  unit : Nat
  record : Nat
  epoch : Nat
  deriving DecidableEq, Repr

/-- Where the product of a block stands (R129, R134, R436). -/
inductive BlockSt where
  | fresh
  | needRepeat
  | needSplit (standIn : Bool)
  | wide (rank : Nat)
  /-- it waits for a spot check: 0 chosen or due, 1 check store or pattern-suspect, 2 SPOT_ALL (R442, R445, R446) -/
  | spot (cls : Nat)
  | done
  deriving DecidableEq, Repr

/-- The work of one tile for one position. -/
structure BlockWork where
  layer : Nat
  role : Nat
  tile : Nat
  /-- its module tile number, and what that tile held at the product -/
  phys : Nat
  src : Option TileSrc
  st : BlockSt
  /-- A8 codes sent and their scale -/
  codes : List Int
  sa : F32
  /-- folded plane terms, kept for a spot check (R443) -/
  terms : List (List Int)
  vals : List F32
  /-- outlier rows not yet computed, and the running terms (R126) -/
  rows : List Nat
  outl : Option (List F32)
  /-- the edge at which its rows arose (R128) -/
  rowEdge : Nat
  /-- the edge at which its repeat, wide request or spot check arose, and the place of its spot check among those of the
  module (R134, R446) -/
  edge : Nat
  spotNo : Nat
  wide : Bool
  /-- CLIPPED, SPLIT_REPLAY or WIDE, which its values bring to the entry once they enter the reduction (R150) -/
  flags : W16
  deriving DecidableEq, Repr

/-- A quantised input block (R123). -/
structure QBlock where
  layer : Nat
  point : Nat
  block : Nat
  codes : List Int
  sa : F32
  noClip : F32
  slots : List Nat
  /-- an unslotted candidate was clipped (R125) -/
  clip : Bool
  /-- it has taken the no-clip scale (R125, R130) -/
  resc : Bool
  /-- slotted rows that TAIL_BUDGET has been charged for (R127) -/
  charged : List Nat
  deriving DecidableEq, Repr

/-- One shard's results of the three passes (R209–R211). -/
structure Shard where
  layer : Nat
  n : Nat
  scores : List (List F32)
  maxs : List F32
  sums : List F32
  parts : List (List F32)
  passA : Bool
  passB : Bool
  passC : Bool
  deriving DecidableEq, Repr

/-- The work in progress of one position of an entry. -/
structure PosCtx where
  /-- the residual accumulator: the FP32 hidden vector -/
  hidden : List F32
  /-- drained vectors: 16 × layer + ROLE; 16 × layer + 8 is the attention output -/
  vecs : Tbl (List F32)
  qblocks : List QBlock
  blocks : List BlockWork
  shards : List Shard
  /-- shard length of each layer, fixed at its first attention item (R207) -/
  lens : Tbl Nat
  slots : Tbl Nat
  /-- BF16 delta accumulators: 8 × layer + matrix (R277) -/
  deltas : Tbl (List W16)
  kvDone : List Nat
  steered : List Nat
  logits : List F32
  /-- the hidden vector with which the open item began (R190, R441) -/
  start : List F32
  /-- the edge of the tick in which all three attempts at work of its tail path, or of its vector cores, failed (R438) -/
  stuckTail : Option Nat
  stuckCore : Option Nat
  deriving DecidableEq, Repr

/-- An empty context. -/
def PosCtx.init : PosCtx where
  hidden := []
  vecs := []
  qblocks := []
  blocks := []
  shards := []
  lens := []
  slots := []
  deltas := []
  kvDone := []
  steered := []
  logits := []
  start := []
  stuckTail := none
  stuckCore := none

/-- Stage status (R198). -/
structure StageStat where
  positions : Nat
  entries : Nat
  dwelling : Nat
  /-- the same three of the tick that runs, until its seals take effect -/
  posNow : Nat
  entNow : Nat
  dwellNow : Nat
  longest : Nat
  overruns : Nat
  slipped : Nat
  lastOver : Option Nat
  lastWide : Option Nat
  deriving DecidableEq, Repr

/-- A stage after reset. -/
def StageStat.init : StageStat where
  positions := 0
  entries := 0
  dwelling := 0
  posNow := 0
  entNow := 0
  dwellNow := 0
  longest := 0
  overruns := 0
  slipped := 0
  lastOver := none
  lastWide := none

/-- An exposure record (R448). -/
structure ExpRec where
  handle : W32
  first : Nat
  count : Nat
  stage : Nat
  tick : W64
  deriving DecidableEq, Repr

/-- Counters of a keel (R157, R198) and its tail-path use in the tick (R120). -/
structure KeelCtr where
  slipService : Nat
  slipOverrun : Nat
  slipHandoff : Nat
  slipTail : Nat
  slipWide : Nat
  products : Nat
  kvBytes : Nat
  masked : Nat
  queuedPeak : Nat
  queuedDepth : Nat
  outlierRows : Nat
  overflow : Nat
  rescales : Nat
  splits : Nat
  wideBlocks : Nat
  wideSlips : Nat
  tailSlips : Nat
  nanSteps : Nat
  infSteps : Nat
  wqPeak : Nat
  wqDepth : Nat
  tailLoad : Nat
  tailUsed : Nat
  wideUsed : Nat
  deltaUsed : Nat
  spotUsed : Nat
  extraUsed : Nat
  productsNow : Nat
  kvNow : Nat
  /-- bytes that the reel engine has read in the tick (R306) -/
  reelUsed : Nat
  deriving DecidableEq, Repr

/-- A keel's counters after reset. -/
def KeelCtr.init : KeelCtr where
  slipService := 0
  slipOverrun := 0
  slipHandoff := 0
  slipTail := 0
  slipWide := 0
  products := 0
  kvBytes := 0
  masked := 0
  queuedPeak := 0
  queuedDepth := 0
  outlierRows := 0
  overflow := 0
  rescales := 0
  splits := 0
  wideBlocks := 0
  wideSlips := 0
  tailSlips := 0
  nanSteps := 0
  infSteps := 0
  wqPeak := 0
  wqDepth := 0
  tailLoad := 0
  tailUsed := 0
  wideUsed := 0
  deltaUsed := 0
  spotUsed := 0
  extraUsed := 0
  productsNow := 0
  kvNow := 0
  reelUsed := 0

/-- A service operation of the tick (R112, R172): its rank, its panel, its tile (none: all eight), whether
it holds the converter bank, and whether it has run. -/
structure Service where
  rank : Nat
  panel : Nat
  tile : Option Nat
  bank : Bool
  ran : Bool
  deriving DecidableEq, Repr

/-- What has arrived of a handoff: map stage it goes to, position, and the records so far (R153, R478). -/
structure Arrival where
  handle : W32
  stage : Nat
  pos : Nat
  epoch : Nat
  flags : W16
  dwell : Nat
  slip : Nat
  e4m3 : Bool
  data : List Byte
  deriving DecidableEq, Repr

/-- Control information that has arrived for an entry from another module: its range, and its seal mark (R176,
R227). -/
structure Inbound where
  handle : W32
  stage : Nat
  first : Nat
  count : Nat
  marked : Bool
  deriving DecidableEq, Repr

/-- A spot check still to run for a product whose entry was cancelled (R137, R444). -/
structure HeldSpot where
  key : BlockKey
  phys : Nat
  src : TileSrc
  cls : Nat
  codes : List Int
  terms : List (List Int)
  edge : Nat
  no : Nat
  deriving DecidableEq, Repr

/-- The pipeline. -/
structure Pipe where
  entries : List Entry
  nextId : Nat
  ctx : Tbl PosCtx
  quota : Tbl Nat
  stages : Tbl StageStat
  expo : Tbl (List ExpRec)
  keels : Tbl KeelCtr
  plan : List Service
  /-- tiles that ran a product in this tick -/
  ran : List Nat
  /-- product time taken in this tick, in products: by panel, and by sail die (R182, R432) -/
  panelUsed : Tbl Nat
  dieUsed : Tbl Nat
  arrivals : List Arrival
  inbound : List Inbound
  spots : List HeldSpot
  /-- products that have come to wait for a spot check (R446) -/
  nextSpot : Nat
  /-- keels whose seal decision has been taken in this tick -/
  decided : List Nat
  deriving DecidableEq, Repr

/-! Arrays (02, 03) -/

/-- A tile. Times are in ns of `tick.time`, ages in edges. -/
structure Tile where
  holds : Option TileSrc
  /-- the source of a write in progress -/
  under : Option TileSrc
  fail : Bool
  refreshed : Nat
  /-- between the halves of its refresh: the time of the first, and the edge that began its tick (R102) -/
  half : Option Nat
  halfEdge : Nat
  refreshUrgent : Bool
  unverified : Bool
  units : Nat
  lastScrub : Nat
  lastWrite : Nat
  scrubUrgent : Bool
  late : Bool
  red : List Nat
  redWant : Option (List Nat)
  rewrites : List (Nat × Nat)
  rewriteUrgent : Bool
  /-- rows that mismatched in the last scrub pass over them (R110) -/
  lastBad : List Nat
  csBad : List Nat
  csRecord : Bool
  csDue : Option Nat
  suspect : Bool
  /-- PATTERN_SUSPECT has been raised for it since its mark was last cleared (R434) -/
  raised : Bool
  gainDrift : Int
  offDrift : Int
  ladder : List (Int × Nat)
  zero : List Int
  ladderRef : Int × Nat
  zeroRef : Int × Nat
  rows : Nat
  rowFails : Tbl Nat
  /-- pieces written in a tick, and the tick's edge (R303) -/
  pieces : Nat
  pieceEdge : Nat
  testImage : Bool
  /-- a weight scale in keel SRAM failed its parity and its record is lost (R298, R441) -/
  scaleBad : Bool
  /-- calibration counts: per quarter q, of each weight column its 1-cells among the rows r with r mod 4 = q (R77) -/
  counts : List (List Nat)
  deriving DecidableEq, Repr

/-- A tile after reset: empty. -/
def Tile.init : Tile where
  holds := none
  under := none
  fail := false
  refreshed := 0
  half := none
  halfEdge := 0
  refreshUrgent := false
  unverified := false
  units := 0
  lastScrub := 0
  lastWrite := 0
  scrubUrgent := false
  late := false
  red := []
  redWant := none
  rewrites := []
  rewriteUrgent := false
  lastBad := []
  csBad := []
  csRecord := false
  csDue := none
  suspect := false
  raised := false
  gainDrift := 0
  offDrift := 0
  ladder := []
  zero := []
  ladderRef := (1, 1)
  zeroRef := (0, 1)
  rows := 0
  rowFails := []
  pieces := 0
  pieceEdge := 0
  testImage := false
  scaleBad := false
  counts := []

/-- A tile whose weights leave it: what belongs to the tile itself stays, among it its redundancy map, its marks, its scrub
history and its drift figures (R73, R98, R99, R106, R111, R436). -/
def Tile.emptied (x : Tile) : Tile :=
  { x with holds := none, under := none, fail := false, half := none, refreshUrgent := false, units := 0,
           scrubUrgent := false, red := x.redWant.getD x.red, redWant := none, rewrites := [], rewriteUrgent := false,
           lastBad := [], csBad := [], csRecord := false, csDue := none, rows := 0, rowFails := [], testImage := false,
           scaleBad := false, counts := [] }

/-- A panel. Empty correction lists read o = 0, gc = gt = 0x3C00; no trims means the factory trims. -/
structure Panel where
  cal : Bool
  o : List F16
  gc : List F16
  gt : List F16
  drift : Bool
  disRun : Nat
  disTot : Nat
  agreeTot : Nat
  lastAgreed : W64
  lastAttempt : Nat
  measured : Nat
  trims : Option (List Nat)
  /-- TEMP of the record that TRIM_WRITE applied (R90) -/
  trimTemp : Nat
  good : W64
  goodEdge : Nat
  failed : Bool
  overflow : Bool
  fullRaised : Bool
  spotDue : Bool
  policy : Nat
  trans : Nat
  transEdge : Option Nat
  tries : Nat
  calDue : Bool
  calUrgent : Bool
  /-- written, and the recalibrations that follow the write have not finished (R84) -/
  fresh : Bool
  /-- a CAL_RUN names it (R86) -/
  calForced : Bool
  /-- a correction value in keel SRAM failed its parity (R441) -/
  corrBad : Bool
  deriving DecidableEq, Repr

/-- A panel after reset. -/
def Panel.init : Panel where
  cal := false
  o := []
  gc := []
  gt := []
  drift := false
  disRun := 0
  disTot := 0
  agreeTot := 0
  lastAgreed := 0
  lastAttempt := 0
  measured := 7
  trims := none
  trimTemp := 0
  good := 0
  goodEdge := 0
  failed := false
  overflow := false
  fullRaised := false
  spotDue := false
  policy := 0
  trans := 0
  transEdge := none
  tries := 0
  calDue := false
  calUrgent := false
  fresh := false
  calForced := false
  corrBad := false

/-- A sail die: REFRESH_DIVISOR, the band in force, the recalibration order (R105, R47, R76). -/
structure Die where
  divisor : Nat
  band : Nat
  order : List Nat
  deriving DecidableEq, Repr

/-- A sail die after reset. -/
def Die.init : Die where
  divisor := 1
  band := 0
  order := []

/-- A calibration snapshot (R116). -/
structure Snap where
  state : Nat
  last : W64
  counts : Nat
  o : List F16
  gc : List F16
  gt : List F16
  drifts : List (Int × Int)
  trims : List Nat
  red : List (List Nat)
  deriving DecidableEq, Repr

/-- A keel's calibration window (R116, R117). -/
structure CalWin where
  position : Nat
  panel : Nat
  busy : Option Nat
  valid : Bool
  tick : W64
  snap : Snap
  scrubRows : Nat
  scrubBits : Nat
  deriving DecidableEq, Repr

/-- A calibration window after reset. -/
def CalWin.init : CalWin where
  position := 0
  panel := 0
  busy := none
  valid := false
  tick := 0
  snap := { state := 0, last := 0, counts := 0, o := [], gc := [], gt := [], drifts := [], trims := [], red := [] }
  scrubRows := 0
  scrubBits := 0

/-- The arrays. Tiles are keyed by module tile number, panels by module panel number. -/
structure Arrays where
  tiles : Tbl Tile
  panels : Tbl Panel
  dies : Tbl Die
  /-- panel-map order of each die where it differs from the factory map (R325) -/
  places : Tbl (List Nat)
  retired : List Nat
  wins : Tbl CalWin
  /-- sail dies whose tiles were all marked unverified by a stack stop: a tile that the table does not list is (R106) -/
  doubt : List Nat
  deriving DecidableEq, Repr

/-- A tile that the table does not list: empty, and unverified on a die that a stack stop has marked (R106). -/
def Arrays.unlisted (a : Arrays) (t : Nat) : Tile := { Tile.init with unverified := a.doubt.contains (t / 16384) }

/-! Checks (11) -/

/-- A fault record (R461). -/
structure FaultRec where
  index : Nat
  kind : Nat
  source : Nat
  recovered : Bool
  tick : W64
  location : Nat
  session : W32
  position : W32
  detail : Nat
  deriving DecidableEq, Repr

/-- A kept operand (R435). -/
structure Capture where
  tick : W64
  codes : List Int
  deriving DecidableEq, Repr

/-- What the exposure window shows of a panel: its values at the last seal (R464). -/
structure SeenPanel where
  good : W64
  failed : Bool
  overflow : Bool
  policy : Nat
  deriving DecidableEq, Repr

/-- A panel as the window shows it after reset. -/
def SeenPanel.init : SeenPanel where
  good := 0
  failed := false
  overflow := false
  policy := 0

/-- The check counters and logs (R460, R464). -/
structure Checks where
  fails : Nat
  transients : Nat
  replays : Nat
  residue : Nat
  dramPersistent : Nat
  dramTransient : Nat
  sram : Nat
  spots : Nat
  spotFails : Nat
  testFails : Nat
  testRuns : Nat
  spotMaxAge : Nat
  log : List FaultRec
  next : Nat
  captures : Tbl Capture
  lost : List Nat
  expSel : Nat
  capSel : Nat
  spotNext : Tbl Nat
  spotPanels : List Nat
  testNext : Tbl Nat
  testCount : Nat
  coreNext : Tbl Nat
  failing : List Nat
  /-- DRAM lines that failed their last re-read (R440) -/
  badLines : List (Nat × Nat)
  /-- of those, the lines that an entry's work waits for, with what they hold (R440) -/
  badReads : List (Nat × Nat × DramRegion)
  /-- of those, the lines of a committed bundle: keel, line, model index, directory index (R299) -/
  badSects : List (Nat × Nat × Nat × Nat)
  /-- what the exposure and capture windows show, as of the last seal: whether there has been one, panels, the stage maps and the
  panel map from which a panel's stage follows, pattern-suspect tiles, captures, tiles whose capture was lost -/
  shown : Bool
  seen : Tbl SeenPanel
  seenModels : Tbl Model
  seenPlaces : Tbl (List Nat)
  seenSuspect : List Nat
  seenCaps : Tbl Capture
  seenLost : List Nat
  deriving DecidableEq, Repr

/-! Links, check-value units, arbiter (12) -/

/-- Link states (R500). -/
inductive LinkSt where
  | down | training | up | degraded | lost
  deriving DecidableEq, Repr

/-- One end of a link that carries frames: what it sends and what it receives (R480). -/
structure LinkEnd where
  /-- SEQ of the next new frame -/
  txSeq : Nat
  /-- replay buffer: frames sent and not acknowledged, oldest first -/
  buffer : List Frame
  /-- frames waiting to be sent -/
  queue : List Frame
  /-- SEQ of the last frame accepted -/
  rxLast : Nat
  nak : Bool
  /-- frames accepted since the last frame sent -/
  sinceAck : Nat
  /-- frames put on the wire since the end was last attended to, oldest first -/
  wire : List Frame
  /-- how often its oldest frame outstanding has been resent (R481) -/
  resends : Nat
  deriving DecidableEq, Repr

/-- An end after reset. -/
def LinkEnd.init : LinkEnd where
  txSeq := 0
  buffer := []
  queue := []
  rxLast := 4095
  nak := false
  sinceAck := 0
  wire := []
  resends := 0

/-- A link: its state and counters (R500). -/
structure Link where
  st : LinkSt
  lanes : Nat
  speed : Nat
  orderErr : Bool
  neighbour : Option Nat
  crcErrors : Nat
  replays : Nat
  fecBad : Nat
  fecGood : Nat
  degrades : Nat
  restores : Nat
  working : List Nat
  discards : Nat
  crcEdge : Option Nat
  faultLane : Nat
  rewidening : Bool
  /-- retrains that have failed in succession (R483) -/
  failed : Nat
  /-- acknowledgement timers since the 1 µs interval began, and whether it and the one before it brought uncorrectable codewords
  (R481) -/
  timers : Nat
  fecNow : Bool
  fecBefore : Bool
  deriving DecidableEq, Repr

/-- A link after reset. -/
def Link.init : Link where
  st := .down
  lanes := 0
  speed := 0
  orderErr := false
  neighbour := none
  crcErrors := 0
  replays := 0
  fecBad := 0
  fecGood := 0
  degrades := 0
  restores := 0
  working := []
  discards := 0
  crcEdge := none
  faultLane := 0
  rewidening := false
  failed := 0
  timers := 0
  fecNow := false
  fecBefore := false

/-- A context of a check-value unit (R488): algorithm 0–2, running value before the final XOR. -/
structure CvuCtx where
  alg : Nat
  value : W64
  inUse : Bool
  /-- it has been used since reset: before that every register of it reads 0 (R500) -/
  used : Bool
  deriving DecidableEq, Repr

/-- A check-value unit. -/
structure Cvu where
  sel : Nat
  ctxs : Tbl CvuCtx
  deriving DecidableEq, Repr

/-- A check-value unit after reset. -/
def Cvu.init : Cvu where
  sel := 0
  ctxs := []

/-- A DRAM channel's arbiter (R491–R496). -/
structure ArbChan where
  raised : List ArbReq
  cur : Option (ArbReq × Nat)
  grants1 : Nat
  grants2 : Nat
  grants15 : Nat
  masked12 : Bool
  hitReserve : Bool
  /-- beats since reset, and windows that have ended (R490, R494) -/
  beats : Nat
  ended : Nat
  deriving DecidableEq, Repr

/-- A channel after reset. -/
def ArbChan.init : ArbChan where
  raised := []
  cur := none
  grants1 := 0
  grants2 := 0
  grants15 := 0
  masked12 := false
  hitReserve := false
  beats := 0
  ended := 0

/-- The arbiters of all keels: channels keyed keel × 96 + channel, counters keyed by keel. -/
structure Arb where
  chans : Tbl ArbChan
  revokes : Tbl Nat
  masked : Tbl Nat
  reserve : Tbl Nat
  deriving DecidableEq, Repr

/-! Supplies, temperature, ADC (13) -/

/-- A SUPPLY_SWITCH record before it is written: the input now in use, and the two voltages in 10 mV as their injected conversions end
(R505). -/
structure SwitchNote where
  input : Nat
  main : Option Nat
  backup : Option Nat
  deriving DecidableEq, Repr

/-- The supply controller (R501–R509, R534). -/
structure Supply where
  backup : Bool
  mainGood : Bool
  backupGood : Bool
  mainOv : Bool
  backupOv : Bool
  /-- the comparator of main at 44 V (R504) -/
  mainAbove : Bool
  /-- when the return timer started, while it runs (R503) -/
  timer : Option Nat
  mainV : Nat
  backupV : Nat
  pAvg : Nat
  pLast : Nat
  /-- products of the scans in the last 256 µs -/
  scans : List (Nat × Nat)
  switches : Nat
  unmet : Bool
  alert : BitVec 9
  enable : BitVec 9
  /-- switches to report at the next edge: input now in use, input left -/
  report : List (Nat × Nat)
  /-- SUPPLY_SWITCH records that wait for their conversions (R505) -/
  notes : List SwitchNote
  capTime : Nat
  /-- time since which P_avg has been below POWER_CAP − CAP_HYST -/
  lowSince : Option Nat
  /-- time since which P_avg has been above POWER_CAP -/
  highSince : Option Nat
  stopping : Bool
  deriving DecidableEq, Repr

/-- A sensor: reading in 1/16 °C, broken, and consecutive readings against that state (R513). -/
structure Sensor where
  temp : W16
  broken : Bool
  run : Nat
  deriving DecidableEq, Repr

/-- A sensor after reset. -/
def Sensor.init : Sensor where
  temp := 0
  broken := false
  run := 0

/-- The thermal monitor: sensors keyed by die 0–40 and input 64–67. -/
structure Thermal where
  /-- the die whose diode is read next (R512) -/
  turn : Nat
  diodes : Tbl Sensor
  therms : Tbl Sensor
  bands : Tbl Nat
  tripStop : Nat
  sensorStop : Nat
  /-- edges for which the resume conditions of R520 have held, per stack -/
  calm : Tbl Nat
  block : List Byte
  /-- coolant inputs past their limit: 64–67, 68 -/
  crossed : List Nat
  deriving DecidableEq, Repr

/-- A channel's result and limits (R528, R534). -/
structure AdcChan where
  code : Nat
  valid : Bool
  highHit : Bool
  lowHit : Bool
  opened : Bool
  high : Nat
  low : Nat
  deriving DecidableEq, Repr

/-- A channel after reset. -/
def AdcChan.init : AdcChan where
  code := 0
  valid := false
  highHit := false
  lowHit := false
  opened := false
  high := 0xFFF
  low := 0

/-- The housekeeping ADC (R523–R529). -/
structure Adc where
  trigger : Nat
  delay : Nat
  pwm : Nat
  seqn : List Nat
  next : Option (List Byte)
  running : Bool
  entry : Nat
  missed : Nat
  /-- the injection being performed, and those that wait: channel, and whether the supply controller asks (R505, R527) -/
  injecting : Option (Nat × Bool)
  inject : List (Nat × Bool)
  injectLost : Bool
  scans : Nat
  /-- converter 1's next channel, scans since the last open-wire pass, and whether such a pass runs (R524) -/
  pos : Nat
  round : Nat
  openPass : Bool
  openRuns : Tbl Nat
  chans : Tbl AdcChan
  deriving DecidableEq, Repr

/-- The state of the module. -/
structure State where
  pending : List Instr
  nv : Nv
  boot : Boot
  opts : Opts
  tick : Tick
  spools : Tbl Spool
  sync : Tbl W64
  bus : Bus
  models : Tbl Model
  sessions : Tbl Session
  adapters : Tbl Adapter
  kv : Kv
  pipe : Pipe
  arr : Arrays
  chk : Checks
  links : Tbl Link
  /-- link ends: a chain port under its link number; of a bridle link, the lower keel's under the link number and
  the other under 32 more -/
  ends : Tbl LinkEnd
  cvu : Tbl Cvu
  arb : Arb
  supply : Supply
  thermal : Thermal
  adc : Adc
  free : Nat
  deriving DecidableEq, Repr

/-! The values after a reset that reaches each part (R539). -/

/-- NV flash of a fresh module (log 2). -/
def Nv.fresh : Nv where
  part := { binB := false, signedOnly := false }
  stepMajor := 0
  stepMinor := 0
  serial := 0
  copyA := .blank
  copyB := .blank
  cause := .none
  spares := List.replicate 32 ((List.range 64).map (· + 1792))

/-- The boot state at the start of a bring-up from power-on (log 3). -/
def Boot.init : Boot where
  powered := true
  step := 0
  ready := false
  loadDone := false
  hold := 0
  bistFail := 0
  cause := 0
  arriving := [.powerOn]
  flrLast := 0
  strapBoot := 0
  strapClk := 0
  strapAddr := 0
  trimBad := 0
  trimZero := []
  aStatus := 1
  bStatus := 1
  inUse := 2
  image := none
  nvFault := false
  imageBusy := false
  pulse := false
  latched := []
  pins := []
  buffer := []
  waitImage := false
  sbOffset := 0
  sbAddr := none
  vfEnable := false
  ideIo := false
  ideMem := false
  trip := false
  imgJob := none

/-- Options after reset: the factory defaults, held as the absence of any other value (R539). -/
def Opts.init : Opts where
  force := []
  pend := []
  image := []

/-- The tick master after reset. -/
def Tick.init : Tick where
  count := 0
  edges := 0
  time := 0
  role := 0
  comp := 0
  period := 64
  locked := false
  holdover := false
  skew := 0
  missed := 0
  lockRun := 0
  master := none
  adopt := false
  pend := none
  acts := []
  adjust := 0
  capStep := 0
  budget := 448
  overruns := 0
  quotaEdge := 0

/-- The bus after reset. -/
def Bus.init : Bus where
  wakes := []
  turn := 0
  served := 0
  latch := []
  rdata := 0
  resp := 0
  host := []
  viral := false
  snoop := []
  snooped := []
  portId := 0
  aer := 0
  line := []
  hdmBase := none
  spdm := []
  spdmSig := []

/-- The key-value store after reset. -/
def Kv.init : Kv where
  frames := []
  freed := []
  fresh := []
  pages := []
  runs := []
  parked := []
  zero := []
  dram := []
  scores := []

/-- The pipeline after reset. -/
def Pipe.init : Pipe where
  entries := []
  nextId := 0
  ctx := []
  quota := []
  stages := []
  expo := []
  keels := []
  plan := []
  ran := []
  panelUsed := []
  dieUsed := []
  arrivals := []
  inbound := []
  spots := []
  nextSpot := 0
  decided := []

/-- The arrays after reset. -/
def Arrays.init : Arrays where
  tiles := []
  panels := []
  dies := []
  places := []
  retired := []
  wins := []
  doubt := []

/-- The checks after reset. -/
def Checks.init : Checks where
  fails := 0
  transients := 0
  replays := 0
  residue := 0
  dramPersistent := 0
  dramTransient := 0
  sram := 0
  spots := 0
  spotFails := 0
  testFails := 0
  testRuns := 0
  spotMaxAge := 0
  log := []
  next := 0
  captures := []
  lost := []
  expSel := 0
  capSel := 0
  spotNext := []
  spotPanels := []
  testNext := []
  testCount := 0
  coreNext := []
  failing := []
  badLines := []
  badReads := []
  badSects := []
  shown := false
  seen := []
  seenModels := []
  seenPlaces := []
  seenSuspect := []
  seenCaps := []
  seenLost := []

/-- The arbiters after reset. -/
def Arb.init : Arb where
  chans := []
  revokes := []
  masked := []
  reserve := []

/-- The supply controller after reset; ALERT_ENABLE is 0 with factory defaults (log 20). -/
def Supply.init : Supply where
  backup := false
  mainGood := false
  backupGood := false
  mainOv := false
  backupOv := false
  mainAbove := false
  timer := none
  mainV := 0
  backupV := 0
  pAvg := 0
  pLast := 0
  scans := []
  switches := 0
  unmet := false
  alert := 0
  enable := 0
  report := []
  notes := []
  capTime := 0
  lowSince := none
  highSince := none
  stopping := false

/-- The thermal block of the factory defaults (R522). -/
def defaultThermal : List Byte :=
  [55, 70, 85, 95, 2, 80, 0, 0, 0xA0, 0x02, 0x70, 0x03, 0xE0, 0x00, 0, 0,
   0, 0, 0, 0, 0, 0, 0, 0, 0, 0, 0, 0, 0, 0, 0, 0]

/-- The thermal monitor after reset. -/
def Thermal.init : Thermal where
  turn := 0
  diodes := []
  therms := []
  bands := []
  tripStop := 0
  sensorStop := 0
  calm := []
  block := defaultThermal
  crossed := []

/-- The ADC after reset. -/
def Adc.init : Adc where
  trigger := 0
  delay := 0
  pwm := 0
  seqn := []
  next := none
  running := false
  entry := 0
  missed := 0
  injecting := none
  inject := []
  injectLost := false
  scans := 0
  pos := 0
  round := 0
  openPass := false
  openRuns := []
  chans := []

/-- The machine right after reset: powered, at the start of bring-up, nothing loaded. -/
def State.reset : State where
  pending := []
  nv := Nv.fresh
  boot := Boot.init
  opts := Opts.init
  tick := Tick.init
  spools := []
  sync := []
  bus := Bus.init
  models := []
  sessions := []
  adapters := []
  kv := Kv.init
  pipe := Pipe.init
  arr := Arrays.init
  chk := Checks.init
  links := []
  ends := []
  cvu := []
  arb := Arb.init
  supply := Supply.init
  thermal := Thermal.init
  adc := Adc.init
  free := 0

end Sys2Proof.Machine
end

