-- ==== Sys2Proof/Machine/Options.lean ====
section
/-!
DEFINITION. The options (R403 and the option table of each chapter): number, range, factory default, and the
value in force, pending, or given by the image. Values are held only where they differ by having been set.
-/
namespace Sys2Proof.Machine

/-! Option numbers (R403, R465, R498, R532, R561). -/
def oCalInterval : Nat := 0x0101
def oCalAgree : Nat := 0x0102
def oCalDisagreeLimit : Nat := 0x0103
def oDriftLimit : Nat := 0x0104
def oScrubPeriod : Nat := 0x0105
def oRefreshDivisor : Nat := 0x0106
def oCheckSatLimit : Nat := 0x0107
def oTailRatio : Nat := 0x0201
def oCheckTailLimit : Nat := 0x0202
def oTailBudget : Nat := 0x0203
def oWideBudget : Nat := 0x0204
def oDeltaBudget : Nat := 0x0205
def oTickPeriod : Nat := 0x0301
def oTickRole : Nat := 0x0302
def oTickInComp : Nat := 0x0303
def oActivePanels : Nat := 0x0304
def oRepeatReserve : Nat := 0x0305
def oKvShare : Nat := 0x0306
def oQuotaWindow : Nat := 0x0307
def oClassQuota0 : Nat := 0x0308
def oKvFormat : Nat := 0x0401
def oKvHeadroom : Nat := 0x0402
def oSessionClass : Nat := 0x0501
def oPrefillChunk : Nat := 0x0502
def oDefaultTemperature : Nat := 0x0503
def oDefaultTopP : Nat := 0x0504
def oDefaultTopK : Nat := 0x0505
def oDefaultRepPenalty : Nat := 0x0506
def oDefaultPenaltyWindow : Nat := 0x0507
def oReelTiles : Nat := 0x0601
def oReelShare : Nat := 0x0602
def oSpoolTimeout : Nat := 0x0701
def oSpoolSessionQuota : Nat := 0x0702
def oSpoolFrameQuota : Nat := 0x0703
def oVfSpools : Nat := 0x0704
def oVfCounters : Nat := 0x0705
def oTileCheckTol : Nat := 0x0801
def oSpotPeriod : Nat := 0x0802
def oSpotTol : Nat := 0x0803
def oFieldTests : Nat := 0x0804
def oHdmSize : Nat := 0x0901
def oArbWalkerQuota : Nat := 0x0902
def oArbHostReserve : Nat := 0x0903
def oPowerCap : Nat := 0x0A01
def oCapHyst : Nat := 0x0A02
def oSidebandControl : Nat := 0x0B01

/-- The numeric range of an option, [low, high]; the three options with another kind of range are given by
`optInRange` (R115, R156, R197, R236, R283, R329, R387, R465, R498, R532, R561). CHECK_SAT_LIMIT: R52. -/
def optRange (n : Nat) : Option (Nat × Nat) :=
  match n with
  | 0x0101 => some (256, 65536)
  | 0x0102 => some (1, 32)
  | 0x0103 => some (1, 255)
  | 0x0104 => some (4, 255)
  | 0x0105 => some (65536, 16777216)
  | 0x0106 => some (1, 4)
  | 0x0107 => some (0, 255)
  | 0x0201 => some (0, 4095)
  | 0x0202 => some (0, 255)
  | 0x0203 => some (0, 262144)
  | 0x0204 => some (0, 256)
  | 0x0205 => some (0, 262144)
  | 0x0301 => some (16, 256)
  | 0x0302 => some (0, 2)
  | 0x0303 => some (0, 255)
  | 0x0304 => some (64, 512)
  | 0x0305 => some (0, 1024)
  | 0x0306 => some (16, 60)
  | 0x0307 => some (16, 65536)
  | 0x0308 => some (0, 16777215)
  | 0x0309 => some (0, 16777215)
  | 0x030A => some (0, 16777215)
  | 0x0401 => some (0, 2)
  | 0x0402 => some (4, 64)
  | 0x0501 => some (0, 3)
  | 0x0502 => some (16, 2048)
  | 0x0503 => some (0, 65535)
  | 0x0504 => some (0, 65535)
  | 0x0505 => some (0, 262144)
  | 0x0506 => some (0, 65535)
  | 0x0507 => some (0, 256)
  | 0x0601 => some (8, 256)
  | 0x0602 => some (8, 48)
  | 0x0701 => some (0, 600000)
  | 0x0702 => some (0, 65536)
  | 0x0703 => some (0, 4294967295)
  | 0x0704 => some (0, 63)
  | 0x0705 => some (0, 127)
  | 0x0801 => some (8, 1023)
  | 0x0802 => some (4096, 65536)
  | 0x0803 => some (1, 255)
  | 0x0804 => some (0, 1)
  | 0x0901 => some (0, 32)
  | 0x0902 => some (16, 512)
  | 0x0903 => some (0, 512)
  | 0x0A01 => some (2000, 4000)
  | 0x0A02 => some (50, 500)
  | 0x0B01 => some (0, 1)
  | _ => none

/-- TEMPERATURE of R258: zero, or positive finite, as FP16. -/
def tempOk (x : Nat) : Bool :=
  let h := BitVec.ofNat 16 x
  f16IsFin h && (x == 0 || x == 0x8000 || !h.msb)

/-- TOP_P of R258: a zero, or positive, +∞ included. -/
def topPOk (x : Nat) : Bool := decide (x ≤ 0x7C00) || x == 0x8000

/-- REP_PENALTY of R258: FP16 from 1 to 8. -/
def penaltyOk (x : Nat) : Bool := decide (0x3C00 ≤ x) && decide (x ≤ 0x4800)

/-- Whether a value lies in an option's range. -/
def optInRange (n v : Nat) : Bool :=
  match optRange n with
  | none => false
  | some (lo, hi) =>
    decide (lo ≤ v) && decide (v ≤ hi) &&
    (if n = oRefreshDivisor then v != 3
     else if n = oTailRatio then v == 0 || decide (32 ≤ v)
     else if n = oSpoolTimeout then v == 0 || decide (10 ≤ v)
     else if n = oDefaultTemperature then tempOk v
     else if n = oDefaultTopP then topPOk v
     else if n = oDefaultRepPenalty then penaltyOk v
     else true)

/-- The factory default of an option; ACTIVE_PANELS and POWER_CAP take the part's bin (R1, R400). -/
def optDefault (p : Part) (n : Nat) : Nat :=
  match n with
  | 0x0101 => 2048
  | 0x0102 => 4
  | 0x0103 => 3
  | 0x0104 => 24
  | 0x0105 => 262144
  | 0x0106 => 1
  | 0x0201 => 96
  | 0x0203 => 24576
  | 0x0204 => 16
  | 0x0205 => 8192
  | 0x0301 => 64
  | 0x0304 => if p.binB then 360 else 448
  | 0x0305 => 32
  | 0x0306 => 56
  | 0x0307 => 1024
  | 0x0308 => 16777215
  | 0x0309 => 16777215
  | 0x030A => 16777215
  | 0x0402 => 8
  | 0x0501 => 2
  | 0x0502 => 512
  | 0x0503 => 0x3C00
  | 0x0506 => 0x3C00
  | 0x0601 => 128
  | 0x0602 => 26
  | 0x0701 => 2000
  | 0x0702 => 65536
  | 0x0703 => 4294967295
  | 0x0704 => 16
  | 0x0705 => 64
  | 0x0801 => 48
  | 0x0802 => 4096
  | 0x0803 => 4
  | 0x0804 => 1
  | 0x0901 => 8
  | 0x0902 => 128
  | 0x0903 => 64
  | 0x0A01 => if p.binB then 3200 else 4000
  | 0x0A02 => 150
  | 0x0B01 => 1
  | _ => 0

/-- The bin maximum of ACTIVE_PANELS and POWER_CAP (R1), and the limit it sets (R2). -/
def binLimit (p : Part) (n v : Nat) : Nat :=
  if p.binB then
    if n = oActivePanels then min v 384 else if n = oPowerCap then min v 3200 else v
  else v

/-- The value the chosen image gives, or the factory default (R400). -/
def optImage (s : State) (n : Nat) : Nat := s.opts.image.get (optDefault s.nv.part n) n

/-- The value in force. -/
def opt (s : State) (n : Nat) : Nat := s.opts.force.get (optImage s n) n

/-- The security policy of the image in force: the 1,600 bytes of POLICY (R546). -/
def policy (s : State) : List Byte :=
  match s.boot.image with
  | some b => slice b 12800 1600
  | none => toLe 4 (if s.nv.part.signedOnly then 2 else 3) ++ zeros 1596

/-- POLICY_FLAGS of a policy (R546). -/
def polFlags (p : List Byte) : Nat := le p 0 4

/-- POLICY_FLAGS in force; an -S part ignores UNSIGNED_IMAGES (R3). -/
def policyFlags (s : State) : Nat :=
  let f := polFlags (policy s)
  if s.nv.part.signedOnly then f - f % 2 else f

/-- The value that will be in force once the pending change, if any, takes effect. -/
def optNext (s : State) (n : Nat) : Nat := s.opts.pend.get (opt s n) n

/-- The capacity of R119, in segments, at a tick period. -/
def tailCapacity (period : Nat) : Nat := 3200 * period

/-- The sum of R121 for three allowances. -/
def tailSum (wide tail delta : Nat) : Nat := wide * 1024 + tail + delta + 2048

/-- The sum of R121 with every pending change of an allowance in effect. -/
def tailSumNext (s : State) : Nat := tailSum (optNext s oWideBudget) (optNext s oTailBudget) (optNext s oDeltaBudget)

end Sys2Proof.Machine
end

