-- ==== Sys2Proof/WellFormed.lean ====
section
/-!
DEFINITION. When a command is well formed: its operands name units the module has (R15–R19, R330, R371 and
the numbering of R423). A command that fails here reaches no unit and changes nothing (log 21).
-/
namespace Sys2Proof

/-- A module panel number that names an installed panel (R17). -/
def panelOk (p : Nat) : Bool := decide (p < 65536) && decide (p % 2048 < 1856)

/-- A module tile number of an installed panel (R18). -/
def tileOk (t : Nat) : Bool := panelOk (t / 8)

/-- A keel number (R15). -/
def keelOk (k : Nat) : Bool := decide (k < 8)

/-- A link number of R423. -/
def linkOk (l : Nat) : Bool := decide (l < 3) || (decide (16 ≤ l) && decide (l < 28))

/-- A request that a channel can have: a requester of its class, and a transfer of 1 to 8 beats (R490, R491). -/
def arbReqOk (r : ArbReq) : Bool :=
  let ids := [4, 16, 32, 2, 4, 2]
  decide (1 ≤ r.cls) && decide (r.idx < ids.getD (r.cls - 1) 0) && decide (1 ≤ r.beats) && decide (r.beats ≤ 8)

/-- A function number: 0 the PF, 1–64 a VF (R330). -/
def fnOk (f : Nat) : Bool := decide (f < 65)

/-- A spool number (R330). -/
def spoolOk (p : Nat) : Bool := decide (p < 4096)

/-- A session index, and a layer root of it: layers below 256, and the draft's. -/
def sessOk (i : Nat) : Bool := decide (i < 65536)

/-- A register access size (R11 leaves other sizes without effect, so they are well formed). -/
def sizeOk (n : Nat) : Bool := decide (1 ≤ n) && decide (n ≤ 64)

/-- A command header: a spool that receives packets, a slot and a counter in range (R330, R338, R371). -/
def Cmd.wf (c : Cmd) : Bool :=
  decide (1 ≤ c.spool) && decide (c.spool < 4096) && decide (c.slot < 65536) && decide (c.counter < 8192)

/-- The header of a host command; none for every other row. -/
def Instr.cmd? : Instr → Option Cmd
  | .nop c => some c
  | .identify c _ => some c
  | .getStatus c => some c
  | .setOption c _ _ => some c
  | .getOption c _ _ => some c
  | .tickConfig c _ _ => some c
  | .syncSignal c _ _ _ => some c
  | .syncWait c _ _ _ _ => some c
  | .spoolOpen c _ _ _ _ _ _ => some c
  | .spoolClose c _ => some c
  | .keepalive c => some c
  | .spoolAdopt c => some c
  | .bundleStage c _ _ _ _ _ _ => some c
  | .modelPlace c _ _ => some c
  | .modelWrite c => some c
  | .modelCommit c => some c
  | .modelReplace c _ _ => some c
  | .modelUnload c _ => some c
  | .panelRetire c _ => some c
  | .panelRemap c _ _ _ _ => some c
  | .sessionOpen c _ _ _ _ => some c
  | .sessionPrefill c _ _ _ _ => some c
  | .sessionStep c _ => some c
  | .sessionCancel c _ => some c
  | .sessionRelease c => some c
  | .sessionRebind c _ => some c
  | .sessionFork c _ => some c
  | .sessionTruncate c _ _ => some c
  | .sessionRecompute c _ _ _ => some c
  | .sessionQuery c _ => some c
  | .specVerify c _ _ _ _ => some c
  | .adapterLoad c _ _ _ => some c
  | .adapterRetire c => some c
  | .adapterQuery c => some c
  | .steerBankLoad c _ _ _ => some c
  | .frameQuota c _ _ => some c
  | .frameQuery c _ => some c
  | .kvExport c _ _ => some c
  | .kvImport c _ _ _ => some c
  | .calRun c _ _ => some c
  | .calRead c _ _ => some c
  | .calWrite c _ => some c
  | .trimRead c _ _ _ => some c
  | .trimWrite c _ _ => some c
  | .redundancyLoad c _ _ => some c
  | .refreshPolicy c _ _ => some c
  | .testPanel c _ => some c
  | .testCore c _ => some c
  | .bistRun c _ => some c
  | .faultRead c _ _ _ => some c
  | .exposureRead c _ _ _ => some c
  | .captureRead c _ _ => some c
  | .checkPolicy c _ _ => some c
  | .attest c _ _ _ => some c
  | .imageWrite c _ _ => some c
  | .keyInfo c _ => some c
  | .adcSequence c _ => some c
  | .adcRead c _ _ => some c
  | .thermalConfig c _ => some c
  | .supplyStatus c => some c
  | _ => none

/-- The same command with its header replaced; rows without one are unchanged. -/
def Instr.withCmd (i : Instr) (c : Cmd) : Instr :=
  match i with
  | .nop _ => .nop c
  | .identify _ a => .identify c a
  | .getStatus _ => .getStatus c
  | .setOption _ o v => .setOption c o v
  | .getOption _ o v => .getOption c o v
  | .tickConfig _ p e => .tickConfig c p e
  | .syncSignal _ n o v => .syncSignal c n o v
  | .syncWait _ n r t v => .syncWait c n r t v
  | .spoolOpen _ a b d e f q => .spoolOpen c a b d e f q
  | .spoolClose _ r => .spoolClose c r
  | .keepalive _ => .keepalive c
  | .spoolAdopt _ => .spoolAdopt c
  | .bundleStage _ a l m f n k => .bundleStage c a l m f n k
  | .modelPlace _ st f => .modelPlace c st f
  | .modelWrite _ => .modelWrite c
  | .modelCommit _ => .modelCommit c
  | .modelReplace _ f e => .modelReplace c f e
  | .modelUnload _ p => .modelUnload c p
  | .panelRetire _ p => .panelRetire c p
  | .panelRemap _ m p sp a => .panelRemap c m p sp a
  | .sessionOpen _ m st d e => .sessionOpen c m st d e
  | .sessionPrefill _ a n sa dp => .sessionPrefill c a n sa dp
  | .sessionStep _ n => .sessionStep c n
  | .sessionCancel _ f => .sessionCancel c f
  | .sessionRelease _ => .sessionRelease c
  | .sessionRebind _ r => .sessionRebind c r
  | .sessionFork _ e => .sessionFork c e
  | .sessionTruncate _ l p => .sessionTruncate c l p
  | .sessionRecompute _ a f n => .sessionRecompute c a f n
  | .sessionQuery _ a => .sessionQuery c a
  | .specVerify _ k r l a => .specVerify c k r l a
  | .adapterLoad _ a l r => .adapterLoad c a l r
  | .adapterRetire _ => .adapterRetire c
  | .adapterQuery _ => .adapterQuery c
  | .steerBankLoad _ a f n => .steerBankLoad c a f n
  | .frameQuota _ q f => .frameQuota c q f
  | .frameQuery _ a => .frameQuery c a
  | .kvExport _ a l => .kvExport c a l
  | .kvImport _ a l p => .kvImport c a l p
  | .calRun _ p k => .calRun c p k
  | .calRead _ p a => .calRead c p a
  | .calWrite _ a => .calWrite c a
  | .trimRead _ f n a => .trimRead c f n a
  | .trimWrite _ a n => .trimWrite c a n
  | .redundancyLoad _ a n => .redundancyLoad c a n
  | .refreshPolicy _ d v => .refreshPolicy c d v
  | .testPanel _ p => .testPanel c p
  | .testCore _ k => .testCore c k
  | .bistRun _ k => .bistRun c k
  | .faultRead _ a f n => .faultRead c a f n
  | .exposureRead _ p n a => .exposureRead c p n a
  | .captureRead _ t a => .captureRead c t a
  | .checkPolicy _ p v => .checkPolicy c p v
  | .attest _ a l n => .attest c a l n
  | .imageWrite _ a k => .imageWrite c a k
  | .keyInfo _ a => .keyInfo c a
  | .adcSequence _ a => .adcSequence c a
  | .adcRead _ ch a => .adcRead c ch a
  | .thermalConfig _ a => .thermalConfig c a
  | .supplyStatus _ => .supplyStatus c
  | i => i

/-- Whether the units a row names exist, for the rows that carry no command header. -/
def Instr.unitsOk : Instr → Bool
  | .sqTailDoorbell fn sp _ => fnOk fn && spoolOk sp
  | .cqHeadWrite fn sp _ => fnOk fn && spoolOk sp
  | .spoolCtrlOpen fn sp => fnOk fn && spoolOk sp
  | .spoolCtrlResync fn sp => fnOk fn && spoolOk sp
  | .syncCounterWrite fn n sz _ => fnOk fn && decide (n < 8192) && sizeOk sz
  | .latchedLowRead fn b o => fnOk fn && (b == 0 || b == 2) && sizeOk o.size
  | .latchedHighRead fn b _ => fnOk fn && (b == 0 || b == 2)
  | .registerWrite fn b _ sz _ => fnOk fn && (b == 0 || b == 2) && sizeOk sz
  | .calSnap k => keelOk k
  | .rewiden l => linkOk l
  | .cvuHostPoly u _ => decide (u < 9)
  | .cvuHostInit u => decide (u < 9)
  | .cvuHostValueWrite u _ sz _ => decide (u < 9) && sizeOk sz
  | .cvuHostData u sz _ => decide (u < 9) && sizeOk sz
  | .packetFetch sp _ _ => decide (1 ≤ sp) && spoolOk sp
  | .commandStart sp _ _ => decide (1 ≤ sp) && spoolOk sp
  | .statusRecordWrite sp _ => spoolOk sp
  | .syncWaitTimeout sp _ => decide (1 ≤ sp) && spoolOk sp
  | .spoolTimeout sp => decide (1 ≤ sp) && spoolOk sp
  | .sealDecision k => keelOk k
  | .residueRerun k tail tries _ _ =>
    keelOk k && tries.all fun t => decide (t.unit < if tail then 32 else 1024)
  | .frameCopy i _ _ _ => sessOk i
  | .refreshHalf t h => tileOk t && decide (h < 2)
  | .refreshUrgent t => tileOk t
  | .recalibration p _ _ => panelOk p
  | .calInterval p => panelOk p
  | .recalUrgent p => panelOk p
  | .scrubUnit t u _ => tileOk t && decide (u < 4)
  | .scrubUrgent t => tileOk t
  | .scrubLate t => tileOk t
  | .rowRewrite t r _ => tileOk t && decide (r < 1024)
  | .rewriteUrgent t => tileOk t
  | .substitutionWrite t => tileOk t
  | .checkStoreRewrite t => tileOk t
  | .writePiece t _ => tileOk t
  | .tileWriteDone t => tileOk t
  | .panelFieldTest p _ => panelOk p
  | .coreFieldTest c _ => decide (c < 8192)
  | .spotCheckDue p => panelOk p
  | .dramLineFail k r _ _ _ => keelOk k && (match r with
      | .calCounts p => panelOk p
      | .master m _ _ _ _ _ => decide (m < 16)
      | _ => true)
  | .sramParity k _ c _ _ => keelOk k && (match c with
      | .correction p => panelOk p
      | .weightScale t => tileOk t
      | .buffer _ => true)
  | .dramArbitration k ch rs => keelOk k && decide (ch < 96) && rs.all arbReqOk
  | .arbWindowEnd k ch => keelOk k && decide (ch < 96)
  | .cutOver m => decide (m < 16)
  | .shadowWriteStart m u => decide (m < 16) && decide (u < 258)
  | .layerSwitched m u => decide (m < 16) && decide (u < 258)
  | .adapterFree k i => (k == 0 && decide (i < 4096)) || (k == 1 && decide (i < 256))
  | .linkFrameReceive l _ _ _ _ _ => linkOk l
  | .ackTimeout l => linkOk l
  | .ackOnlyTimer l => linkOk l
  | .laneFault l _ => linkOk l
  | .retrainDone l _ => linkOk l
  | .linkLost l _ => linkOk l
  | .linkTrainRetry l _ => linkOk l
  | .chainNeighbourLearn l _ => l == 1 || l == 2
  | .configRequest fn _ => fnOk fn
  | .flr fn => fnOk fn
  | .thermalTrip d => decide (d < 41)
  | .stackResume st => decide (st < 8)
  | .hostDmaTransfer sp _ _ => decide (1 ≤ sp) && spoolOk sp
  | .bringUp b => decide (b.bootSel < 4) && decide (b.clkSel < 4) && decide (b.modAddr < 16) && b.bistFail.all (fun k => decide (k < 9)) && b.dramFail.all keelOk && b.trimBad.all panelOk &&
    [8, 4, 2].contains b.lanes && decide (1 ≤ b.rate) && decide (b.rate ≤ 3)
  | .sidebandWrite (.setdasa st d) => decide (st < 128) && decide (d < 128)
  | .sidebandWrite (.priv a _ _) => decide (a < 128)
  | .sidebandRead a => decide (a < 128)
  | .bistRunDone ks => ks.all keelOk
  | _ => true

/-- A command is well formed. -/
def Instr.wf (i : Instr) : Bool :=
  match i.cmd? with
  | some c => c.wf
  | none => i.unitsOk

end Sys2Proof
end

