-- ==== Sys2Proof/Machine/Ops.lean ====
section
/-!
DEFINITION. The shared operations over State: one updater per part of the state, lookups, ownership, status
records and credits, sync counters, events, fault records, and the start and end of a host command.
-/
namespace Sys2Proof.Machine

/-- A well-formed command answers the state it leads to. One whose operands name no unit of the module reaches nothing:
what it names is not there to receive it, and nothing changes (R10, R11, R15–R18, R330, R371; log 21). -/
def guarded (ok : Bool) (s t : State) : Host.Outcome State Fault Refusal := .next (if ok then t else s)

/-- The length of the tick that runs now, in ns (R165). -/
def tickNs (s : State) : Nat := (250 * (s.tick.period : Int) + s.tick.adjust).toNat

/-! One updater per part of the state. -/

def State.onNv (s : State) (f : Nv → Nv) : State := { s with nv := f s.nv }
def State.onBoot (s : State) (f : Boot → Boot) : State := { s with boot := f s.boot }
def State.onOpts (s : State) (f : Opts → Opts) : State := { s with opts := f s.opts }
def State.onTick (s : State) (f : Tick → Tick) : State := { s with tick := f s.tick }
def State.onBus (s : State) (f : Bus → Bus) : State := { s with bus := f s.bus }
def State.onKv (s : State) (f : Kv → Kv) : State := { s with kv := f s.kv }
def State.onPipe (s : State) (f : Pipe → Pipe) : State := { s with pipe := f s.pipe }
def State.onArr (s : State) (f : Arrays → Arrays) : State := { s with arr := f s.arr }
def State.onChk (s : State) (f : Checks → Checks) : State := { s with chk := f s.chk }
def State.onArb (s : State) (f : Arb → Arb) : State := { s with arb := f s.arb }
def State.onSupply (s : State) (f : Supply → Supply) : State := { s with supply := f s.supply }
def State.onThermal (s : State) (f : Thermal → Thermal) : State := { s with thermal := f s.thermal }
def State.onAdc (s : State) (f : Adc → Adc) : State := { s with adc := f s.adc }
def State.onSpool (s : State) (p : Nat) (f : Spool → Spool) : State :=
  { s with spools := s.spools.upd Spool.init p f }
def State.onModel (s : State) (m : Nat) (f : Model → Model) : State :=
  { s with models := s.models.upd Model.init m f }
def State.onSess (s : State) (i : Nat) (f : Session → Session) : State :=
  { s with sessions := s.sessions.upd Session.init i f }
def State.onAdapter (s : State) (k : Nat) (f : Adapter → Adapter) : State :=
  { s with adapters := s.adapters.upd Adapter.init k f }
def State.onLink (s : State) (l : Nat) (f : Link → Link) : State :=
  { s with links := s.links.upd Link.init l f }
def State.onEnd (s : State) (k : Nat) (f : LinkEnd → LinkEnd) : State :=
  { s with ends := s.ends.upd LinkEnd.init k f }
def State.onCvu (s : State) (u : Nat) (f : Cvu → Cvu) : State :=
  { s with cvu := s.cvu.upd Cvu.init u f }
/-- Add changes for the next edge. -/
def atEdge (s : State) (l : List EdgeAct) : State := s.onTick fun t => { t with acts := t.acts ++ l }
def State.setSync (s : State) (n : Nat) (v : W64) : State := { s with sync := s.sync.set n v }

def State.onTile (s : State) (t : Nat) (f : Tile → Tile) : State :=
  s.onArr fun a => { a with tiles := a.tiles.upd (a.unlisted t) t f }
def State.onPanel (s : State) (p : Nat) (f : Panel → Panel) : State :=
  s.onArr fun a => { a with panels := a.panels.upd Panel.init p f }
def State.onDie (s : State) (d : Nat) (f : Die → Die) : State :=
  s.onArr fun a => { a with dies := a.dies.upd Die.init d f }
def State.onWin (s : State) (k : Nat) (f : CalWin → CalWin) : State :=
  s.onArr fun a => { a with wins := a.wins.upd CalWin.init k f }
def State.onKeel (s : State) (k : Nat) (f : KeelCtr → KeelCtr) : State :=
  s.onPipe fun q => { q with keels := q.keels.upd KeelCtr.init k f }
def State.onStage (s : State) (n : Nat) (f : StageStat → StageStat) : State :=
  s.onPipe fun q => { q with stages := q.stages.upd StageStat.init n f }
/-- Change the entry of a number. -/
def State.onEntry (s : State) (id : Nat) (f : Entry → Entry) : State :=
  s.onPipe fun q => { q with entries := q.entries.map fun e => if e.id = id then f e else e }

def State.spool (s : State) (p : Nat) : Spool := s.spools.get Spool.init p
def State.model (s : State) (m : Nat) : Model := s.models.get Model.init m
def State.sess (s : State) (i : Nat) : Session := s.sessions.get Session.init i
def State.adapter (s : State) (k : Nat) : Adapter := s.adapters.get Adapter.init k
def State.link (s : State) (l : Nat) : Link := s.links.get Link.init l
def State.linkEnd (s : State) (k : Nat) : LinkEnd := s.ends.get LinkEnd.init k
def State.tileAt (s : State) (t : Nat) : Tile := s.arr.tiles.get (s.arr.unlisted t) t
def State.panelAt (s : State) (p : Nat) : Panel := s.arr.panels.get Panel.init p
def State.dieAt (s : State) (d : Nat) : Die := s.arr.dies.get Die.init d
def State.keelCtr (s : State) (k : Nat) : KeelCtr := s.pipe.keels.get KeelCtr.init k
def State.stage (s : State) (n : Nat) : StageStat := s.pipe.stages.get StageStat.init n
def State.entry (s : State) (id : Nat) : Option Entry := s.pipe.entries.find? fun e => e.id == id
def State.counter (s : State) (n : Nat) : W64 := s.sync.get 0 n
def State.now (s : State) : W64 := s.tick.count

/-! Geometry (R15–R20, R325). -/

/-- The sail die of a panel, its keel, and the panel and keel of a tile (R16–R18). -/
def panelDie (p : Nat) : Nat := p / 2048
def panelKeel (p : Nat) : Nat := p / 8192
def tilePanel (t : Nat) : Nat := t / 8
def tileKeel (t : Nat) : Nat := t / 65536
def dieKeel (d : Nat) : Nat := d / 4

/-- Spare physical panels of a sail die at shipment (R20). -/
def spareList (s : State) (d : Nat) : List Nat := s.nv.spares.getD d []

/-- The factory panel-map order of a sail die: in service ascending, then spares ascending (R20). -/
def factoryOrder (s : State) (d : Nat) : List Nat :=
  ((List.range 1856).filter fun p => !(spareList s d).contains p) ++ sortBy (fun a b => decide (a < b)) (spareList s d)

/-- The live panel map of a sail die: physical panel at each place (R325). -/
def liveOrder (s : State) (d : Nat) : List Nat := s.arr.places.get (factoryOrder s d) d

/-- How many places of a sail die are in service. -/
def inService (s : State) (d : Nat) : Nat := 1856 - (spareList s d).length

/-! Spools, functions and what they own (R330, R331). -/

/-- The owner of a spool: VF v has a block of VF_SPOOLS spools counted down from 4,095. -/
def spoolOwner (s : State) (p : Nat) : Nat :=
  let n := opt s oVfSpools
  if n = 0 then 0 else if 64 * n < 4096 - p then 0 else (4095 - p) / n + 1

/-- The owner of a sync counter. -/
def counterOwner (s : State) (i : Nat) : Nat :=
  let n := opt s oVfCounters
  if n = 0 then 0 else if 64 * n < 8192 - i then 0 else (8191 - i) / n + 1

/-- Quotas of a spool: what was set, or the option default (R346, R382). -/
def sessQuota (s : State) (p : Nat) : Nat := (s.spool p).sessQuota.getD (opt s oSpoolSessionQuota)
def frameQuota (s : State) (p : Nat) : Nat := (s.spool p).frameQuota.getD (opt s oSpoolFrameQuota)

/-- IDLE_TIME of a spool: whole ms since the last packet fetched (R343). -/
def idleTime (s : State) (p : Nat) : Nat := (s.tick.time - (s.spool p).lastFetch) / 1000000

/-! Records, credits and events. -/

/-- RESULTS of 12 bytes. -/
def results12 (b : List Byte) : List Byte := (b ++ zeros 12).take 12

/-- A record as its 32 bytes, with the PHASE of its slot (R353). -/
def recordBytes (r : Rec) (phase : Bool) : List Byte :=
  toLe 1 r.opcode ++ toLe 1 (b2n phase * 128 + b2n r.dup * 8 + r.cls) ++ toLe 2 r.code ++
  toLe 4 r.seq.toNat ++ toLe 4 r.handle.toNat ++ toLe 8 r.tick.toNat ++ results12 r.results

/-- Credits reserved: by outstanding commands, by records due, by tokens of ready entries (R368). -/
def reservedCredits (q : Spool) : Nat := q.due.length + (q.out.map OutCmd.resv).sum + q.resv

/-- CREDITS (R368). -/
def credits (q : Spool) : Nat := 2 ^ q.useCqOrd - 1 - q.ring.length - reservedCredits q

/-- Queue a record for writing. -/
def pushDue (s : State) (p : Nat) (r : Rec) (signal closes : Option Nat) : State :=
  s.onSpool p fun q => { q with due := q.due ++ [({ record := r, signal := signal, closes := closes } : DueRec)] }

/-- Whether a spool takes an event: it is open or halted, its ring has a credit, and on spool 0 no write
fault is pending (R370, R383, R384). -/
def takesEvent (s : State) (p : Nat) : Bool :=
  let q := s.spool p
  (q.st == .opened || q.st == .halted) && decide (0 < credits q) && !(p == 0 && q.cqFault)

/-- Count an event that is lost. -/
def loseEvent (s : State) (p : Nat) : State :=
  s.onSpool p fun q => { q with eventCount := q.eventCount + 1, eventsLost := satAdd 32 q.eventsLost 1 }

/-- Raise an unsolicited event on a spool (R370, R423). -/
def event (s : State) (p num : Nat) (handle : W32) (res : List Byte) : State :=
  if takesEvent s p then
    let n := (s.spool p).eventCount + 1
    pushDue (s.onSpool p fun q => { q with eventCount := n }) p
      { opcode := 0xFF, cls := 2, code := num, seq := n, handle := handle, tick := s.now,
        results := res, dup := false } none none
  else loseEvent s p

/-- HANDLE of a record that concerns none. -/
def noHandle : W32 := 0xFFFFFFFF#32

/-- Raise an event on spool 0 with no handle. -/
def event0 (s : State) (num : Nat) (res : List Byte) : State := event s 0 num noHandle res

/-- Append a fault record (R460, R461); SESSION and POSITION are 0xFFFF_FFFF where none is concerned. -/
def faultRecord (s : State) (kind source : Nat) (recovered : Bool) (location : Nat) (session position : W32)
    (detail : Nat) : State :=
  s.onChk fun k =>
    { k with
      log := (k.log ++ [({ index := k.next, kind := kind, source := source, recovered := recovered,
                           tick := s.now, location := location, session := session, position := position,
                           detail := detail } : FaultRec)]).drop (k.log.length + 1 - 16384)
      next := (k.next + 1) % 2 ^ 32 }

/-- A fault record that concerns no session. -/
def faultRec (s : State) (kind source location detail : Nat) : State :=
  faultRecord s kind source false location noHandle noHandle detail

/-- Keep the duplicate-store entries of the 256 sequence numbers below NEXT_SEQ (R358, R361). -/
def trimDup (q : Spool) : Spool :=
  { q with dup := q.dup.filter fun d => decide ((q.nextSeq - 1 - d.seq).toNat < 256) }

/-- Store a command's record in the duplicate store, making its entry if it has none (R358). -/
def storeDup (q : Spool) (seq : W32) (op : Nat) (r : Option Rec) : Spool :=
  if q.dup.any fun d => d.seq == seq then
    { q with dup := q.dup.map fun d => if d.seq == seq then { d with stored := r } else d }
  else { q with dup := q.dup ++ [({ seq := seq, opcode := op, stored := r } : DupEntry)] }

/-- The sequence number of an outstanding command's records. -/
def OutCmd.number (o : OutCmd) : W32 := o.shown.getD o.seq

/-- The header of an outstanding command. -/
def outCmd (o : OutCmd) : Option Cmd := o.instr.cmd?

/-- The outstanding command of a sequence number. -/
def findOut (s : State) (p : Nat) (seq : W32) : Option OutCmd := (s.spool p).out.find? fun o => o.seq == seq

/-- Where the started commands of an orphaned or closed spool go on (R377): apart from the commands that the spool takes
afterwards, under numbers above those of the spools. -/
def orphanKeys (s : State) (p : Nat) : List Nat :=
  (s.spools.filter fun e => decide (4096 ≤ e.1) && e.1 % 4096 == p && !e.2.out.isEmpty).map Prod.fst

/-- Commands outstanding on a spool (R364): those whose final record is not yet due. -/
def outstanding (s : State) (p : Nat) : Nat :=
  (s.spool p).out.length + ((orphanKeys s p).map fun k => (s.spool k).out.length).sum

/-- Whether FENCE holds a command back: `earlier` are the spool's commands before it (R365). -/
def fenced (s : State) (p : Nat) (fence : Bool) (earlier : List OutCmd) : Bool :=
  fence && !(earlier.isEmpty && (orphanKeys s p).isEmpty)

/-- Whether an outstanding command waits for nothing (R365): its WAIT is satisfied and, with FENCE, no earlier
command of its spool is outstanding. -/
def startable (s : State) (p : Nat) (o : OutCmd) : Bool :=
  !o.started && !o.orphan && o.released &&
  !fenced s p (((outCmd o).map Cmd.fence).getD false) ((s.spool p).out.takeWhile fun x => x.seq != o.seq)

/-- Whether a command that its row brings waits for nothing at its fetch (R365, R375). -/
def mayStart (s : State) (c : Cmd) : Bool :=
  (c.mode != .wait || s.counter c.counter != 0) && !fenced s c.spool c.fence (s.spool c.spool).out

/-- Change the outstanding command of a sequence number. -/
def onOut (s : State) (p : Nat) (seq : W32) (f : OutCmd → OutCmd) : State :=
  s.onSpool p fun q => { q with out := q.out.map fun o => if o.seq == seq then f o else o }

/-! Sync counters (R371–R375). -/

/-- An update on its way to a counter. -/
inductive CtrUpd where
  | put (n : Nat) (v : W64)
  | add (n : Nat) (v : W64)
  deriving DecidableEq, Repr

/-- The counter an update reaches. -/
def CtrUpd.counter : CtrUpd → Nat
  | .put n _ => n
  | .add n _ => n

/-- The signal that the end of a command sends: MODE SIGNAL, and with SIGNAL_ON_DONE code 0 only (R372). -/
def signalOf (c : Cmd) (code : Nat) : Option Nat :=
  if c.mode == .signal && (!c.signalOnDone || code == 0) then some c.counter else none

/-- Whether a protocol code carries NEXT_SEQ and the slot in RESULTS (R385). -/
def protocolCode (c : Nat) : Bool :=
  (decide (0x0101 ≤ c) && decide (c ≤ 0x0106)) || (decide (0x0201 ≤ c) && decide (c ≤ 0x0207)) ||
  (decide (0x0401 ≤ c) && decide (c ≤ 0x0403)) || c == 0x0501

/-- RESULTS of a final record: those of R385 for its codes, otherwise as the entry states (R393). -/
def errorResults (nextSeq : W32) (slot code : Nat) (res : List Byte) : List Byte :=
  if protocolCode code then toLe 4 nextSeq.toNat ++ toLe 2 slot else res

/-- Note an ERROR record in LAST_ERROR (R343). -/
def noteError (q : Spool) (code slot : Nat) (seq : W32) : Spool :=
  { q with errCode := code, errSlot := slot, errSeq := seq }

/-- The final record of a command: the completing EVENT after an ACCEPTED, else DONE or ERROR (R354). -/
def finalRecord (s : State) (q : Spool) (o : OutCmd) (code : Nat) (res : List Byte) : Rec :=
  let h := match outCmd o with
    | some c => c.handle
    | none => noHandle
  let cls := if o.accepted then 2 else if code = 0 then 0 else 4
  { opcode := o.opcode, cls := cls, code := code, seq := o.number, handle := h, tick := s.now,
    results := errorResults q.nextSeq o.slot code res, dup := false }

/-- The final record of a command of an orphaned spool enters its duplicate store, unless its sequence number has since been
taken by another command (R358, R377). -/
def storeOrphan (q : Spool) (seq : W32) (r : Rec) : Spool :=
  if q.out.any fun o => o.number == seq then q
  else
    { q with dup := q.dup.map fun d =>
        if d.seq == seq && (d.stored.map fun x => x.cls == 1).getD true then { d with stored := some r } else d }

/-- End a command whose spool was orphaned or closed: its completing record goes to spool 0, with the spool's number in
HANDLE (R377). -/
def finishOrphan (s : State) (k : Nat) (o : OutCmd) (code : Nat) (res : List Byte) (sig closes : Option Nat) : State :=
  let home := k % 4096
  let r := finalRecord s (s.spool home) o code res
  let s1 := s.onSpool k fun q => { q with out := q.out.filter fun x => !(x.seq == o.seq) }
  let s2 := s1.onSpool home fun q => storeOrphan q o.number r
  let r0 := { r with cls := 2, handle := BitVec.ofNat 32 home }
  if takesEvent s2 0 then pushDue s2 0 r0 sig closes else loseEvent s2 0

/-- End an outstanding command: its final record becomes due, or is suppressed by QUIET, or goes to spool 0
when its spool was orphaned (R354, R355, R364, R377). Answers the signal that is due at once. -/
def finishRaw (s : State) (p : Nat) (seq : W32) (code : Nat) (res : List Byte) (closes : Option Nat) :
    State × Option Nat :=
  match findOut s p seq with
  | none => (s, none)
  | some o =>
    let q := s.spool p
    let r := finalRecord s q o code res
    let sig := match outCmd o with
      | some c => signalOf c code
      | none => none
    let quiet := match outCmd o with
      | some c => c.quiet && r.cls == 0
      | none => false
    let s1 := s.onSpool p fun q =>
      let q1 := { q with out := q.out.filter fun x => !(x.seq == seq) }
      let q2 := if o.shown.isSome then q1 else trimDup (storeDup q1 seq o.opcode (some r))
      if r.cls = 4 then noteError q2 code o.slot o.number else q2
    let s2 := s1.onBus fun b => { b with wakes := b.wakes.filter fun w => !(w == (p, seq)) }
    if 4096 ≤ p then (finishOrphan s p o code res sig closes, none)
    else if quiet then (s2, sig)
    else (pushDue s2 p r sig closes, none)

/-- The commands that one evaluation of a counter releases: every outstanding command with its spool, in
ascending order of spool and then of sequence number (R375). -/
def waiters (s : State) : List (Nat × OutCmd) :=
  s.spools.flatMap fun pq =>
    (sortBy (fun (a b : OutCmd) => decide ((a.number - pq.2.nextSeq).toNat < (b.number - pq.2.nextSeq).toNat))
      pq.2.out).map fun o => (pq.1, o)

/-- Whether a SYNC_WAIT's relation holds: 0 GE, 1 EQ. -/
def relHolds (rel : Nat) (v target : W64) : Bool :=
  if rel = 0 then decide (target.toNat ≤ v.toNat) else v == target

/-- Evaluate one command against the counter just updated (R374, R375). -/
def evalWaiter (n : Nat) (v : W64) (st : State × List CtrUpd) (w : Nat × OutCmd) : State × List CtrUpd :=
  let o := w.2
  let waits := match outCmd o with
    | some c => c.mode == .wait && c.counter == n
    | none => false
  if !o.started && !o.released && waits && v != 0 then
    let s1 := onOut st.1 w.1 o.seq fun o => { o with released := true }
    (s1.onBus fun b => { b with wakes := b.wakes ++ [(w.1, o.seq)] }, st.2)
  else
    match o.job with
    | .syncWait m rel target _ =>
      if o.started && m == n && relHolds rel v target then
        let (s1, sig) := finishRaw st.1 w.1 o.seq 0 (toLe 8 v.toNat) none
        (s1, st.2 ++ (sig.map fun k => CtrUpd.add k 1).toList)
      else st
    | _ => st

/-- Apply counter updates one at a time, evaluating every wait on the counter after each (R374). -/
def applyUpdates : Nat → List CtrUpd → State → State
  | _, [], s => s
  | 0, _ :: _, s => s
  | fuel + 1, u :: r, s =>
    let v := match u with
      | .put _ v => v
      | .add n v => s.counter n + v
    let s1 := s.setSync u.counter v
    let (s2, more) := (waiters s1).foldl (evalWaiter u.counter v) (s1, [])
    applyUpdates fuel (r ++ more) s2

/-- How many updates can follow from one: each outstanding command signals at most once. -/
def updateFuel (s : State) : Nat := (s.spools.map fun pq => pq.2.out.length).sum + 1

/-- Update one counter. -/
def updateCounter (s : State) (u : CtrUpd) : State := applyUpdates (updateFuel s) [u] s

/-- Send the signal that is due, if any. -/
def sendSignal (s : State) (sig : Option Nat) : State :=
  match sig with
  | none => s
  | some n => updateCounter s (.add n 1)

/-- End an outstanding command with a code and RESULTS. -/
def finish (s : State) (p : Nat) (seq : W32) (code : Nat) (res : List Byte) : State :=
  let (s1, sig) := finishRaw s p seq code res none
  sendSignal s1 sig

/-- Write the ACCEPTED of an outstanding command (R393). -/
def accept (s : State) (p : Nat) (seq : W32) (res : List Byte) (job : Job) : State :=
  match findOut s p seq with
  | none => s
  | some o =>
    let h := match outCmd o with
      | some c => c.handle
      | none => noHandle
    pushDue (onOut s p seq fun o => { o with accepted := true, resv := o.resv - 1, job := job }) p
      { opcode := o.opcode, cls := 1, code := 1, seq := o.number, handle := h, tick := s.now, results := res,
        dup := false } none none

/-! Starting a host command. -/

/-- What a command's tests and effects at its start answer. -/
inductive Reply where
  | done (res : List Byte)
  | error (code : Nat) (res : List Byte)
  /-- ACCEPTED, and the command goes on -/
  | accepted (res : List Byte) (job : Job)
  /-- ACCEPTED, and the completing EVENT follows in the same step -/
  | acceptedEnd (res : List Byte) (code : Nat) (resEnd : List Byte)
  /-- no record yet -/
  | running (job : Job)
  /-- DONE, and a spool closes once it is written -/
  | doneClose (spool : Nat)
  deriving DecidableEq, Repr

/-- Carry out the reply of a command. -/
def reply (s : State) (c : Cmd) (r : Reply) : State :=
  match r with
  | .done res => finish s c.spool c.seq 0 res
  | .error code res => finish s c.spool c.seq code res
  | .accepted res job => accept s c.spool c.seq res job
  | .acceptedEnd res code resEnd => finish (accept s c.spool c.seq res .idle) c.spool c.seq code resEnd
  | .running job => onOut s c.spool c.seq fun o => { o with job := job }
  | .doneClose p =>
    let (s1, sig) := finishRaw s c.spool c.seq 0 [] (some p)
    sendSignal s1 sig

/-- Whether an opcode can reply ACCEPTED (the Completion columns of R405, R409, R413, R417, R421). -/
def opAccepts (op : Nat) : Bool :=
  [0x05, 0x10, 0x12, 0x14, 0x15, 0x17, 0x30, 0x31, 0x33, 0x42, 0x43, 0x50, 0x53, 0x54, 0x55, 0x60, 0x61, 0x62,
   0x70, 0x71].contains op

/-- Whether an opcode is for the PF only (R335). -/
def opPfOnly (op : Nat) : Bool :=
  op == 0x03 || op == 0x05 || (decide (0x10 ≤ op) && decide (op < 0x20)) || op == 0x33 || op == 0x40 ||
  (decide (0x50 ≤ op) && decide (op < 0x70)) || op == 0x71 || (decide (0x80 ≤ op) && decide (op < 0x90))

/-- The fetched command that a row names: one fetched since the last resynchronisation of its spool. Commands outstanding from
before it are started by COMMAND_START alone (R361; log 22). -/
def findFetched (s : State) (c : Cmd) : Option OutCmd := (findOut s c.spool c.seq).filter fun o => !o.stale

/-- Whether intake may fetch under R468, R506 and R548. -/
def intakeOpen (s : State) : Bool :=
  s.boot.ready && !s.bus.viral && !s.boot.latched.contains .brownout && (!bitOf (policyFlags s) 2 || (s.boot.ideIo && s.boot.ideMem))

/-- Where a command can start: its spool is open, and intake too unless it has been fetched; or its spool is halted with the
command outstanding (R345, R360, R548). -/
def canStart (s : State) (c : Cmd) : Bool :=
  match (s.spool c.spool).st with
  | .opened => intakeOpen s || (findFetched s c).isSome
  | .halted => (findFetched s c).isSome
  | _ => false

/-- A change due at an edge, with its command under the name where it goes on. -/
def EdgeAct.moved (f : Nat → W32 → Nat × W32) (a : EdgeAct) : EdgeAct :=
  match a with
  | .finish p q c r => .finish (f p q).1 (f p q).2 c r
  | .calWriteDone p q n => .calWriteDone (f p q).1 (f p q).2 n
  | .attest p q => .attest (f p q).1 (f p q).2
  | .cancel i p q b => .cancel i (f p q).1 (f p q).2 b
  | .closeSpool t p q => .closeSpool t (f p q).1 (f p q).2
  | a => a

/-- Commands go on under another name: so do the changes that wait for them. -/
def moveRefs (s : State) (f : Nat → W32 → Nat × W32) : State :=
  let cmd := fun (x : Option (Nat × W32)) => x.map fun x => f x.1 x.2
  { s with
    tick := { s.tick with acts := s.tick.acts.map (EdgeAct.moved f),
                          pend := s.tick.pend.map fun p => { p with cmd := cmd p.cmd } }
    models := s.models.mapAll fun _ m =>
      { m with repl := m.repl.map fun r => { r with spool := (f r.spool r.seq).1, seq := (f r.spool r.seq).2 } }
    adapters := s.adapters.mapAll fun _ a => { a with cmd := cmd a.cmd }
    boot := { s.boot with imgJob := s.boot.imgJob.map fun j =>
      { j with spool := (f j.spool j.seq).1, seq := (f j.spool j.seq).2 } } }

/-- A name that no outstanding command of a spool has. -/
def freeName (q : Spool) (seq : W32) : W32 :=
  let names := (List.range (q.out.length + 1)).map fun n => seq + BitVec.ofNat 32 (2 ^ 31 + n)
  (names.find? fun n => !q.out.any fun o => o.seq == n).getD seq

/-- A command takes a sequence number that one outstanding from before a resynchronisation still has: the old one goes on under
another name, and its records keep the number (R354, R361). -/
def makeRoom (s : State) (p : Nat) (seq : W32) : State :=
  if (findOut s p seq).isNone then s
  else
    let new := freeName (s.spool p) seq
    let f := fun q x => if q = p && x == seq then (q, new) else (q, x)
    let s1 := onOut s p seq fun o => { o with shown := some o.number, seq := new }
    let s2 := (moveRefs s1 f).onBus fun b => { b with wakes := b.wakes.map fun w => f w.1 w.2 }
    let s3 := s2.onPipe fun q =>
      { q with entries := q.entries.map fun e => { e with seq := (f e.spool e.seq).2 } }
    { s3 with sessions := s3.sessions.mapAll fun _ x =>
        { x with run := x.run.map fun r => { r with seq := (f r.spool r.seq).2 } } }

/-- A command that has just been fetched, and that neither has a WAIT nor has started (R364, R368). -/
def fetchedCmd (s : State) (seq : W32) (slot op : Nat) (i : Instr) : OutCmd where
  seq := seq
  shown := none
  stale := false
  fetched := s.now
  slot := slot
  opcode := op
  instr := i
  released := true
  started := false
  accepted := false
  orphan := false
  resv := if opAccepts op then 2 else 1
  tokens := 0
  job := .idle

/-- The outstanding entry of a command about to start, made where a row stands for the whole command
(log 22). -/
def ensureOut (s : State) (c : Cmd) (op : Nat) (i : Instr) : State :=
  match findFetched s c with
  | some _ =>
    (onOut s c.spool c.seq fun o => { o with released := true, started := true, instr := i }).onBus fun b =>
      { b with wakes := b.wakes.filter fun w => !(w == (c.spool, c.seq)) }
  | none =>
    (makeRoom s c.spool c.seq).onSpool c.spool fun q =>
      { q with lastFetch := s.tick.time,
               out := q.out ++ [{ fetchedCmd s c.seq c.slot op i with released := true, started := true }] }

/-- The ERROR of a refusal by the checks at fetch (R363, R373): it is due on the command's spool and enters
the duplicate store; MODE SIGNAL adds 1 once it is written, under the conditions of R373. -/
def refuseFetch (s : State) (p slot op : Nat) (seq handle : W32) (code : Nat) (sig : Option Nat) : State :=
  let r : Rec := { opcode := op, cls := 4, code := code, seq := seq, handle := handle, tick := s.now,
                   results := errorResults (s.spool p).nextSeq slot code [], dup := false }
  let s1 := s.onSpool p fun q => noteError (trimDup (storeDup q seq op (some r))) code slot seq
  pushDue s1 p r sig none

/-- The checks 3 and 8 of R363, and the SYNC part of check 7, on a decoded command. -/
def headerCheck (s : State) (c : Cmd) (op : Nat) : Option Nat :=
  if opPfOnly op && spoolOwner s c.spool != 0 then some 0x0106
  else none

/-- The checks on MODE and COUNTER (R363, checks 7 and 8). -/
def syncCheck (s : State) (c : Cmd) : Option Nat :=
  if c.signalOnDone && c.mode != .signal then some 0x0105
  else if c.mode != .none && counterOwner s c.counter != spoolOwner s c.spool then some 0x0403
  else none

/-- The signal of a command refused at fetch (R373). -/
def fetchSignal (s : State) (c : Cmd) : Option Nat :=
  if (syncCheck s c).isSome then none
  else if c.mode == .signal && !c.signalOnDone then some c.counter else none

/-- Start a command: its tests and effects at start, and what it replies (R366). -/
def startCommand (i : Instr) (c : Cmd) (op : Nat) (body : State → State × Reply) (s : State) : State :=
  let (s1, r) := body (ensureOut s c op i)
  reply s1 c r

/-- A command that its row brings and that waits: it is outstanding and has not started (R364, R365; log 22). -/
def holdCommand (i : Instr) (c : Cmd) (op : Nat) (s : State) : State :=
  (makeRoom s c.spool c.seq).onSpool c.spool fun q =>
    { q with lastFetch := s.tick.time,
             out := q.out ++ [{ fetchedCmd s c.seq c.slot op i with released := c.mode != .wait || s.counter c.counter != 0 }] }

/-- Whether a command's turn has come: no earlier command of its spool can start, and of the waits that one counter
released it is the first (R365, R375). -/
def myTurn (s : State) (p : Nat) (o : OutCmd) : Bool :=
  let q := s.spool p
  let woken := s.bus.wakes.contains (p, o.seq)
  let ready := s.bus.wakes.filter fun w => ((findOut s w.1 w.2).map (startable s w.1)).getD false
  startable s p o &&
  !(q.out.takeWhile fun x => x.seq != o.seq).any (fun x => startable s p x && s.bus.wakes.contains (p, x.seq) == woken) &&
  (!woken || ready.head? == some (p, o.seq))

/-- Whether a row is the command that was fetched under its sequence number, with what its accesses meet. -/
def sameCommand (o : OutCmd) (i : Instr) (c : Cmd) : Bool :=
  match outCmd o with
  | some k => decide (o.instr.withCmd { k with seq := c.seq, io := c.io } = i)
  | none => false

/-- A host command: the checks at fetch on its operands unless it has been fetched, then its start, unless FENCE or WAIT holds
it (R363, R365, R366). On a spool where it cannot start, and where another command of its sequence number has been fetched or one
has started, it has no effect (log 22). -/
def hostCommand (i : Instr) (c : Cmd) (op : Nat) (params : Option Nat) (body : State → State × Reply)
    (s : State) : State :=
  if !canStart s c then s
  else
    match findFetched s c with
    | some o => if o.opcode != op || !sameCommand o i c || !myTurn s c.spool o then s else startCommand i c op body s
    | none =>
      match headerCheck s c op <|> params <|> syncCheck s c with
      | some code =>
        refuseFetch (s.onSpool c.spool fun q => { q with lastFetch := s.tick.time }) c.spool c.slot op c.seq c.handle code
          (fetchSignal s c)
      | none => if mayStart s c then startCommand i c op body s else holdCommand i c op s

/-! Handles (R237–R240, R284, R336, R337). -/

/-- A session handle: generation in [31:24], index in [15:0] (R237). -/
def sessHandle (i gen : Nat) : W32 := BitVec.ofNat 32 (gen * 16777216 + i)

end Sys2Proof.Machine
end

