-- ==== Sys2Proof/Machine/Frames.lean ====
section
/-!
DEFINITION. Chain and bridle frames (R24, R25, R474, R477–R480): link ends, class order, sequence numbers,
acknowledgement, resending and routes.
-/
namespace Sys2Proof.Machine

/-- A link that carries traffic. -/
def linkUp (s : State) (l : Nat) : Bool := (s.link l).st == .up || (s.link l).st == .degraded

/-- A bridle link. -/
def isBridle (l : Nat) : Bool := decide (16 ≤ l)

/-- The keels that a bridle link joins, lower end first (R423). -/
def bridleEnds (l : Nat) : Nat × Nat := if l < 24 then (l - 16, (l - 15) % 8) else (l - 24, l - 20)

/-- The key of a link's end: the upper end of a bridle link lies 32 further. -/
def endKey (l : Nat) (upper : Bool) : Nat := if upper then l + 32 else l

/-- The link of an end. -/
def endLink (k : Nat) : Nat := if 48 ≤ k then k - 32 else k

/-- Frames of the replay buffer (R480, R485). -/
def replayRoom (l : Nat) : Nat := if isBridle l then 256 else 512

/-- Whether a frame of the first class goes before one of the second. -/
def classFirst (a b : Frame) : Bool := decide (a.cls < b.cls)

/-- Take the next frame to send: the lowest class, in the order queued (R478). -/
def nextFrame (q : List Frame) : Option (Frame × List Frame) :=
  match q with
  | [] => none
  | f :: r =>
    match nextFrame r with
    | none => some (f, [])
    | some (g, t) => if g.cls < f.cls then some (g, f :: t) else some (f, r)

/-- Put waiting frames on the wire while the replay buffer has room. -/
def pumpEnd (room : Nat) : Nat → LinkEnd → LinkEnd
  | 0, e => e
  | fuel + 1, e =>
    if room ≤ e.buffer.length then e
    else
      match nextFrame e.queue with
      | none => e
      | some (f, r) =>
        let g := { f with seq := e.txSeq, nak := e.nak, ack := e.rxLast }
        pumpEnd room fuel
          { e with txSeq := (e.txSeq + 1) % 4096, buffer := e.buffer ++ [g], wire := e.wire ++ [g], queue := r,
                   sinceAck := 0 }

/-- Send what waits at an end, if its link carries traffic. -/
def pump (s : State) (k : Nat) : State :=
  if linkUp s (endLink k) then s.onEnd k fun e => pumpEnd (replayRoom (endLink k)) e.queue.length e else s

/-- A frame before it is sent. -/
def mkFrame (cls src dest : Nat) (p : Payload) : Frame :=
  { cls := cls, typ := 0, srcKeel := src, dest := dest, seq := 0, nak := false, ack := 0, payload := p }

/-- Queue a frame at an end and send what can be sent. -/
def queueFrame (s : State) (k : Nat) (f : Frame) : State :=
  pump (s.onEnd k fun e => { e with queue := e.queue ++ [f] }) k

/-- The keel of a chain port (R25). -/
def portKeel (l : Nat) : Nat := if l = 1 then 0 else 7

/-- Send a payload on a chain port; its neighbour is the destination where it is known. -/
def sendChain (s : State) (l cls : Nat) (p : Payload) : State :=
  queueFrame s l (mkFrame cls (portKeel l) ((s.link l).neighbour.getD 0) p)

/-- The first hop of a bridle route (R24): the end at the source keel, and the keel it reaches. -/
def bridleHop (src dest : Nat) : Option (Nat × Nat) :=
  let right := some (endKey (16 + src) false, (src + 1) % 8)
  let left := some (endKey (16 + (src + 7) % 8) true, (src + 7) % 8)
  let cross := some (if src < 4 then (endKey (24 + src) false, src + 4) else (endKey (20 + src) true, src - 4))
  match (dest + 8 - src) % 8 with
  | 1 => right
  | 2 => right
  | 3 => cross
  | 4 => cross
  | 5 => cross
  | 6 => left
  | 7 => left
  | _ => none

/-- Send a payload from one keel to another over the bridle. -/
def sendBridle (s : State) (src dest cls : Nat) (p : Payload) : State :=
  match bridleHop src dest with
  | none => s
  | some (k, _) => queueFrame s k (mkFrame cls src dest p)

/-- Bulk data crosses the bridle in frames of at most 4,096 bytes (R25, R473, R477, R485). -/
def sendBulk (s : State) (src dest : Nat) (b : List Byte) : State :=
  (List.range ((b.length + 4095) / 4096)).foldl (fun s i => sendBridle s src dest 2 (.bytes ((b.drop (4096 * i)).take 4096))) s

/-- The chain port on which a module lies: CHAIN_B for a higher MOD_ADDR, CHAIN_A for a lower one (R474). -/
def portTo (s : State) (dest : Nat) : Nat := if s.boot.strapAddr < dest then 2 else 1

/-- Send a payload from a keel to another module on a chain port; to reach the keel of the port it crosses the bridle (R25). -/
def sendVia (s : State) (src l dest cls : Nat) (p : Payload) : State :=
  if src = portKeel l then queueFrame s l (mkFrame cls src dest p)
  else sendBridle s src (portKeel l) cls (.transit src dest p)

/-- Send a payload from a keel to another module (R25, R474). -/
def sendModule (s : State) (src dest cls : Nat) (p : Payload) : State :=
  if dest = s.boot.strapAddr then s else sendVia s src (portTo s dest) dest cls p

/-- The class of what the modules tell each other: control for what R478 lists, bulk for everything else. -/
def ctrlClass : Ctrl → Nat
  | .starved .. => 2
  | _ => 0

/-- Tell every module beyond the chain ports that know a neighbour, but one; on a lost link the frame waits (R478, R483). -/
def tellModules (s : State) (but : Nat) (c : Ctrl) : State :=
  ([1, 2].filter fun l => l != but && (s.link l).neighbour.isSome).foldl (fun s l => sendChain s l (ctrlClass c) (.ctrl c)) s

/-! Acknowledgement and resending (R480). -/

/-- Whether sequence number `a` is at or before `b` in the order of an end whose oldest frame is `old`. -/
def seqUpTo (old a b : Nat) : Bool := decide ((a + 4096 - old) % 4096 ≤ (b + 4096 - old) % 4096)

/-- Drop acknowledged frames: those up to ACK, where ACK names a frame outstanding. -/
def ackEnd (e : LinkEnd) (ack : Nat) : LinkEnd :=
  if e.buffer.any fun f => f.seq == ack then
    { e with buffer := ((e.buffer.dropWhile fun f => f.seq != ack).drop 1), resends := 0 }
  else e

/-- Resend every frame outstanding, oldest first; each is counted in LINK_REPLAYS (R500). -/
def resend (s : State) (k : Nat) : State :=
  let n := (s.linkEnd k).buffer.length
  let s1 := s.onEnd k fun e =>
    { e with wire := e.wire ++ e.buffer.map (fun f => { f with nak := e.nak, ack := e.rxLast }),
             sinceAck := if e.buffer.isEmpty then e.sinceAck else 0,
             resends := if e.buffer.isEmpty then 0 else e.resends + 1 }
  s1.onLink (endLink k) fun l => { l with replays := satAdd 32 l.replays n }

/-- The keel at which an end lies (R423). -/
def endKeel (k : Nat) : Nat :=
  let l := endLink k
  if isBridle l then (if k = l then (bridleEnds l).1 else (bridleEnds l).2) else portKeel l

/-- Send an acknowledgement-only frame. -/
def sendAck (s : State) (k : Nat) : State :=
  if linkUp s (endLink k) then
    s.onEnd k fun e =>
      { e with sinceAck := 0,
               wire := e.wire ++ [{ mkFrame 0 (endKeel k) 0 (.bytes []) with typ := 1, nak := e.nak, ack := e.rxLast }] }
  else s

/-- The ends of a link that this module holds. -/
def linkEnds (l : Nat) : List Nat := if l = 0 then [] else if isBridle l then [endKey l false, endKey l true] else [l]

end Sys2Proof.Machine
end

