-- ==== Sys2Proof/Machine/Crc.lean ====
section
/-!
DEFINITION. Check values and digests: the three algorithms of R486 and SHA-512 (FIPS 180-4), which R288,
R290, R546 and R557 name.
-/
namespace Sys2Proof.Machine

/-- The algorithms of the check-value units (R486, R500). -/
inductive CrcAlg where
  | crc32c | crc64 | crc16
  deriving DecidableEq, Repr

/-- The initial value of an algorithm (R486). -/
def crcInit : CrcAlg → W64
  | .crc32c => 0xFFFFFFFF#64
  | .crc64 => 0#64
  | .crc16 => 0xFFFF#64

/-- The width of an algorithm (R486). -/
def crcWidth : CrcAlg → Nat
  | .crc32c => 32
  | .crc64 => 64
  | .crc16 => 16

/-- The final XOR of an algorithm (R486). -/
def crcXor : CrcAlg → W64
  | .crc32c => 0xFFFFFFFF#64
  | .crc64 => 0#64
  | .crc16 => 0#64

/-- One bit step of a running value. -/
def crcBit (a : CrcAlg) (r : W64) : W64 :=
  match a with
  | .crc32c => if r.getLsbD 0 then (r >>> 1) ^^^ 0x82F63B78#64 else r >>> 1
  | .crc64 => if r.getLsbD 63 then (r <<< 1) ^^^ 0x42F0E1EBA9EA3693#64 else r <<< 1
  | .crc16 => if r.getLsbD 15 then ((r <<< 1) ^^^ 0x1021#64) &&& 0xFFFF#64 else (r <<< 1) &&& 0xFFFF#64

/-- One byte fed to a running value (R489). -/
def crcByte (a : CrcAlg) (r : W64) (b : Byte) : W64 :=
  let x : W64 := b.setWidth 64
  let r0 := match a with
    | .crc32c => r ^^^ x
    | .crc64 => r ^^^ (x <<< 56)
    | .crc16 => r ^^^ (x <<< 8)
  crcBit a (crcBit a (crcBit a (crcBit a (crcBit a (crcBit a (crcBit a (crcBit a r0)))))))

/-- A byte string fed to a running value, low byte first. -/
def crcFeed (a : CrcAlg) (r : W64) (bs : List Byte) : W64 := bs.foldl (crcByte a) r

/-- The check value of a byte string (R486). -/
def crc (a : CrcAlg) (bs : List Byte) : Nat := (crcFeed a (crcInit a) bs ^^^ crcXor a).toNat

/-- CRC-32C of a byte string. -/
def crc32c (bs : List Byte) : Nat := crc .crc32c bs

/-- The round constants of SHA-512. -/
def shaK : List W64 :=
  [0x428a2f98d728ae22#64, 0x7137449123ef65cd#64, 0xb5c0fbcfec4d3b2f#64, 0xe9b5dba58189dbbc#64,
    0x3956c25bf348b538#64, 0x59f111f1b605d019#64, 0x923f82a4af194f9b#64, 0xab1c5ed5da6d8118#64,
    0xd807aa98a3030242#64, 0x12835b0145706fbe#64, 0x243185be4ee4b28c#64, 0x550c7dc3d5ffb4e2#64,
    0x72be5d74f27b896f#64, 0x80deb1fe3b1696b1#64, 0x9bdc06a725c71235#64, 0xc19bf174cf692694#64]
  ++ [0xe49b69c19ef14ad2#64, 0xefbe4786384f25e3#64, 0x0fc19dc68b8cd5b5#64, 0x240ca1cc77ac9c65#64,
    0x2de92c6f592b0275#64, 0x4a7484aa6ea6e483#64, 0x5cb0a9dcbd41fbd4#64, 0x76f988da831153b5#64,
    0x983e5152ee66dfab#64, 0xa831c66d2db43210#64, 0xb00327c898fb213f#64, 0xbf597fc7beef0ee4#64,
    0xc6e00bf33da88fc2#64, 0xd5a79147930aa725#64, 0x06ca6351e003826f#64, 0x142929670a0e6e70#64]
  ++ [0x27b70a8546d22ffc#64, 0x2e1b21385c26c926#64, 0x4d2c6dfc5ac42aed#64, 0x53380d139d95b3df#64,
    0x650a73548baf63de#64, 0x766a0abb3c77b2a8#64, 0x81c2c92e47edaee6#64, 0x92722c851482353b#64,
    0xa2bfe8a14cf10364#64, 0xa81a664bbc423001#64, 0xc24b8b70d0f89791#64, 0xc76c51a30654be30#64,
    0xd192e819d6ef5218#64, 0xd69906245565a910#64, 0xf40e35855771202a#64, 0x106aa07032bbd1b8#64]
  ++ [0x19a4c116b8d2d0c8#64, 0x1e376c085141ab53#64, 0x2748774cdf8eeb99#64, 0x34b0bcb5e19b48a8#64,
    0x391c0cb3c5c95a63#64, 0x4ed8aa4ae3418acb#64, 0x5b9cca4f7763e373#64, 0x682e6ff3d6b2b8a3#64,
    0x748f82ee5defb2fc#64, 0x78a5636f43172f60#64, 0x84c87814a1f0ab72#64, 0x8cc702081a6439ec#64,
    0x90befffa23631e28#64, 0xa4506cebde82bde9#64, 0xbef9a3f7b2c67915#64, 0xc67178f2e372532b#64]
  ++ [0xca273eceea26619c#64, 0xd186b8c721c0c207#64, 0xeada7dd6cde0eb1e#64, 0xf57d4f7fee6ed178#64,
    0x06f067aa72176fba#64, 0x0a637dc5a2c898a6#64, 0x113f9804bef90dae#64, 0x1b710b35131c471b#64,
    0x28db77f523047d84#64, 0x32caab7b40c72493#64, 0x3c9ebe0a15c9bebc#64, 0x431d67c49c100d4c#64,
    0x4cc5d4becb3e42b6#64, 0x597f299cfc657e2a#64, 0x5fcb6fab3ad6faec#64, 0x6c44198c4a475817#64]

/-- The initial hash of SHA-512. -/
def shaH0 : List W64 :=
  [0x6a09e667f3bcc908#64, 0xbb67ae8584caa73b#64, 0x3c6ef372fe94f82b#64, 0xa54ff53a5f1d36f1#64,
    0x510e527fade682d1#64, 0x9b05688c2b3e6c1f#64, 0x1f83d9abfb41bd6b#64, 0x5be0cd19137e2179#64]

/-- The padded message of SHA-512. -/
def shaPad (bs : List Byte) : List Byte :=
  let n := bs.length
  let z := (239 - n % 128) % 128
  bs ++ [0x80#8] ++ zeros z ++ (toLe 16 (8 * n)).reverse

/-- Eight big-endian bytes as a word. -/
def shaWord (bs : List Byte) : W64 := BitVec.ofNat 64 (leFront (bs.take 8).reverse 8)

/-- Extend a message schedule, newest word first, by `n` words. -/
def shaExtend : Nat → List W64 → List W64
  | 0, w => w
  | n + 1, w =>
    let a := w.getD 14 0
    let b := w.getD 1 0
    let s0 := a.rotateRight 1 ^^^ a.rotateRight 8 ^^^ (a >>> 7)
    let s1 := b.rotateRight 19 ^^^ b.rotateRight 61 ^^^ (b >>> 6)
    shaExtend n ((w.getD 15 0 + s0 + w.getD 6 0 + s1) :: w)

/-- One round of SHA-512 on the eight working words. -/
def shaRound (st : List W64) (kw : W64 × W64) : List W64 :=
  match st with
  | [a, b, c, d, e, f, g, h] =>
    let s1 := e.rotateRight 14 ^^^ e.rotateRight 18 ^^^ e.rotateRight 41
    let ch := (e &&& f) ^^^ ((~~~ e) &&& g)
    let t1 := h + s1 + ch + kw.1 + kw.2
    let s0 := a.rotateRight 28 ^^^ a.rotateRight 34 ^^^ a.rotateRight 39
    let maj := (a &&& b) ^^^ (a &&& c) ^^^ (b &&& c)
    [t1 + (s0 + maj), a, b, c, d + t1, e, f, g]
  | _ => st

/-- One 128-byte block of SHA-512. -/
def shaBlock (h : List W64) (blk : List Byte) : List W64 :=
  let w0 := (List.range 16).map (fun i => shaWord (blk.drop (8 * i)))
  let w := (shaExtend 64 w0.reverse).reverse
  List.zipWith (· + ·) h ((shaK.zip w).foldl shaRound h)

/-- The blocks of a padded message, `n` of them. -/
def shaBlocks : Nat → List W64 → List Byte → List W64
  | 0, h, _ => h
  | n + 1, h, bs => shaBlocks n (shaBlock h (bs.take 128)) (bs.drop 128)

/-- SHA-512 of a byte string, 64 bytes. -/
def sha512 (bs : List Byte) : List Byte :=
  let p := shaPad bs
  (shaBlocks (p.length / 128) shaH0 p).flatMap (fun w => (toLe 8 w.toNat).reverse)

end Sys2Proof.Machine
end

