-- ==== Sys2Proof/Machine/Operands.lean ====
section
/-!
DEFINITION. The operand forms of a host command: the packet of R349, its parameter layouts (R389–R421), and
checks 1 to 7 of R363 on them.
-/
namespace Sys2Proof.Machine

/-- Basic length of an opcode, without its variable part; none where the opcode is undefined (R388, R390). -/
def basicLen (op : Nat) : Option Nat :=
  match op with
  | 0x00 => some 0 | 0x01 => some 8 | 0x02 => some 0 | 0x03 => some 12 | 0x04 => some 3 | 0x05 => some 2
  | 0x06 => some 12 | 0x07 => some 16 | 0x08 => some 24 | 0x09 => some 1 | 0x0A => some 0 | 0x0B => some 0
  | 0x10 => some 28 | 0x11 => some 16 | 0x12 => some 0 | 0x13 => some 0 | 0x14 => some 1 | 0x15 => some 1
  | 0x16 => some 4 | 0x17 => some 24
  | 0x20 => some 12 | 0x21 => some 13 | 0x22 => some 4 | 0x23 => some 1 | 0x24 => some 0 | 0x25 => some 72
  | 0x26 => some 0 | 0x27 => some 8 | 0x28 => some 16 | 0x29 => some 8 | 0x2A => some 16
  | 0x30 => some 16 | 0x31 => some 0 | 0x32 => some 0 | 0x33 => some 12
  | 0x40 => some 8 | 0x41 => some 8 | 0x42 => some 16 | 0x43 => some 20
  | 0x50 => some 5 | 0x51 => some 16 | 0x52 => some 8 | 0x53 => some 16 | 0x54 => some 12 | 0x55 => some 12
  | 0x56 => some 5
  | 0x60 => some 4 | 0x61 => some 2 | 0x62 => some 1 | 0x63 => some 16 | 0x64 => some 16 | 0x65 => some 12
  | 0x66 => some 5
  | 0x70 => some 48 | 0x71 => some 9 | 0x72 => some 8
  | 0x80 => some 8 | 0x81 => some 16 | 0x82 => some 8 | 0x83 => some 0
  | _ => none

/-- Expert length, without its variable part; none where the opcode has no expert form (R390). -/
def expertLen (op : Nat) : Option Nat :=
  match op with
  | 0x05 => some 4 | 0x08 => some 32 | 0x10 => some 32 | 0x11 => some 16 | 0x14 => some 48 | 0x20 => some 80
  | 0x26 => some 25 | 0x30 => some 20
  | _ => none

/-- The variable part of a length, from the count fields of the parameters (R390). -/
def varLen (op : Nat) (expert : Bool) (b : List Byte) : Nat :=
  match op, expert with
  | 0x10, true => le b 28 4
  | 0x11, false => le b 0 2 * 16
  | 0x11, true => le b 0 2 * 16 + le b 2 2
  | 0x14, true => le b 2 2 * 8
  | _, _ => 0

/-- Whether an opcode's length has a variable part. -/
def hasVar (op : Nat) (expert : Bool) : Bool := op == 0x11 || (expert && (op == 0x10 || op == 0x14))

/-- An address aligned and with its extent inside the address space (R392). -/
def addrOk (align a extent : Nat) : Bool := a % align == 0 && decide (a + max 1 extent ≤ 2 ^ 64)

/-- The stage record of R178. -/
def stageRec (b : List Byte) : StageRec where
  stage := byteAt b 0
  keel := byteAt b 1 % 8
  slotFirst := le b 2 2
  slotCount := le b 4 2
  layerFirst := byteAt b 6
  layerCount := byteAt b 7
  embed := bitOf (byteAt b 8) 0
  head := bitOf (byteAt b 8) 1
  sample := bitOf (byteAt b 8) 2
  outE4m3 := bitOf (byteAt b 8) 3
  nextStage := byteAt b 9
  nextModule := byteAt b 10 % 16
  remote := bitOf (byteAt b 10) 4
  rsvd := decide (8 ≤ byteAt b 1) || decide (16 ≤ byteAt b 8) || decide (32 ≤ byteAt b 10) || !zeroAt b 11 5

/-- SAMPLE_PARAMS of R258. -/
def sampleParams (b : List Byte) : SampleParams where
  seed := BitVec.ofNat 64 (le b 0 8)
  temperature := BitVec.ofNat 16 (le b 8 2)
  topP := BitVec.ofNat 16 (le b 10 2)
  repPenalty := BitVec.ofNat 16 (le b 12 2)
  window := le b 14 2
  topK := le b 16 4
  rsvd := BitVec.ofNat 32 (le b 20 4)

/-- A structure within the ranges of R258, but for TOP_K against V, which needs the model. -/
def sampleOk (p : SampleParams) : Bool :=
  tempOk p.temperature.toNat && topPOk p.topP.toNat && penaltyOk p.repPenalty.toNat &&
  decide (p.window ≤ 256) && p.rsvd == 0

/-- A list of 4-byte words. -/
def words (b : List Byte) (n : Nat) : List Nat := (List.range n).map fun i => le b (4 * i) 4

/-- A handle field. -/
def w32 (b : List Byte) (off : Nat) : W32 := BitVec.ofNat 32 (le b off 4)

/-- An optional handle: 0xFFFF_FFFF is none. -/
def optHandle (h : W32) : Option W32 := if h == noHandle then none else some h

/-- The bits of an 8-byte or longer little-endian mask that are set, below `n`. -/
def maskBits (x n : Nat) : List Nat := (List.range n).filter (bitOf x)

/-- Bytes of the fixed part that belong to no field (R389): they must be 0. -/
def gapBytes (op : Nat) (expert : Bool) : List (Nat × Nat) :=
  match op with
  | 0x03 => [(2, 2)]
  | 0x06 => [(3, 1)]
  | 0x07 => [(3, 1)]
  | 0x08 => [(18, 2)]
  | 0x10 => [(17, 3)]
  | 0x11 => if expert then [(4, 12)] else [(2, 14)]
  | 0x14 => if expert then [(4, 4)] else []
  | 0x17 => [(1, 3), (12, 4)]
  | 0x20 => if expert then [(13, 3), (45, 3)] else []
  | 0x25 => [(2, 2), (37, 3)]
  | 0x2A => [(2, 6)]
  | 0x51 => [(4, 4)]
  | _ => []

/-- The command that checked parameters spell; flag bits beyond those defined are tested by `flagBits`. -/
def decodeParams (op : Nat) (ex : Bool) (c : Cmd) (b : List Byte) : Option Instr :=
  match op with
  | 0x00 => some (.nop c)
  | 0x01 => some (.identify c (le b 0 8))
  | 0x02 => some (.getStatus c)
  | 0x03 => some (.setOption c (le b 0 2) (le b 4 8))
  | 0x04 => some (.getOption c (le b 0 2) (byteAt b 2))
  | 0x05 => some (.tickConfig c (le b 0 2) (if ex then some (byteAt b 2, byteAt b 3) else none))
  | 0x06 => some (.syncSignal c (le b 0 2) (byteAt b 2) (BitVec.ofNat 64 (le b 4 8)))
  | 0x07 => some (.syncWait c (le b 0 2) (byteAt b 2) (le b 4 4) (BitVec.ofNat 64 (le b 8 8)))
  | 0x08 => some (.spoolOpen c (le b 0 8) (le b 8 8) (byteAt b 16) (byteAt b 17) (w32 b 20)
      (if ex then some (le b 24 4, le b 28 4) else none))
  | 0x09 => some (.spoolClose c (bitOf (byteAt b 0) 0))
  | 0x0A => some (.keepalive c)
  | 0x0B => some (.spoolAdopt c)
  | 0x10 => some (.bundleStage c (le b 0 8) (le b 8 8) (byteAt b 16) (le b 20 4) (le b 24 4)
      (if ex then some ((List.range (le b 28 4)).map fun i => byteAt b (32 + i)) else none))
  | 0x11 => some (.modelPlace c ((List.range (le b 0 2)).map fun i => stageRec (slice b (16 + 16 * i) 16))
      (if ex then some ((List.range (le b 2 2)).map fun i => byteAt b (16 + 16 * le b 0 2 + i)) else none))
  | 0x12 => some (.modelWrite c)
  | 0x13 => some (.modelCommit c)
  | 0x14 => some (.modelReplace c (byteAt b 0)
      (if ex then some
        { prewrite := bitOf (byteAt b 1) 0, mask := maskBits (le b 8 40) 320,
          pairs := (List.range (le b 2 2)).map fun i => (w32 b (48 + 8 * i), w32 b (52 + 8 * i)) } else none))
  | 0x15 => some (.modelUnload c (bitOf (byteAt b 0) 0))
  | 0x16 => some (.panelRetire c (le b 0 4))
  | 0x17 => some (.panelRemap c (byteAt b 0) (le b 4 4) (w32 b 8) (le b 16 8))
  | 0x20 => some (.sessionOpen c (le b 0 4) (w32 b 4) (w32 b 8)
      (if ex then some
        { cls := byteAt b 12, params := sampleParams (slice b 16 24), draft := w32 b 40,
          stops := words (b.drop 48) (min (byteAt b 44) 8) } else none))
  | 0x21 => some (.sessionPrefill c (le b 0 8) (le b 8 4) (bitOf (byteAt b 12) 0) (bitOf (byteAt b 12) 1))
  | 0x22 => some (.sessionStep c (le b 0 4))
  | 0x23 => some (.sessionCancel c (bitOf (byteAt b 0) 0))
  | 0x24 => some (.sessionRelease c)
  | 0x25 =>
    let sel := byteAt b 0
    some (.sessionRebind c
      { steer := if bitOf sel 0 then some (w32 b 4) else none,
        delta := if bitOf sel 1 then some (w32 b 8) else none,
        cls := if bitOf sel 2 then some (byteAt b 1) else none,
        params := if bitOf sel 3 then some (sampleParams (slice b 12 24)) else none,
        stops := if bitOf sel 4 then some (words (b.drop 40) (min (byteAt b 36) 8)) else none })
  | 0x26 => some (.sessionFork c (if ex then some (sampleParams (slice b 0 24), byteAt b 24) else none))
  | 0x27 => some (.sessionTruncate c (le b 0 4) (w32 b 4))
  | 0x28 => some (.sessionRecompute c (le b 0 8) (le b 8 4) (le b 12 4))
  | 0x29 => some (.sessionQuery c (le b 0 8))
  | 0x2A => some (.specVerify c (byteAt b 0) (bitOf (byteAt b 1) 0) (bitOf (byteAt b 1) 1) (le b 8 8))
  | 0x30 => some (.adapterLoad c (le b 0 8) (le b 8 8) (if ex then some (w32 b 16) else none))
  | 0x31 => some (.adapterRetire c)
  | 0x32 => some (.adapterQuery c)
  | 0x33 => some (.steerBankLoad c (le b 0 8) (le b 8 2) (le b 10 2))
  | 0x40 => some (.frameQuota c (le b 0 4) (le b 4 4))
  | 0x41 => some (.frameQuery c (le b 0 8))
  | 0x42 => some (.kvExport c (le b 0 8) (le b 8 8))
  | 0x43 => some (.kvImport c (le b 0 8) (le b 8 8) (w32 b 16))
  | 0x50 => some (.calRun c (w32 b 0) (byteAt b 4))
  | 0x51 => some (.calRead c (le b 0 4) (le b 8 8))
  | 0x52 => some (.calWrite c (le b 0 8))
  | 0x53 => some (.trimRead c (le b 0 4) (le b 4 4) (le b 8 8))
  | 0x54 => some (.trimWrite c (le b 0 8) (le b 8 4))
  | 0x55 => some (.redundancyLoad c (le b 0 8) (le b 8 4))
  | 0x56 => some (.refreshPolicy c (le b 0 4) (byteAt b 4))
  | 0x60 => some (.testPanel c (le b 0 4))
  | 0x61 => some (.testCore c (le b 0 2))
  | 0x62 => some (.bistRun c (byteAt b 0))
  | 0x63 => some (.faultRead c (le b 0 8) (le b 8 4) (le b 12 4))
  | 0x64 => some (.exposureRead c (le b 0 4) (le b 4 4) (le b 8 8))
  | 0x65 => some (.captureRead c (le b 0 4) (le b 4 8))
  | 0x66 => some (.checkPolicy c (le b 0 4) (byteAt b 4))
  | 0x70 => some (.attest c (le b 0 8) (le b 8 8) (slice b 16 32))
  | 0x71 => some (.imageWrite c (le b 0 8) (byteAt b 8))
  | 0x72 => some (.keyInfo c (le b 0 8))
  | 0x80 => some (.adcSequence c (le b 0 8))
  | 0x81 => some (.adcRead c (le b 0 8) (le b 8 8))
  | 0x82 => some (.thermalConfig c (le b 0 8))
  | 0x83 => some (.supplyStatus c)
  | _ => none

/-- The opcode of a host command. -/
def opcodeOf : Instr → Nat
  | .nop _ => 0x00 | .identify _ _ => 0x01 | .getStatus _ => 0x02 | .setOption _ _ _ => 0x03
  | .getOption _ _ _ => 0x04 | .tickConfig _ _ _ => 0x05 | .syncSignal _ _ _ _ => 0x06
  | .syncWait _ _ _ _ _ => 0x07 | .spoolOpen _ _ _ _ _ _ _ => 0x08 | .spoolClose _ _ => 0x09
  | .keepalive _ => 0x0A | .spoolAdopt _ => 0x0B
  | .bundleStage _ _ _ _ _ _ _ => 0x10 | .modelPlace _ _ _ => 0x11 | .modelWrite _ => 0x12
  | .modelCommit _ => 0x13 | .modelReplace _ _ _ => 0x14 | .modelUnload _ _ => 0x15
  | .panelRetire _ _ => 0x16 | .panelRemap _ _ _ _ _ => 0x17
  | .sessionOpen _ _ _ _ _ => 0x20 | .sessionPrefill _ _ _ _ _ => 0x21 | .sessionStep _ _ => 0x22
  | .sessionCancel _ _ => 0x23 | .sessionRelease _ => 0x24 | .sessionRebind _ _ => 0x25
  | .sessionFork _ _ => 0x26 | .sessionTruncate _ _ _ => 0x27 | .sessionRecompute _ _ _ _ => 0x28
  | .sessionQuery _ _ => 0x29 | .specVerify _ _ _ _ _ => 0x2A
  | .adapterLoad _ _ _ _ => 0x30 | .adapterRetire _ => 0x31 | .adapterQuery _ => 0x32
  | .steerBankLoad _ _ _ _ => 0x33
  | .frameQuota _ _ _ => 0x40 | .frameQuery _ _ => 0x41 | .kvExport _ _ _ => 0x42 | .kvImport _ _ _ _ => 0x43
  | .calRun _ _ _ => 0x50 | .calRead _ _ _ => 0x51 | .calWrite _ _ => 0x52 | .trimRead _ _ _ _ => 0x53
  | .trimWrite _ _ _ => 0x54 | .redundancyLoad _ _ _ => 0x55 | .refreshPolicy _ _ _ => 0x56
  | .testPanel _ _ => 0x60 | .testCore _ _ => 0x61 | .bistRun _ _ => 0x62 | .faultRead _ _ _ _ => 0x63
  | .exposureRead _ _ _ _ => 0x64 | .captureRead _ _ _ => 0x65 | .checkPolicy _ _ _ => 0x66
  | .attest _ _ _ _ => 0x70 | .imageWrite _ _ _ => 0x71 | .keyInfo _ _ => 0x72
  | .adcSequence _ _ => 0x80 | .adcRead _ _ _ => 0x81 | .thermalConfig _ _ => 0x82 | .supplyStatus _ => 0x83
  | _ => 0xFF

/-- Reserved bits inside flag bytes, and fields that must be 0 in the form at hand (R13, R389). -/
def flagBitsOk (op : Nat) (ex : Bool) (b : List Byte) : Bool :=
  match op with
  | 0x09 => decide (byteAt b 0 < 2)
  | 0x14 => !ex || decide (byteAt b 1 < 2)
  | 0x15 => decide (byteAt b 0 < 2)
  | 0x20 => !ex || (decide (byteAt b 44 ≤ 8) && zeroAt b (48 + 4 * byteAt b 44) (32 - 4 * byteAt b 44))
  | 0x21 => decide (byteAt b 12 < 4)
  | 0x23 => decide (byteAt b 0 < 2)
  | 0x25 => decide (byteAt b 0 < 32) && (!bitOf (byteAt b 0) 4 ||
      (decide (byteAt b 36 ≤ 8) && zeroAt b (40 + 4 * byteAt b 36) (32 - 4 * byteAt b 36)))
  | 0x2A => decide (byteAt b 1 < 4)
  | _ => true

/-- A refusal when a condition fails. -/
def need (ok : Bool) (code : Nat) : Option Nat := if ok then none else some code

/-- HANDLE of a command that names none (R391). -/
def handleCheck (c : Cmd) : Option Nat := need (c.handle == noHandle) 0x0105

/-- Check 6 of R363: the values of the parameters (R13, R391, R392 and the command tables). -/
def paramCheck (i : Instr) : Option Nat :=
  match i with
  | .nop c => handleCheck c
  | .identify c a => handleCheck c <|> need (addrOk 64 a 256) 0x0105
  | .getStatus c => handleCheck c
  | .setOption c o v =>
    handleCheck c <|> need (optInRange o v) 0x0105 <|>
    need (o != oTickPeriod && o != oTickRole && o != oTickInComp && o != oRefreshDivisor && o != oHdmSize &&
      o != oSidebandControl) 0x0105
  | .getOption c o src => handleCheck c <|> need ((optRange o).isSome && decide (src ≤ 3)) 0x0105
  | .tickConfig c p e =>
    handleCheck c <|> need (decide (16 ≤ p) && decide (p ≤ 256)) 0x0105 <|>
    (match e with
     | some (r, k) => need (decide (r ≤ 2) && decide (k ≤ 255)) 0x0105
     | none => none)
  | .syncSignal c n o _ => handleCheck c <|> need (decide (n < 8192) && decide (o ≤ 1)) 0x0105
  | .syncWait c n r t _ =>
    handleCheck c <|> need (decide (n < 8192) && decide (r ≤ 1) && decide (t < 2 ^ 32)) 0x0105
  | .spoolOpen _ sb cb so co _ q =>
    need (addrOk 4096 sb (64 * 2 ^ so) && addrOk 4096 cb (32 * 2 ^ co) && decide (4 ≤ so) && decide (so ≤ 16) &&
      decide (6 ≤ co) && decide (co ≤ 16)) 0x0105 <|>
    (match q with
     | some (n, f) => need (decide (n ≤ 65536) && decide (f < 2 ^ 32)) 0x0105
     | none => none)
  | .spoolClose _ _ => none
  | .keepalive c => handleCheck c
  | .spoolAdopt _ => none
  | .bundleStage c a l m f n ks =>
    (if m = 0 then handleCheck c else none) <|>
    need (addrOk 4096 a l && decide (m ≤ 2) && (m == 2 || (f == 0 && n == 0)) && (m != 2 || decide (1 ≤ n)) &&
      (ks.isNone || m != 2) && (ks.getD []).all (fun k => decide (k < 8))) 0x0105
  | .modelPlace _ st f =>
    need (decide (1 ≤ st.length) && decide (st.length ≤ 256) && st.all (fun r => !r.rsvd) &&
      (f.getD []).all fun x => decide (x ≤ 2)) 0x0105
  | .modelWrite _ => none
  | .modelCommit _ => none
  | .modelReplace _ f e =>
    need (decide (f ≤ 2)) 0x0105 <|>
    (match e with
     | some x => need (decide (x.pairs.length ≤ 256) && x.mask.all (fun u => decide (u < 258))) 0x0105
     | none => none)
  | .modelUnload _ _ => none
  | .panelRetire c p => handleCheck c <|> need (panelOk p) 0x0105
  | .panelRemap c m p sp a =>
    handleCheck c <|>
    (if m = 0 then need (panelOk p && (sp == noHandle || panelOk sp.toNat)) 0x0105
     else if m = 1 then need (addrOk 64 a (7432 * (maskBits p 32).length)) 0x0105
     else some 0x0105)
  | .sessionOpen _ _ _ _ e =>
    (match e with
     | some x =>
       need (decide (x.cls ≤ 3) && decide (x.stops.length ≤ 8)) 0x0105 <|> need (sampleOk x.params) 0x010B
     | none => none)
  | .sessionPrefill _ a n _ _ =>
    need (addrOk 4 a (4 * n) && decide (1 ≤ n) && decide (n ≤ 1048576)) 0x0105
  | .sessionStep _ n => need (decide (1 ≤ n) && decide (n ≤ 65535)) 0x0105
  | .sessionCancel _ _ => none
  | .sessionRelease _ => none
  | .sessionRebind _ r =>
    need (decide (r.cls.getD 0 ≤ 3) && decide ((r.stops.getD []).length ≤ 8)) 0x0105 <|>
    need ((r.params.map sampleOk).getD true) 0x010B
  | .sessionFork _ e =>
    (match e with
     | some (p, k) => need (decide (k ≤ 3)) 0x0105 <|> need (sampleOk p) 0x010B
     | none => none)
  | .sessionTruncate _ _ _ => none
  | .sessionRecompute _ a _ n => need (addrOk 4 a (4 * n)) 0x0105
  | .sessionQuery _ a => need (addrOk 64 a 64) 0x0105
  | .specVerify _ k rj li a =>
    need (decide (1 ≤ k) && decide (k ≤ 31) &&
      (if li then addrOk 64 a (4 * k * (if rj then 2 else 1)) else a == 0)) 0x0105
  | .adapterLoad _ a l _ => need (addrOk 64 a l) 0x0105
  | .adapterRetire _ => none
  | .adapterQuery _ => none
  | .steerBankLoad _ a f n =>
    need (addrOk 64 a 0 && decide (1 ≤ n) && decide (n ≤ 4096) && decide (f + n ≤ 4096)) 0x0105
  | .frameQuota _ q f => need (decide (q ≤ 65536) && decide (f < 2 ^ 32)) 0x0105
  | .frameQuery _ a => need (addrOk 64 a 512) 0x0105
  | .kvExport _ a l => need (addrOk 4096 a l) 0x0105
  | .kvImport _ a l _ => need (addrOk 64 a l) 0x0105
  | .calRun c p k => handleCheck c <|> need (if p == noHandle then decide (k < 256) else panelOk p.toNat && k == 0) 0x0105
  | .calRead c p a => handleCheck c <|> need (panelOk p && addrOk 64 a 4128) 0x0105
  | .calWrite c a => handleCheck c <|> need (addrOk 64 a 4128) 0x0105
  | .trimRead c _ n a =>
    handleCheck c <|> need (decide (1 ≤ n) && decide (n ≤ 59392) && addrOk 64 a (1588 * n)) 0x0105
  | .trimWrite c a n => handleCheck c <|> need (addrOk 64 a (1588 * n)) 0x0105
  | .redundancyLoad c a n => handleCheck c <|> need (addrOk 64 a (36 * n)) 0x0105
  | .refreshPolicy c d v => handleCheck c <|> need (decide (d < 2 ^ 32) && (v == 1 || v == 2 || v == 4)) 0x0105
  | .testPanel c p => handleCheck c <|> need (panelOk p) 0x0105
  | .testCore c k => handleCheck c <|> need (decide (k < 8192)) 0x0105
  | .bistRun c k => handleCheck c <|> need (decide (k < 256)) 0x0105
  | .faultRead c a _ n => handleCheck c <|> need (addrOk 64 a (32 * n)) 0x0105
  | .exposureRead c p n a => handleCheck c <|> need (panelOk p && addrOk 64 a (16 * n)) 0x0105
  | .captureRead c t a => handleCheck c <|> need (tileOk t && addrOk 64 a 1024) 0x0105
  | .checkPolicy c p v => handleCheck c <|> need (panelOk p && decide (v ≤ 3)) 0x0105
  | .attest c a l n => handleCheck c <|> need (addrOk 64 a l && n.length == 32) 0x0105
  | .imageWrite c a k => handleCheck c <|> need (addrOk 4096 a 65536 && decide (k ≤ 1)) 0x0105
  | .keyInfo c a => handleCheck c <|> need (addrOk 64 a 512) 0x0105
  | .adcSequence c a => handleCheck c <|> need (addrOk 64 a 8) 0x0105
  | .adcRead c ch a => handleCheck c <|> need (decide (ch < 2 ^ 61) && addrOk 64 a (2 * (maskBits ch 64).length)) 0x0105
  | .thermalConfig c a => handleCheck c <|> need (addrOk 64 a 32) 0x0105
  | .supplyStatus c => handleCheck c
  | _ => none

/-- A packet read into its fields, and what the checks at fetch find. -/
structure Fetched where
  op : Nat
  handle : W32
  seq : W32
  mode : Nat
  counter : Nat
  sod : Bool
  syncRsvd : Bool
  /-- the code of the first check that fails -/
  code : Option Nat
  instr : Option Instr
  deriving DecidableEq, Repr

/-- Read a packet: fields of R349 and checks 1 to 8 of R363 in table order. `owner` and `ctrOk` give the
function of the spool and whether a counter is its own. -/
def readPacket (owner : Nat) (ctrOk : Nat → Bool) (spool slot : Nat) (pkt : List Byte)
    (block : Option (List Byte)) : Fetched :=
  let op := byteAt pkt 0
  let flags := byteAt pkt 1
  let par := le pkt 2 2
  let seq := w32 pkt 4
  let sync := le pkt 12 4
  let counter := bitsOf sync 0 13
  let mode := bitsOf sync 16 2
  let syncRsvd := bitsOf sync 13 3 != 0 || bitsOf sync 18 14 != 0
  let sod := bitOf flags 2
  let expert := bitOf flags 0
  let indirect := bitOf par 15
  let plen := bitsOf par 0 15
  let c : Cmd := { spool := spool, seq := seq, slot := slot, handle := w32 pkt 8, expert := expert,
                   fence := bitOf flags 1, signalOnDone := sod, quiet := bitOf flags 3,
                   mode := if mode = 1 then .wait else if mode = 2 then .signal else .none,
                   counter := counter, io := { rd := none, wr := true } }
  let fixed := if expert then (if (basicLen op).isSome then expertLen op else none) else basicLen op
  let params := if indirect then (block.getD []).take plen else slice pkt 16 plen
  let rest := if indirect then zeroAt pkt 24 40 else zeroAt pkt (16 + plen) (48 - plen)
  let addr := le pkt 16 8
  let instr := decodeParams op expert c params
  let lenOk := match fixed with
    | none => false
    | some n => (if indirect then decide (1 ≤ plen) else decide (plen ≤ 48)) &&
        (if hasVar op expert then decide (n ≤ plen) else plen == n)
  let code :=
    need (decide (flags < 16) && !syncRsvd) 0x0103 <|>
    need (basicLen op).isSome 0x0101 <|>
    need (!(opPfOnly op && owner != 0)) 0x0106 <|>
    need lenOk 0x0102 <|>
    need (!indirect || (addrOk 64 addr plen && block.isSome)) 0x0104 <|>
    need (plen == fixed.getD 0 + varLen op expert params) 0x0102 <|>
    need (rest && flagBitsOk op expert params &&
      (gapBytes op expert).all (fun g => zeroAt params g.1 g.2)) 0x0105 <|>
    (match instr with
     | some i => paramCheck i
     | none => none) <|>
    need (decide (mode ≤ 2) && (!sod || mode == 2)) 0x0105 <|>
    need (mode == 0 || ctrOk counter) 0x0403
  { op := op, handle := c.handle, seq := seq, mode := mode, counter := counter, sod := sod,
    syncRsvd := syncRsvd, code := code, instr := instr }

end Sys2Proof.Machine
end

