-- ==== Sys2Proof/Machine/Device.lean ====
section
/-!
DEFINITION. The device commands (R397–R404) that concern the module as a whole, options and sync counters.
-/
namespace Sys2Proof.Machine

/-- Write bytes to host memory, unless a viral indication has stopped all writes to it (R468); the environment says whether the
write succeeds (R386, log 6). -/
def hostWrite (s : State) (a : Nat) (b : List Byte) : State :=
  if s.bus.viral then s else s.onBus fun x => { x with host := x.host.writeBytes a b }

/-! Buffers of commands, in host memory or in the HDM window (R386, R392, R470–R473). -/

/-- DRAM is one memory: 256 GiB of address for each keel, of which 192 GiB exist (R21). -/
def dramAddr (k off : Nat) : Nat := k * 274877906944 + off

/-- The keel and its DRAM byte that a window offset lies on (R470). -/
def hdmAddr (s : State) (w : Nat) : Nat :=
  let sl := opt s oHdmSize * 0x40000000
  dramAddr (w / sl) (0x3000000000 - sl + w % sl)

/-- Bytes of the HDM window (R470, R471). -/
def hdmBytes (s : State) : Nat := opt s oHdmSize * 0x200000000

/-- The window offset of a buffer that lies whole in the HDM range which the host has programmed (R473; log 91). -/
def hdmOffset (s : State) (a n : Nat) : Option Nat :=
  match s.bus.hdmBase with
  | none => none
  | some b => if b ≤ a ∧ a + n ≤ b + hdmBytes s then some (a - b) else none

/-- The window lines of some bytes of which the host holds a copy: the module snoops them before it reads or writes there (R472). -/
def linesHeld (s : State) (w n : Nat) : List Nat := s.bus.snoop.filter fun l => decide (64 * l < w + n) && decide (w < 64 * l + 64)

/-- The data that the host returns modified for snooped lines is written first (R472). -/
def writeBack (s : State) (ls : List Nat) (back : List (Nat × List Byte)) : State :=
  (back.filter fun x => ls.contains x.1).foldl
    (fun s x => s.onKv fun k => { k with dram := k.dram.writeBytes (hdmAddr s (64 * x.1)) (x.2.take 64) }) s

/-- The module takes lines of the window: each that the host holds is snooped first, what the host had modified is written, and the
host holds no copy any more (R472; log 91). -/
def takeLines (s : State) (w n : Nat) (back : List (Nat × List Byte)) : State :=
  let ls := linesHeld s w n
  (writeBack s ls back).onBus fun b => { b with snoop := b.snoop.filter fun l => !ls.contains l, snooped := ls }

/-- The bytes of the window from an offset. -/
def windowRead (s : State) (w n : Nat) : List Byte := (List.range n).map fun i => s.kv.dram.read (hdmAddr s (w + i))

/-- DRAM with bytes written to the window from an offset. -/
def windowWrite (s : State) : Nat → List Byte → Mem → Mem
  | _, [], d => d
  | w, b :: r, d => windowWrite s (w + 1) r (d.write (hdmAddr s w) b)

/-- Read a command's buffer: from the module's own DRAM where it lies in the HDM range, or from host memory, where the read
can fail (R386, R473). -/
def bufRead (s : State) (c : Cmd) (a n : Nat) : Option (List Byte × State) :=
  match hdmOffset s a n with
  | some w => let s1 := takeLines s w n c.io.back; some (windowRead s1 w n, s1)
  | none => c.io.rd.map fun b => (b, s)

/-- Write a command's buffer: to the module's own DRAM where it lies in the HDM range, or to host memory (R473). -/
def bufWrite (s : State) (io : Io) (a : Nat) (b : List Byte) : State :=
  match hdmOffset s a b.length with
  | some w => (takeLines s w b.length io.back).onKv fun k => { k with dram := windowWrite s w b k.dram }
  | none => hostWrite s a b

/-- What the accesses of an outstanding command to its buffers meet. -/
def outIo (o : OutCmd) : Io := ((outCmd o).map Cmd.io).getD { rd := none, wr := false }

/-- Write an output buffer and answer DONE, or end with HOST_FAULT when the write to host memory fails (R386, R392). -/
def outputTo (s : State) (c : Cmd) (a : Nat) (b : List Byte) (res : List Byte) : State × Reply :=
  if c.io.wr || (hdmOffset s a b.length).isSome then (bufWrite s c.io a b, .done res) else (s, .error 0x0501 [])

/-- NOP (R397). -/
def runNop (c : Cmd) : State → State :=
  hostCommand (.nop c) c 0x00 (paramCheck (.nop c)) fun s => (s, .done [])

def execNop (c : Cmd) (s : State) : Host.Outcome State Fault Refusal := guarded c.wf s (runNop c s)

/-- PART_INFO (R29). -/
def partInfo (n : Nv) : Nat :=
  n.stepMajor % 16 * 4096 + n.stepMinor % 16 * 256 + b2n n.part.signedOnly * 16 + b2n n.part.binB

/-- The 64 bytes of the identity and capability registers (R29). -/
def identityRegs (n : Nv) : List Byte :=
  toLe 4 0x94800009 ++ toLe 4 (partInfo n) ++ toLe 8 n.serial.toNat ++
  toLe 4 (4 * 65536 + 3 * 256 + 8) ++ toLe 4 (1856 * 65536 + 1792) ++
  toLe 4 (8 * 2 ^ 28 + 1024 * 65536 + 2096) ++ toLe 4 (1048 * 65536 + 16 * 256 + 32) ++
  toLe 4 (1024 * 65536 + 128 * 256 + 64) ++ toLe 4 (256 * 65536 + 192) ++
  toLe 4 65536 ++ toLe 4 (8192 * 65536 + 4096) ++ toLe 4 2097152 ++ toLe 4 (8192 * 65536 + 256) ++
  toLe 4 (2048 * 65536 + 256) ++ toLe 4 0xF7

/-- The ordering code in ASCII, padded to 16 bytes (R1, R404). -/
def orderingCode (p : Part) : List Byte :=
  ([0x48, 0x59, 0x39, 0x34, 0x38, 0x30, 0x4D, 0x2D] ++ [if p.binB then 0x42 else 0x41] ++
   (if p.signedOnly then [0x53] else []) ++ zeros 16).take 16

/-- IMAGE_VERSION of the image in force; the factory defaults have none, taken as 0 (log 23). -/
def imageVersion (s : State) : Nat :=
  match s.boot.image with
  | some b => le b 12 4
  | none => 0

/-- SHA-512 of the image in force. -/
def imageDigest (s : State) : List Byte :=
  match s.boot.image with
  | some b => sha512 b
  | none => (Config.defaultImageDigest ++ zeros 64).take 64

/-- The identity block of R404. -/
def identityBlock (s : State) : List Byte :=
  identityRegs s.nv ++ orderingCode s.nv.part ++ toLe 1 s.boot.inUse ++ zeros 3 ++ toLe 4 (imageVersion s) ++
  imageDigest s ++ zeros 104

/-- IDENTIFY (R4, R397, R404). -/
def runIdentify (c : Cmd) (addr : Nat) : State → State :=
  hostCommand (.identify c addr) c 0x01 (paramCheck (.identify c addr)) fun s =>
    outputTo s c addr (identityBlock s) (toLe 4 0x94800009 ++ toLe 4 (partInfo s.nv))

def execIdentify (c : Cmd) (addr : Nat) (s : State) : Host.Outcome State Fault Refusal :=
  guarded c.wf s (runIdentify c addr s)

/-- Open sessions: of the module, or of one spool. -/
def openSessions (s : State) : Nat := s.sessions.countP fun e => e.2.st != .closed
def spoolSessions (s : State) (p : Nat) : Nat := s.sessions.countP fun e => e.2.st != .closed && e.2.spool == p

/-- Frames on the free list of a keel: those returned, and those never used (R217). -/
def freeFrames (s : State) (k : Nat) : Nat := (s.kv.freed.get [] k).length + (2097152 - s.kv.fresh.get 0 k)

/-- Whether any spool is in a state. -/
def anySpool (s : State) (st : SpoolSt) : Bool := s.spools.any fun e => e.2.st == st

/-- The input in use: 0 main, 1 backup. -/
def inputInUse (s : State) : Nat := b2n s.supply.backup

/-- GET_STATUS (R397). -/
def runGetStatus (c : Cmd) : State → State :=
  hostCommand (.getStatus c) c 0x02 (paramCheck (.getStatus c)) fun s =>
    (s, .done (toLe 4 (openSessions s) ++ toLe 4 ((List.range 8).map (freeFrames s)).sum ++
      toLe 1 s.tick.capStep ++ toLe 1 (inputInUse s) ++
      toLe 1 (((List.range 32).map fun d => s.thermal.bands.get 0 d).foldl max 0) ++
      toLe 1 (b2n (anySpool s .halted) + 2 * b2n (anySpool s .orphaned))))

def execGetStatus (c : Cmd) (s : State) : Host.Outcome State Fault Refusal := guarded c.wf s (runGetStatus c s)

/-- Whether VF_SPOOLS and VF_COUNTERS may change (R332): the issuing spool stays the PF's under the new
VF_SPOOLS. -/
def vfChangeOk (s : State) (c : Cmd) (o v : Nat) : Bool :=
  let n := if o = oVfSpools then v else opt s oVfSpools
  !s.boot.vfEnable && s.spools.all (fun e => e.1 == 0 || e.1 == c.spool || e.2.st == .closed) &&
  decide (c.spool < 4096 - 64 * n)

/-- The allowances of R121 with a SET_OPTION and every other pending one in effect. -/
def tailSumWith (s : State) (o v : Nat) : Nat :=
  let f := fun n => if o = n then v else optNext s n
  tailSum (f oWideBudget) (f oTailBudget) (f oDeltaBudget)

/-- The shorter of the period in force and any pending period (R121). -/
def shortPeriod (s : State) : Nat :=
  match s.tick.pend with
  | some p => min s.tick.period p.period
  | none => s.tick.period

/-- Whether an option is one of R121's allowances. -/
def isAllowance (o : Nat) : Bool := o == oTailBudget || o == oWideBudget || o == oDeltaBudget

/-- SET_OPTION (R2, R121, R332, R398, R399). -/
def runSetOption (c : Cmd) (o v : Nat) : State → State :=
  hostCommand (.setOption c o v) c 0x03 (paramCheck (.setOption c o v)) fun s =>
    if (o == oVfSpools || o == oVfCounters) && !vfChangeOk s c o v then (s, .error 0x020F [])
    else if isAllowance o && decide (tailCapacity (shortPeriod s) < tailSumWith s o v) then (s, .error 0x0608 [])
    else
      let w := binLimit s.nv.part o v
      (s.onOpts fun x => { x with pend := x.pend.set o w }, .done (toLe 8 w))

def execSetOption (c : Cmd) (o v : Nat) (s : State) : Host.Outcome State Fault Refusal :=
  guarded c.wf s (runSetOption c o v s)

/-- The value of an option that TICK_CONFIG or REFRESH_POLICY has pending for the next edge (R105, R161, R399, R401). -/
def tickPending (s : State) (o : Nat) : Option Nat :=
  if o = oTickPeriod then s.tick.pend.bind fun p => if p.at_ = s.now + 1 then some p.period else none
  else s.tick.acts.foldl (fun v a => match a with
    | .refresh dies div => if o = oRefreshDivisor && dies % 2 ^ 32 != 0 then some div else v
    | .tickCfg r k => if o = oTickRole then some r else if o = oTickInComp then some k else v
    | _ => v) none

/-- The value of an option that is pending for the next edge (R400). -/
def optWaiting (s : State) (o : Nat) : Option Nat := s.opts.pend.find o <|> tickPending s o

/-- The value of an option that a SOURCE names (R400). -/
def optSource (s : State) (o src : Nat) : Nat :=
  match src with
  | 0 => opt s o
  | 1 => (optWaiting s o).getD (opt s o)
  | 2 => optImage s o
  | _ => optDefault s.nv.part o

/-- Whether a value of an option is pending for the next edge (R400). -/
def optPending (s : State) (o : Nat) : Bool := (optWaiting s o).isSome

/-- GET_OPTION (R400). -/
def runGetOption (c : Cmd) (o src : Nat) : State → State :=
  hostCommand (.getOption c o src) c 0x04 (paramCheck (.getOption c o src)) fun s =>
    (s, .done (toLe 8 (optSource s o src) ++ toLe 1 (b2n (optPending s o))))

def execGetOption (c : Cmd) (o src : Nat) (s : State) : Host.Outcome State Fault Refusal :=
  guarded c.wf s (runGetOption c o src s)

/-- SYNC_SIGNAL: SET takes VALUE, ADD adds it (R372, R397, R402; log 121). -/
def runSyncSignal (c : Cmd) (n o : Nat) (v : W64) : State → State :=
  hostCommand (.syncSignal c n o v) c 0x06 (paramCheck (.syncSignal c n o v)) fun s =>
    if counterOwner s n != spoolOwner s c.spool then (s, .error 0x0403 [])
    else
      let w := if o = 0 then v else s.counter n + v
      (updateCounter s (.put n w), .done (toLe 8 w.toNat))

def execSyncSignal (c : Cmd) (n o : Nat) (v : W64) (s : State) : Host.Outcome State Fault Refusal :=
  guarded c.wf s (runSyncSignal c n o v s)

/-- SYNC_WAIT: DONE at once if the relation holds, otherwise it waits; the deadline counts edges, and a
TIMEOUT of 0 means none (R375, R402). -/
def runSyncWait (c : Cmd) (n rel timeout : Nat) (target : W64) : State → State :=
  hostCommand (.syncWait c n rel timeout target) c 0x07 (paramCheck (.syncWait c n rel timeout target)) fun s =>
    if counterOwner s n != spoolOwner s c.spool then (s, .error 0x0403 [])
    else if relHolds rel (s.counter n) target then (s, .done (toLe 8 (s.counter n).toNat))
    else (s, .running (.syncWait n rel target (if timeout = 0 then none else some (s.tick.edges + timeout))))

def execSyncWait (c : Cmd) (n rel timeout : Nat) (target : W64) (s : State) : Host.Outcome State Fault Refusal :=
  guarded c.wf s (runSyncWait c n rel timeout target s)

/-- Whether an outstanding command is a wait whose timeout has passed. -/
def waitOver (s : State) (p : Nat) (seq : W32) : Bool :=
  match findOut s p seq with
  | some { job := .syncWait _ _ _ (some d), .. } => decide (d ≤ s.tick.edges)
  | _ => false

/-- SYNC_WAIT_TIMEOUT: a wait whose timeout has passed ends with WAIT_TIMEOUT, one of an orphaned spool too (R375, R377). -/
def syncWaitTimeout (p : Nat) (seq : W32) (s : State) : State :=
  match (p :: orphanKeys s p).find? fun k => waitOver s k seq with
  | some k => finish s k seq 0x0207 []
  | none => s

def execSyncWaitTimeout (p : Nat) (seq : W32) (s : State) : Host.Outcome State Fault Refusal :=
  guarded (Instr.wf (.syncWaitTimeout p seq)) s (syncWaitTimeout p seq s)

/-- KEEPALIVE (R376). -/
def runKeepalive (c : Cmd) : State → State :=
  hostCommand (.keepalive c) c 0x0A (paramCheck (.keepalive c)) fun s => (s, .done [])

def execKeepalive (c : Cmd) (s : State) : Host.Outcome State Fault Refusal := guarded c.wf s (runKeepalive c s)

/-- A spool number: 0 to 4,095 (R343). -/
def spoolNumber (h : W32) : Option Nat :=
  if h.toNat < 4096 then some h.toNat else none

/-- Take ring values into use and open a spool (R346, R347). -/
def openSpool (q : Spool) (sqB cqB sqO cqO : Nat) (first : W32) (sq fq now : Nat) : Spool :=
  { q with useSq := sqB, useCq := cqB, useSqOrd := sqO, useCqOrd := cqO, sqTail := 0, cqHead := 0,
           sqHead := 0, cqTail := 0, phase := true, nextSeq := first, st := .opened, dirty := false,
           sessQuota := some sq, frameQuota := some fq, lastFetch := now, out := [], dup := [], due := [], ring := [],
           resv := 0, closing := false, cqFault := false, fetchFault := false }

/-- SPOOL_OPEN (R347): the quotas given, up to the issuing spool's own, or those in force at its start (R352; log 24). -/
def runSpoolOpen (c : Cmd) (sqB cqB sqO cqO : Nat) (first : W32) (q : Option (Nat × Nat)) : State → State :=
  hostCommand (.spoolOpen c sqB cqB sqO cqO first q) c 0x08 (paramCheck (.spoolOpen c sqB cqB sqO cqO first q))
    fun s =>
      match spoolNumber c.handle with
      | none => (s, .error 0x0105 [])
      | some t =>
        if spoolOwner s t != spoolOwner s c.spool then (s, .error 0x0402 [])
        else if (s.spool t).st != .closed then (s, .error 0x0205 [])
        else if t = 0 then (s, .error 0x0105 [])
        else
          let sq := (q.map fun x => min x.1 (sessQuota s c.spool)).getD (opt s oSpoolSessionQuota)
          let fq := (q.map fun x => min x.2 (frameQuota s c.spool)).getD (opt s oSpoolFrameQuota)
          (s.onSpool t fun sp => openSpool sp sqB cqB sqO cqO first sq fq s.tick.time, .done [])

def execSpoolOpen (c : Cmd) (sqB cqB sqO cqO : Nat) (first : W32) (q : Option (Nat × Nat)) (s : State) :
    Host.Outcome State Fault Refusal :=
  guarded c.wf s (runSpoolOpen c sqB cqB sqO cqO first q s)

end Sys2Proof.Machine
end

