-- ==== Sys2Proof/Machine/Bundle.lean ====
section
/-!
DEFINITION. The bundle layout (R288–R295): fields of the header, directory, sections, descriptors and tile
records, read from the bytes the module holds, and the place of each layer and unit (R178, R300).
-/
namespace Sys2Proof.Machine

/-- Header fields (R288). -/
def bModel (b : List Byte) : Nat := le b 12 4
def bLayers (b : List Byte) : Nat := le b 16 2
def bHidden (b : List Byte) : Nat := le b 20 4
def bVocab (b : List Byte) : Nat := le b 24 4
def bMaxCtx (b : List Byte) : Nat := le b 28 4
def bEndTokens (b : List Byte) : List Nat := (words (b.drop 32) 8).filter (· != 0xFFFFFFFF)
def bSections (b : List Byte) : Nat := le b 64 4
def bDirOff (b : List Byte) : Nat := le b 72 8
def bLength (b : List Byte) : Nat := le b 80 8

/-- A directory entry (R290). -/
structure DirEntry where
  kind : Nat
  layer : Nat
  off : Nat
  len : Nat
  digest : List Byte
  rsvdOk : Bool
  deriving DecidableEq, Repr

/-- Directory entry `i`. -/
def dirEntry (b : List Byte) (i : Nat) : DirEntry :=
  let e := slice b (bDirOff b + 96 * i) 96
  { kind := byteAt e 0, layer := byteAt e 1, off := le e 8 8, len := le e 16 8, digest := slice e 24 64,
    rsvdOk := zeroAt e 2 6 && zeroAt e 88 8 }

/-- The whole directory. -/
def directory (b : List Byte) : List DirEntry := (List.range (bSections b)).map (dirEntry b)

/-- Directory index of a unit, numbered as MASK: layers 0–255, 256 EMBED, 257 HEAD (R405). -/
def unitDir (b : List Byte) (u : Nat) : Option Nat :=
  leastBelow (bSections b) fun i =>
    let e := dirEntry b i
    if u = 256 then e.kind == 1 else if u = 257 then e.kind == 2 else e.kind == 0 && e.layer == u

/-- Bytes of a unit's section. -/
def unitSection (b : List Byte) (u : Nat) : List Byte :=
  match unitDir b u with
  | none => []
  | some i => slice b (dirEntry b i).off (dirEntry b i).len

/-- Section header fields (R292). -/
def sArch (x : List Byte) : Nat := byteAt x 0
def sAct (x : List Byte) : Nat := byteAt x 1
def sHq (x : List Byte) : Nat := le x 2 2
def sHkv (x : List Byte) : Nat := byteAt x 4
def sMatrices (x : List Byte) : Nat := byteAt x 5
def sDh (x : List Byte) : Nat := le x 6 2
def sRope (x : List Byte) : F32 := BitVec.ofNat 32 (le x 8 4)
def sEps (x : List Byte) : F32 := BitVec.ofNat 32 (le x 12 4)
def sVecOff (x : List Byte) : Nat := le x 16 4
def sVecBytes (x : List Byte) : Nat := le x 20 4
def sTileOff (x : List Byte) : Nat := le x 24 4
def sTiles (x : List Byte) : Nat := le x 28 4

/-- A matrix descriptor (R292). -/
structure MatDesc where
  role : Nat
  format : Nat
  inW : Nat
  outW : Nat
  rowB : Nat
  colB : Nat
  first : Nat
  fmap : Nat
  rsvdOk : Bool
  deriving DecidableEq, Repr

/-- Descriptor `i` of a section. -/
def matDesc (x : List Byte) (i : Nat) : MatDesc :=
  let d := slice x (64 + 32 * i) 32
  { role := byteAt d 0, format := byteAt d 1, inW := le d 4 4, outW := le d 8 4, rowB := le d 12 2,
    colB := le d 14 2, first := le d 16 4, fmap := le d 20 4, rsvdOk := zeroAt d 2 2 && zeroAt d 24 8 }

/-- The descriptors of a section. -/
def matrices (x : List Byte) : List MatDesc := (List.range (sMatrices x)).map (matDesc x)

/-- The descriptor of a ROLE; descriptors appear in ascending ROLE order. -/
def roleDesc (x : List Byte) (role : Nat) : MatDesc := matDesc x (if sArch x = 2 then 0 else role)

/-- Tiles of a matrix. -/
def matTiles (d : MatDesc) : Nat := d.rowB * d.colB

/-- The format of tile `k` of a matrix (R293). -/
def tileFormat (x : List Byte) (d : MatDesc) (k : Nat) : Nat :=
  if d.fmap = 0 then d.format else byteAt x (d.fmap + k)

/-- The matrix of a section to which a tile record belongs. -/
def recordMatrix (x : List Byte) (r : Nat) : Option MatDesc :=
  (matrices x).find? fun d => decide (d.first ≤ r) && decide (r < d.first + matTiles d)

/-- The format of a tile record. -/
def recordFormat (x : List Byte) (r : Nat) : Nat :=
  match recordMatrix x r with
  | some d => tileFormat x d (r - d.first)
  | none => 0

/-- A tile record (R294). -/
def tileRecord (x : List Byte) (r : Nat) : List Byte := slice x (sTileOff x + 270336 * r) 270336

/-- Row `r` of a tile image: 256 bytes. -/
def imageRow (t : List Byte) (r : Nat) : List Byte := slice t (256 * r) 256

/-- Physical column bit `p` of a row (R294). -/
def rowBit (row : List Byte) (p : Nat) : Bool := bitOf (byteAt row (p / 8)) (p % 8)

/-- Weight scale of a logical column, and the signed row sum (R294). -/
def tileScale (t : List Byte) (c : Nat) : F16 := BitVec.ofNat 16 (le t (266240 + 2 * c) 2)
def tileRowSum (t : List Byte) (r : Nat) : Int := toSigned 16 (le t (268288 + 2 * r) 2)

/-- FP32 vectors of a section: `n` elements from element `i`. -/
def sectVec (x : List Byte) (i n : Nat) : List F32 :=
  (List.range n).map fun j => BitVec.ofNat 32 (le x (sVecOff x + 4 * (i + j)) 4)

/-- A row of the embedding table, widened to FP32 (R291). -/
def embedRow (b : List Byte) (tok : Nat) : List F32 :=
  let x := unitSection b 256
  (List.range (bHidden b)).map fun i => bf16ToF32 (BitVec.ofNat 16 (le x (2 * (tok * bHidden b + i)) 2))

/-- Units of a model in path order: EMBED, layers ascending, HEAD. -/
def unitsOf (b : List Byte) : List Nat := [256] ++ List.range (bLayers b) ++ [257]

/-! Placement. -/

/-- The stage record that holds a layer. -/
def layerStage (m : Model) (l : Nat) : Option StageRec :=
  m.stages.find? fun r => decide (r.layerFirst ≤ l) && decide (l < r.layerFirst + r.layerCount)

/-- Layers of a placed model on this module, with the keel of each (R22). -/
def layersHere (m : Model) : List (Nat × Nat) :=
  (List.range (bLayers m.bytes)).filterMap fun l => (layerStage m l).map fun r => (l, r.keel)

/-- Key-value geometry of a layer: Hkv and dh. -/
def kvShape (m : Model) (l : Nat) : Nat × Nat :=
  let x := unitSection m.bytes l
  (sHkv x, sDh x)

/-- KV_FORMAT of a layer (R200). -/
def kvFmt (m : Model) (l : Nat) : Nat := m.fmts.getD l 0

/-- Bytes per position (R200). -/
def bppOf (fmt hkv dh : Nat) : Nat := if fmt = 2 then 5 * (hkv * dh) / 4 else 2 * hkv * dh

/-- Positions per frame (R201). -/
def ppfOf (bpp : Nat) : Nat := 65536 / bpp

/-- bpp and ppf of a layer of a placed model. -/
def layerBpp (m : Model) (l : Nat) : Nat := bppOf (kvFmt m l) (kvShape m l).1 (kvShape m l).2
def layerPpf (m : Model) (l : Nat) : Nat := ppfOf (layerBpp m l)

/-- Whether the copy of a unit for an epoch is that of the pending bundle: a masked unit's for the new epoch (R311). -/
def newCopy (m : Model) (epoch u : Nat) : Bool :=
  m.pendB.isSome && match m.repl with
    | some r => epoch == r.newEpoch && r.mask.contains u
    | none => false

/-- The bundle that holds a unit for an epoch (R311). -/
def unitBundle (m : Model) (epoch u : Nat) : List Byte :=
  if newCopy m epoch u then (m.pendB.map Prod.fst).getD [] else m.bytes

/-- Whether a tile record of a unit is marked MASTER_LOST for an epoch (R298, R323). -/
def recordLost (m : Model) (epoch u r : Nat) : Bool := (if newCopy m epoch u then m.pendLost else m.lost).contains (u, r)

/-- The unit of a directory index, numbered as MASK. -/
def sectUnit (b : List Byte) (i : Nat) : Nat :=
  match (dirEntry b i).kind with
  | 0 => (dirEntry b i).layer
  | 1 => 256
  | _ => 257

/-- A model handle: GENERATION in [31:24], INDEX in [7:0] (R284). -/
def modelHandle (i gen : Nat) : W32 := BitVec.ofNat 32 (gen * 16777216 + i)

/-- The model a handle names, if it is current (R239, R284). -/
def findModel (s : State) (h : W32) : Option Nat :=
  let i := h.toNat % 16777216
  if i < 16 && (s.model i).st != .closed && h == modelHandle i (s.model i).gen then some i else none

/-- Whether a model is placed: its stage map holds. -/
def isPlaced (m : Model) : Bool :=
  match m.st with
  | .closed => false
  | .staging => false
  | .staged => false
  | _ => true

end Sys2Proof.Machine
end

