-- ==== Sys2Proof/Machine/KvStore.lean ====
section
/-!
DEFINITION. The key-value store: the frame table and its free lists, page lists and their pool, reservation,
truncation, sharing and the stream of an export (R216–R235).
-/
namespace Sys2Proof.Machine

/-- Keys of a frame and of a page-list entry of a keel. -/
def frameKey (k f : Nat) : Nat := k * 2097152 + f
def pageKey (k i : Nat) : Nat := k * 16777216 + i

/-- The DRAM address of a frame (R21). -/
def frameAddr (key : Nat) : Nat := dramAddr (key / 2097152) (key % 2097152 * 65536)

def State.frame (s : State) (key : Nat) : FrameE := s.kv.frames.get FrameE.init key
def State.page (s : State) (key : Nat) : PageE := s.kv.pages.get PageE.init key
def State.onFrame (s : State) (key : Nat) (f : FrameE → FrameE) : State :=
  s.onKv fun k => { k with frames := k.frames.upd FrameE.init key f }
def State.setPage (s : State) (key : Nat) (e : PageE) : State :=
  s.onKv fun k => { k with pages := if e = PageE.init then k.pages.del key else k.pages.set key e }

/-- Take a frame from the head of a keel's free list (R217); none when the list is empty. -/
def takeFrame (s : State) (k : Nat) : Option (Nat × State) :=
  match s.kv.freed.get [] k with
  | f :: r => some (f, s.onKv fun x => { x with freed := x.freed.set k r })
  | [] =>
    let n := s.kv.fresh.get 0 k
    if n < 2097152 then some (n, s.onKv fun x => { x with fresh := x.fresh.set k (n + 1) }) else none

/-- Lower a frame's REFCOUNT; at 0 it waits for the edge (R226). -/
def dropRef (s : State) (key : Nat) : State :=
  let n := (s.frame key).ref - 1
  let s1 := s.onFrame key fun f => { f with ref := n }
  if n = 0 then s1.onKv fun x => { x with zero := x.zero ++ [key] } else s1

/-- Raise a frame's REFCOUNT. -/
def addRef (s : State) (key : Nat) : State := s.onFrame key fun f => { f with ref := f.ref + 1 }

/-- Return every frame whose REFCOUNT reached 0 to the head of its keel's free list (R217, R226). -/
def returnFrames (s : State) : State :=
  s.kv.zero.foldl
    (fun s key =>
      if (s.frame key).ref = 0 then
        s.onKv fun x => { x with frames := x.frames.del key,
                                 freed := x.freed.upd [] (key / 2097152) fun l => key % 2097152 :: l }
      else s)
    (s.onKv fun x => { x with zero := [] })

/-! Page-list runs (R220, R221): a buddy pool of 128 runs of order 11 per keel. -/

/-- Entries of a run of an order. -/
def runLen (o : Nat) : Nat := 64 * 2 ^ o

/-- Free runs of a keel, as (BASE, ORDER). -/
def freeRuns (s : State) (k : Nat) : List (Nat × Nat) :=
  s.kv.runs.get ((List.range 128).map fun i => (i * 131072, 11)) k

/-- The smallest order that covers a number of entries. -/
def orderFor (n : Nat) : Nat := ((List.range 12).find? fun o => decide (n ≤ runLen o)).getD 12

/-- The halves left free when a run of order `o` is cut down to order `want`. -/
def splitRuns (base want : Nat) : Nat → List (Nat × Nat)
  | 0 => []
  | o + 1 => if want ≤ o then (base + runLen o, o) :: splitRuns base want o else []

/-- Take a run of an order: the smallest free run that holds it, the lowest of that size (log 8). -/
def takeRun (l : List (Nat × Nat)) (want : Nat) : Option (Nat × List (Nat × Nat)) :=
  match (List.range 12).find? fun o => decide (want ≤ o) && l.any fun r => r.2 == o with
  | none => none
  | some o =>
    let bases := (l.filter fun r => r.2 == o).map Prod.fst
    let b := bases.foldl min (bases.headD 0)
    some (b, (l.filter fun r => !(r == (b, o))) ++ splitRuns b want o)

/-- Put a run back, merging it with its free partner of the same size. -/
def putRun (l : List (Nat × Nat)) (base : Nat) : Nat → Nat → List (Nat × Nat)
  | 0, o => l ++ [(base, o)]
  | fuel + 1, o =>
    let partner := if base / runLen o % 2 = 0 then base + runLen o else base - runLen o
    if o < 11 && l.contains (partner, o) then
      putRun (l.filter fun r => !(r == (partner, o))) (min base partner) fuel (o + 1)
    else l ++ [(base, o)]

/-- Allocate one run per layer of a model for a context, or nothing (R221). -/
def allocRuns (s : State) (m : Model) (ctx : Nat) : Option (Tbl (Nat × Nat) × State) :=
  (layersHere m).foldl
    (fun acc lk =>
      match acc with
      | none => none
      | some (t, s) =>
        let o := orderFor (ceilDiv ctx (layerPpf m lk.1))
        match takeRun (freeRuns s lk.2) o with
        | none => none
        | some (b, rest) => some (t.set lk.1 (b, o), s.onKv fun x => { x with runs := x.runs.set lk.2 rest }))
    (some ([], s))

/-- Return the runs of a session's page lists for a model. -/
def freeRunsOf (s : State) (m : Model) (runs : Tbl (Nat × Nat)) : State :=
  (layersHere m).foldl
    (fun s lk =>
      match runs.find lk.1 with
      | none => s
      | some (b, o) => s.onKv fun x => { x with runs := x.runs.set lk.2 (putRun (freeRuns s lk.2) b 11 o) })
    s

/-! Page lists. -/

/-- The page key of a layer's entry. -/
def pageAt (runs : Tbl (Nat × Nat)) (lk : Nat × Nat) (idx : Nat) : Nat := pageKey lk.2 ((runs.get (0, 0) lk.1).1 + idx)

/-- Entries of a layer's run. -/
def runEntries (runs : Tbl (Nat × Nat)) (l : Nat) : Nat :=
  match runs.find l with
  | none => 0
  | some (_, o) => runLen o

/-- Indices of a layer's entries that are VALID. -/
def validIdx (s : State) (runs : Tbl (Nat × Nat)) (lk : Nat × Nat) : List Nat :=
  let base := pageAt runs lk 0
  (s.kv.pages.filter fun e => decide (base ≤ e.1) && decide (e.1 < base + runEntries runs lk.1) && e.2.valid).map
    fun e => e.1 - base

/-- VALID entries of a session for one model (R233). -/
def framesOf (s : State) (m : Model) (runs : Tbl (Nat × Nat)) : Nat :=
  ((layersHere m).map fun lk => (validIdx s runs lk).length).sum

/-- The draft model of a session, if it has one. -/
def draftOf (x : Session) : Option Nat :=
  match x.draft with
  | none => none
  | some h => some (h.toNat % 256)

/-- The index of a session's model. -/
def modelOf (x : Session) : Nat := x.model.toNat % 256

/-- A session's frame count (R233). -/
def sessFrames (s : State) (x : Session) : Nat :=
  framesOf s (s.model (modelOf x)) x.runs +
  match draftOf x with
  | none => 0
  | some d => framesOf s (s.model d) x.druns

/-- A spool's frame count (R233). -/
def spoolFrames (s : State) (p : Nat) : Nat :=
  ((s.sessions.filter fun e => e.2.st != .closed && e.2.spool == p).map fun e => sessFrames s e.2).sum

/-- Abandon a pending copy: the entry names the old frame again and the reserved frame is returned (R232). -/
def abandonCopy (s : State) (key : Nat) : State :=
  let e := s.page key
  if e.copy then
    dropRef (s.setPage key { e with frame := e.old, copy := false, old := 0 }) (frameKey (key / 16777216) e.frame)
  else s

/-- Clear a page-list entry and lower the count of the frame it named. -/
def clearPage (s : State) (key : Nat) : State :=
  let s1 := abandonCopy s key
  let e := s1.page key
  if e.valid then dropRef (s1.setPage key PageE.init) (frameKey (key / 16777216) e.frame) else s1

/-- Clear a layer's entries from an index upward (R229). -/
def clearFrom (s : State) (runs : Tbl (Nat × Nat)) (lk : Nat × Nat) (idx : Nat) : State :=
  ((validIdx s runs lk).filter fun i => decide (idx ≤ i)).foldl (fun s i => clearPage s (pageAt runs lk i)) s

/-- Truncate one model's page lists of a session to `n` positions (R229). -/
def truncPages (s : State) (m : Model) (runs : Tbl (Nat × Nat)) (n : Nat) : State :=
  (layersHere m).foldl (fun s lk => clearFrom s runs lk (ceilDiv n (layerPpf m lk.1))) s

/-- HISTORY after truncation from `len` to `n`: the tokens kept below `n` (R241). -/
def historyAt (h : List Nat) (len n : Nat) : List Nat := h.take (h.length - (len - n))

/-- Truncate a session's main model, and its draft to the smaller length (R229). The page lists truncated are those of this module:
R478 lists no frame that would carry a SESSION_TRUNCATE to the other modules of a spanning model (log 55). -/
def truncSession (s : State) (i n : Nat) : State :=
  let x := s.sess i
  let s1 := truncPages s (s.model (modelOf x)) x.runs n
  let s2 := match draftOf x with
    | none => s1
    | some d => truncPages s1 (s.model d) x.druns (min n x.draftLen)
  s2.onSess i fun x =>
    { x with history := historyAt x.history x.length n, length := n, draftLen := min n x.draftLen,
             kvStale := x.kvStale && n != 0, mixed := x.mixed && n != 0 }

/-- Share the entries that cover `n` positions with another run (R230). The page lists shared are those of this module: R478 lists no
frame that would tell the other modules of a spanning model of a fork (the model's choice, log 137). -/
def sharePages (s : State) (m : Model) (src dst : Tbl (Nat × Nat)) (n : Nat) : State :=
  (layersHere m).foldl
    (fun s lk =>
      (List.range (ceilDiv n (layerPpf m lk.1))).foldl
        (fun s i =>
          let e := s.page (pageAt src lk i)
          if e.valid then
            let f := if e.copy then e.old else e.frame
            addRef (s.setPage (pageAt dst lk i) { frame := f, copy := false, old := 0, valid := true })
              (frameKey lk.2 f)
          else s)
        s)
    s

/-! Reservation (R223, R231). -/

/-- One frame a reservation needs: layer and keel, entry index, and whether it replaces a shared frame. -/
structure Need where
  lk : Nat × Nat
  idx : Nat
  copy : Bool
  deriving DecidableEq, Repr

/-- The frames that positions `first` to `first + count - 1` need (R223); any shared entry among them is
copied (log 25). -/
def needsOf (s : State) (m : Model) (runs : Tbl (Nat × Nat)) (first count : Nat) : List Need :=
  if count = 0 then [] else
  (layersHere m).flatMap fun lk =>
    let ppf := layerPpf m lk.1
    ((List.range ((first + count - 1) / ppf + 1)).drop (first / ppf)).filterMap fun i =>
      let e := s.page (pageAt runs lk i)
      if !e.valid then some { lk := lk, idx := i, copy := false }
      else if !e.copy && decide (1 < (s.frame (frameKey lk.2 e.frame)).ref) then
        some { lk := lk, idx := i, copy := true }
      else none

/-- How many of a list of needs lie on a keel. -/
def needOn (l : List Need) (k : Nat) : Nat := l.countP fun n => n.lk.2 == k

/-- The bytes of a frame of a layer that its sections take (R202). -/
def frameUsed (m : Model) (l : Nat) : Nat := layerPpf m l * layerBpp m l

/-- The bytes of a frame after its last section hold 0 (R202). -/
def clearTail (s : State) (m : Model) (l key : Nat) : State :=
  s.onKv fun k => { k with dram := k.dram.clear (frameAddr key + frameUsed m l) (65536 - frameUsed m l) }

/-- Take one needed frame: REFCOUNT 1, entry VALID, COPY_PENDING for a copy (R223, R231). -/
def reserveOne (s : State) (owner epoch : Nat) (m : Model) (runs : Tbl (Nat × Nat)) (n : Need) : State :=
  match takeFrame s n.lk.2 with
  | none => s
  | some (f, s1) =>
    let key := pageAt runs n.lk n.idx
    let e := s1.page key
    ((clearTail s1 m n.lk.1 (frameKey n.lk.2 f)).setPage key { frame := f, copy := n.copy, old := if n.copy then e.frame else 0, valid := true }).onFrame
      (frameKey n.lk.2 f) fun _ =>
        { FrameE.init with ref := 1, owner := owner, layer := n.lk.1, fmt := kvFmt m n.lk.1, epoch := epoch }

/-- Reserve every frame of a list; the caller has found room on every keel. -/
def reserveAll (s : State) (owner epoch : Nat) (m : Model) (runs : Tbl (Nat × Nat)) (l : List Need) : State :=
  l.foldl (fun s n => reserveOne s owner epoch m runs n) s

/-- The page keys of a list of needs. -/
def needKeys (runs : Tbl (Nat × Nat)) (l : List Need) : List Nat := l.map fun n => pageAt runs n.lk n.idx

/-- Page keys that hold positions below `n` (R228). -/
def writtenKeys (m : Model) (runs : Tbl (Nat × Nat)) (n : Nat) : List Nat :=
  (layersHere m).flatMap fun lk => (List.range (ceilDiv n (layerPpf m lk.1))).map (pageAt runs lk)

/-- At an entry's end: return its reserved frames that hold nothing written and that no later entry of the
command reserved, and abandon a copy that has not been made (R228, R232). -/
def returnReserved (s : State) (sess : Nat) (reserved others : List Nat) : State :=
  let x := s.sess sess
  let kept := writtenKeys (s.model (modelOf x)) x.runs x.length ++
    match draftOf x with
    | none => []
    | some d => writtenKeys (s.model d) x.druns x.draftLen
  let own := reserved.filter fun k => !others.contains k
  (own.filter fun k => !kept.contains k).foldl clearPage ((own.filter kept.contains).foldl abandonCopy s)

/-! Frame layout (R202) and copies (R231). -/

/-- Sections of a frame of a layer: start byte and bytes per slot. -/
def frameSections (fmt hkv dh ppf : Nat) : List (Nat × Nat) :=
  if fmt = 2 then
    [(0, hkv * dh / 2), (ppf * hkv * dh / 2, hkv * dh / 2), (ppf * hkv * dh, hkv * dh / 8),
     (ppf * hkv * dh * 9 / 8, hkv * dh / 8)]
  else [(0, hkv * dh), (ppf * hkv * dh, hkv * dh)]

/-- Copy the slots below `slots` from one frame to another, bit for bit. -/
def copySlots (d : Mem) (src dst slots : Nat) (secs : List (Nat × Nat)) : Mem :=
  secs.foldl (fun d sec => d.writeBytes (dst + sec.1) (d.readBytes (src + sec.1) (slots * sec.2))) d

/-- A frame's bytes with the slots from `slots` upward as 0 (R234). -/
def frameBytes (d : Mem) (src slots : Nat) (secs : List (Nat × Nat)) : List Byte :=
  secs.foldl (fun b sec => overlay b sec.1 (d.readBytes (src + sec.1) (slots * sec.2))) (zeros 65536)

/-- Carry out a pending copy (R231). -/
def doCopy (s : State) (sess : Nat) (draft : Bool) (l idx : Nat) : State :=
  let x := s.sess sess
  let mi := if draft then (draftOf x).getD 0 else modelOf x
  let m := s.model mi
  let runs := if draft then x.druns else x.runs
  match (layerStage m l).map StageRec.keel with
  | none => s
  | some k =>
    let key := pageAt runs (l, k) idx
    let e := s.page key
    if !e.copy || !e.valid || runs.find l = none then s
    else
      let ppf := layerPpf m l
      let len := if draft then x.draftLen else x.length
      let secs := frameSections (kvFmt m l) (kvShape m l).1 (kvShape m l).2 ppf
      let src := frameKey k e.old
      let dst := frameKey k e.frame
      let o := s.frame src
      let s1 := s.onKv fun v =>
        { v with dram := copySlots v.dram (frameAddr src) (frameAddr dst) (min ppf (len - idx * ppf)) secs }
      let s2 := s1.onFrame dst fun f => { f with kSet := o.kSet, vSet := o.vSet, ks := o.ks, vs := o.vs, written := true }
      dropRef (s2.setPage key { e with copy := false, old := 0 }) src

/-! Export and import (R234, R235). -/

/-- Frame-table bytes 16–79: the scales (R216). -/
def scaleBytes (f : FrameE) : List Byte :=
  let one := fun (l : List F16) => (List.range 16).flatMap fun h => toLe 2 (l.getD h 0).toNat
  one f.ks ++ one f.vs

/-- A layer's entry of the stream. -/
def layerEntry (m : Model) (l : Nat) : List Byte :=
  toLe 1 l ++ toLe 1 (kvFmt m l) ++ toLe 1 (kvShape m l).1 ++ zeros 1 ++ toLe 2 (layerPpf m l) ++ toLe 2 (kvShape m l).2

/-- The frames a session's export names: layer and keel, index, and slots below the length. The layers of a spanning model that lie
on other modules have no frame here: the layer table lists them, and no frame record is written or expected for them (the model's
choice, log 138). -/
def exportList (m : Model) (len : Nat) : List ((Nat × Nat) × Nat × Nat) :=
  (layersHere m).flatMap fun lk =>
    let ppf := layerPpf m lk.1
    (List.range (ceilDiv len ppf)).map fun i => (lk, i, min ppf (len - i * ppf))

/-- Bytes of an export. -/
def exportLen (m : Model) (len : Nat) : Nat := 64 + 8 * bLayers m.bytes + 65616 * (exportList m len).length

/-- One frame record (R234). -/
def frameRecord (s : State) (m : Model) (runs : Tbl (Nat × Nat)) (x : (Nat × Nat) × Nat × Nat) : List Byte :=
  let l := x.1.1
  let e := s.page (pageAt runs x.1 x.2.1)
  let f := frameKey x.1.2 (if e.copy then e.old else e.frame)
  let secs := frameSections (kvFmt m l) (kvShape m l).1 (kvShape m l).2 (layerPpf m l)
  let body := (if kvFmt m l = 2 then zeros 64 else scaleBytes (s.frame f)) ++
    frameBytes s.kv.dram (frameAddr f) x.2.2 secs
  toLe 1 l ++ zeros 1 ++ toLe 2 x.2.2 ++ toLe 4 x.2.1 ++ zeros 4 ++ toLe 4 (crc32c body) ++ body

/-- The header and layer table of an export. -/
def exportHeader (m : Model) (x : Session) : List Byte :=
  let h := toLe 2 1 ++ toLe 2 (bLayers m.bytes) ++ toLe 4 x.length ++ zeros 6 ++ toLe 2 x.epoch ++ zeros 44
  let t := (List.range (bLayers m.bytes)).flatMap (layerEntry m)
  h ++ toLe 4 (crc32c (h ++ t)) ++ t

/-- The stream of an export (R234). -/
def exportStream (s : State) (m : Model) (x : Session) : List Byte :=
  exportHeader m x ++ (exportList m x.length).flatMap (frameRecord s m x.runs)

/-- The code with which a stream is refused, if any (R235): CONTEXT_FULL for its LENGTH, else BAD_KV_STREAM. Where several checks
fail R235 gives no order; the model tests the header and its CRC, then LENGTH, then the table and the records (log 116). -/
def checkStream (m : Model) (maxCtx : Nat) (b : List Byte) : Option Nat :=
  let n := bLayers m.bytes
  let len := le b 4 4
  let want := exportList m len
  let recAt := fun i => slice b (64 + 8 * n + 65616 * i) 65616
  let tableOk := slice b 64 (8 * n) == (List.range n).flatMap (layerEntry m)
  let headOk := le b 0 2 == 1 && le b 2 2 == n && zeroAt b 8 6 && zeroAt b 16 44 &&
    le b 60 4 == crc32c (b.take 60 ++ slice b 64 (8 * n))
  let recOk := fun (i : Nat) (x : (Nat × Nat) × Nat × Nat) =>
    let r := recAt i
    byteAt r 0 == x.1.1 && zeroAt r 1 1 && le r 2 2 == x.2.2 && le r 4 4 == x.2.1 && zeroAt r 8 4 &&
    le r 12 4 == crc32c (r.drop 16)
  if !headOk then some 0x010F
  else if maxCtx < len then some 0x0301
  else if !tableOk || b.length != 64 + 8 * n + 65616 * want.length then some 0x010F
  else if (List.range want.length).all (fun i => (want[i]?.map (recOk i)).getD false) then none
  else some 0x010F

/-- Write one imported frame: its bytes, scales and set bits (R235). -/
def importFrame (s : State) (m : Model) (runs : Tbl (Nat × Nat)) (x : (Nat × Nat) × Nat × Nat) (r : List Byte) :
    State :=
  let e := s.page (pageAt runs x.1 x.2.1)
  let key := frameKey x.1.2 e.frame
  let ks := (List.range 16).map fun h => BitVec.ofNat 16 (le r (16 + 2 * h) 2)
  let vs := (List.range 16).map fun h => BitVec.ofNat 16 (le r (48 + 2 * h) 2)
  let bits := fun (l : List F16) => ((List.range 16).map fun h => if l.getD h 0 = 0 then 0 else 2 ^ h).sum
  let body := (r.drop 80).take (frameUsed m x.1.1)
  let s1 := clearTail (s.onKv fun v => { v with dram := v.dram.writeBytes (frameAddr key) body }) m x.1.1 key
  let s2 := s1.onFrame key fun f => { f with written := true }
  if kvFmt m x.1.1 = 2 then s2
  else s2.onFrame key fun f => { f with ks := ks, vs := vs, kSet := bits ks, vSet := bits vs }

end Sys2Proof.Machine
end

