-- ==== Sys2Proof/Machine/Sessions.lean ====
section
/-!
DEFINITION. The session commands (R237–R271, R394, R409–R412): handles, states, the session result, and what
each command tests and does at its start. Entries are made and run by the tick.
-/
namespace Sys2Proof.Machine

/-- Opcodes whose HANDLE names a session. -/
def opSession (op : Nat) : Bool := (decide (0x21 ≤ op) && decide (op ≤ 0x2A)) || op == 0x42 || op == 0x43

/-- Opcodes whose HANDLE names a model, and an adapter. -/
def opModel (op : Nat) : Bool :=
  (decide (0x10 ≤ op) && decide (op ≤ 0x15)) || op == 0x20 || op == 0x30 || op == 0x33
def opAdapter (op : Nat) : Bool := op == 0x31 || op == 0x32

/-- INDEX of a handle of R237. -/
def handleIndex (h : W32) : Nat := h.toNat % 16777216

/-- The adapter handles that a command names besides its HANDLE (R238, R240). -/
def adapterOperands (i : Instr) : List W32 :=
  match i with
  | .sessionOpen _ _ st de _ => [st, de]
  | .sessionRebind _ r => r.steer.toList ++ r.delta.toList
  | .modelReplace _ _ (some e) => e.pairs.flatMap fun p => [p.1, p.2]
  | .adapterLoad _ _ _ (some h) => [h]
  | _ => []

/-- The model handles that a command names besides its HANDLE: a draft (R238, R261). -/
def modelOperands (i : Instr) : List W32 :=
  match i with
  | .sessionOpen _ _ _ _ (some e) => [e.draft]
  | _ => []

/-- Whether a record names an index of a kind of handle (R238): in HANDLE, or in RESULTS that hold one. `made` are the opcodes,
`inside` the events whose RESULTS begin with a handle of that kind. -/
def recNames (named : Nat → Bool) (made : List Nat) (events inside : List Nat) (index : W32 → Bool) (r : Rec) : Bool :=
  ((named r.opcode || (r.opcode == 0xFF && events.contains r.code)) && index r.handle) ||
  (((made.contains r.opcode && r.cls != 4) || (r.opcode == 0xFF && inside.contains r.code)) && index (BitVec.ofNat 32 (le r.results 0 4)))

/-- Whether any record due or unconsumed satisfies a test (R238). -/
def anyRecord (s : State) (f : Rec → Bool) : Bool :=
  s.spools.any fun e => e.2.ring.any f || e.2.due.any fun d => f d.record

/-- Whether an outstanding command other than the one at hand names an index, in its HANDLE or an operand (R238). -/
def anyCommand (s : State) (c : Cmd) (named : Nat → Bool) (operands : Instr → List W32) (index : W32 → Bool) : Bool :=
  s.spools.any fun e =>
    e.2.out.any fun o =>
      !(e.1 == c.spool && o.seq == c.seq && !o.orphan) &&
      ((operands o.instr).any (fun h => h != noHandle && index h) ||
       (named o.opcode && match outCmd o with
         | some k => index k.handle
         | none => false))

/-- Whether a session index may be taken (R238). -/
def sessIndexFree (s : State) (c : Cmd) (i : Nat) : Bool :=
  let named := fun h => handleIndex h == i
  (s.sess i).st == .closed && !anyCommand s c opSession (fun _ => []) named && !(s.pipe.entries.any fun e => e.sess == i) &&
  !anyRecord s (recNames opSession [0x20, 0x26] [0x0008, 0x0009] [0x000B] named)

/-- The GENERATION of a newly taken index (R238). -/
def nextGen (used : Bool) (gen : Nat) : Nat := if used then (gen + 1) % 256 else 0

/-- The session a command names, if its spool may use it (R239, R337). -/
def findSession (s : State) (c : Cmd) : Option Nat :=
  let i := handleIndex c.handle
  if i < 65536 && (s.sess i).st != .closed && c.handle == sessHandle i (s.sess i).gen && (s.sess i).spool == c.spool
  then some i else none

/-- The handle of an open session. -/
def handleOf (s : State) (i : Nat) : W32 := sessHandle i (s.sess i).gen

/-- PENDING as a field. -/
def pendField (p : Option Nat) : Nat := p.getD 0xFFFFFFFF

/-- The session result (R394). -/
def sessResult (x : Session) (stop tokens : Nat) : List Byte :=
  toLe 4 x.length ++ toLe 4 (pendField x.pend) ++ toLe 1 stop ++ zeros 1 ++ toLe 2 (min tokens 65535)

/-- TOKEN records that an outstanding command has produced. -/
def tokensOf (s : State) (p : Nat) (seq : W32) : Nat :=
  match findOut s p seq with
  | some o => o.tokens
  | none => 0

/-- End the running command of a session with a code and a stop code; the session becomes IDLE, or stays
HELD (R243, R394). -/
def endRun (s : State) (i code stop : Nat) : State :=
  let x := s.sess i
  match x.run with
  | none => s.onSess i fun x => { x with st := if x.st = .held then .held else .idle }
  | some r =>
    let s1 := (s.onSess i fun x => { x with run := none, st := if x.st = .held then .held else .idle }).onSpool r.spool
      fun q => { q with resv := q.resv - r.held }
    finish s1 r.spool r.seq code (sessResult (s1.sess i) stop (tokensOf s r.spool r.seq))

/-! Adapters (R240). Steering adapters are keyed by INDEX, delta adapters by 4,096 + INDEX. -/

/-- The key of an adapter kind and index. -/
def adapterKey (kind i : Nat) : Nat := if kind = 0 then i else 4096 + i

/-- An adapter handle (R240). -/
def adapterHandle (kind i gen : Nat) : W32 := BitVec.ofNat 32 (gen * 16777216 + kind * 65536 + i)

/-- The adapter a handle names for a function: its kind and index (R239, R240, R337). -/
def findAdapter (s : State) (fn : Nat) (h : W32) : Option (Nat × Nat) :=
  let kind := h.toNat / 65536 % 256
  let i := h.toNat % 65536
  let a := s.adapter (adapterKey kind i)
  if ((kind == 0 && decide (i < 4096)) || (kind == 1 && decide (i < 256))) && a.used &&
      (a.resident || a.cmd.isSome) && h == adapterHandle kind i a.gen && (fn == 0 || a.fn == fn)
  then some (kind, i) else none

/-- An adapter's reference count: sessions bound plus entries whose snapshot names it (R281). -/
def boundSessions (s : State) (h : W32) : Nat :=
  s.sessions.countP fun e => e.2.st != .closed && (e.2.steer == some h || e.2.delta == some h)
def refCount (s : State) (h : W32) : Nat :=
  boundSessions s h + s.pipe.entries.countP fun e => e.stamped && (e.steer == some h || e.delta == some h)

/-- The code with which a binding is refused, if it is (R279, R282, R337): an unknown handle is stale. An adapter whose load still
runs is refused with ADAPTER_STATE: the rules name no code for it (the model's choice, log 140). -/
def bindCheck (s : State) (fn kind : Nat) (model : W32) (epoch : Nat) (h : Option W32) : Option Nat :=
  match h with
  | none => none
  | some h =>
    match findAdapter s fn h with
    | none => some 0x0401
    | some (k, i) =>
      let a := s.adapter (adapterKey k i)
      if k != kind || a.model != model || (kind == 1 && a.base != epoch) then some 0x020E
      else if a.retiring || !a.resident then some 0x020D
      else none

/-- The check of a binding that may be the one a session holds already: that one adds no reference, so a retiring adapter does not
refuse it (R282). -/
def bindNew (s : State) (fn kind : Nat) (model : W32) (epoch : Nat) (held h : Option W32) : Option Nat :=
  (bindCheck s fn kind model epoch h).filter fun c => !(h == held && c == 0x020D)

/-- The epoch that a session opened now takes (R241, R314). -/
def openEpoch (m : Model) : Nat :=
  match m.repl with
  | some r => r.newEpoch
  | none => m.epoch

/-- The tick of a command's intake. -/
def intakeTick (s : State) (c : Cmd) : W64 := ((findOut s c.spool c.seq).map OutCmd.fetched).getD s.now

/-- SAMPLE_PARAMS of the basic form: the option defaults, with the free seed of its handle and the tick of intake (R283; log 16).
A DEFAULT_TOP_K above the model's VOCAB is taken as it is: no rule says what follows (log 139). -/
def defaultParams (s : State) (c : Cmd) : SampleParams where
  seed := Config.seed c.handle (intakeTick s c)
  temperature := BitVec.ofNat 16 (opt s oDefaultTemperature)
  topP := BitVec.ofNat 16 (opt s oDefaultTopP)
  repPenalty := BitVec.ofNat 16 (opt s oDefaultRepPenalty)
  window := opt s oDefaultPenaltyWindow
  topK := opt s oDefaultTopK
  rsvd := 0

/-- The first of a list of refusals. -/
def firstCode (l : List (Option Nat)) : Option Nat :=
  match l with
  | [] => none
  | none :: r => firstCode r
  | some c :: _ => some c

/-- Whether token identifiers lie below VOCAB. -/
def tokensOk (m : Model) (l : List Nat) : Bool := l.all fun t => decide (t < bVocab m.bytes)

/-- The draft check of SESSION_OPEN: a placed model of the same vocabulary (R261, R409). -/
def draftCheck (s : State) (m : Model) (h : Option W32) : Option Nat :=
  match h with
  | none => none
  | some h =>
    match findModel s h with
    | none => some 0x0110
    | some d => need (isPlaced (s.model d) && bVocab (s.model d).bytes == bVocab m.bytes) 0x0110

/-- Whether the spool may open one more session (R196, R381). -/
def sessQuotaOk (s : State) (p : Nat) : Bool := decide (spoolSessions s p < sessQuota s p)

/-- Allocate the page-list runs of a session for its model and its draft (R221, R261). -/
def allocSession (s : State) (m : Model) (draft : Option W32) (ctx : Nat) :
    Option (Tbl (Nat × Nat) × Tbl (Nat × Nat) × State) :=
  match allocRuns s m ctx with
  | none => none
  | some (r, s1) =>
    match draft with
    | none => some (r, [], s1)
    | some h =>
      match allocRuns s1 (s1.model (h.toNat % 256)) ctx with
      | none => none
      | some (d, s2) => some (r, d, s2)

/-- SESSION_OPEN; the basic form's DEFAULT_TOP_K is not held against VOCAB (log 139) (R220, R221, R238, R241, R279, R314, R409). -/
def runSessionOpen (c : Cmd) (maxCtx : Nat) (steer delta : W32) (e : Option OpenExt) : State → State :=
  hostCommand (.sessionOpen c maxCtx steer delta e) c 0x20 (paramCheck (.sessionOpen c maxCtx steer delta e))
    fun s =>
      match findModel s c.handle with
      | none => (s, .error 0x0401 [])
      | some mi =>
        let m := s.model mi
        let fn := spoolOwner s c.spool
        let ep := openEpoch m
        let draft := match e with
          | some x => optHandle x.draft
          | none => none
        let stops := match e with
          | some x => x.stops
          | none => bEndTokens m.bytes
        let params := match e with
          | some x => x.params
          | none => defaultParams s c
        let code := firstCode
          [need (m.st == .committed || m.st == .replacing) 0x0209,
           need (decide (1 ≤ maxCtx) && decide (maxCtx ≤ bMaxCtx m.bytes) && tokensOk m stops) 0x0105,
           need (decide (params.topK ≤ bVocab m.bytes) || e.isNone) 0x010B,
           draftCheck s m draft,
           bindCheck s fn 0 c.handle ep (optHandle steer),
           bindCheck s fn 1 c.handle ep (optHandle delta),
           need (sessQuotaOk s c.spool) 0x0609]
        match code with
        | some k => (s, .error k [])
        | none =>
          match leastBelow 65536 (sessIndexFree s c) with
          | none => (s, .error 0x0303 [])
          | some i =>
            match allocSession s m draft maxCtx with
            | none => (s, .error 0x0304 [])
            | some (runs, druns, s1) =>
              let g := nextGen (s.sess i).used (s.sess i).gen
              let cls := match e with
                | some x => x.cls
                | none => opt s oSessionClass
              let s2 := s1.onSess i fun _ =>
                { Session.init with
                  gen := g, used := true, st := .idle, spool := c.spool, model := c.handle, epoch := ep,
                  maxCtx := maxCtx, cls := cls, steer := optHandle steer, delta := optHandle delta,
                  params := params, stops := stops, draft := draft, runs := runs, druns := druns }
              (s2, .done (toLe 4 (sessHandle i g).toNat ++ toLe 2 ep))

def execSessionOpen (c : Cmd) (maxCtx : Nat) (steer delta : W32) (e : Option OpenExt) (s : State) :
    Host.Outcome State Fault Refusal :=
  guarded c.wf s (runSessionOpen c maxCtx steer delta e s)

/-- A refusal of a command whose ERROR carries the session result (R394). -/
def sessError (s : State) (i code : Nat) : State × Reply := (s, .error code (sessResult (s.sess i) 0 0))

/-- A command on a session: the handle, then the states in which it is legal (R239, R245, R366). -/
def onSession (c : Cmd) (legal : SessSt → Bool) (wrong body : Nat → State → State × Reply) (s : State) : State × Reply :=
  match findSession s c with
  | none => (s, .error 0x0401 [])
  | some i => if legal (s.sess i).st then body i s else wrong i s

/-- A session command whose records carry the session result (R394). -/
def sessionCommand (c : Cmd) (legal : SessSt → Bool) (body : Nat → State → State × Reply) : State → State × Reply :=
  onSession c legal (fun i s => sessError s i 0x0208) body

/-- A session command whose ERROR carries 0 (R393). -/
def plainSession (c : Cmd) (legal : SessSt → Bool) (body : Nat → State → State × Reply) : State → State × Reply :=
  onSession c legal (fun _ s => (s, .error 0x0208 [])) body

/-- Frames beyond those it names that a session needs to hold `n` positions, in its main model or draft. -/
def extraFrames (s : State) (m : Model) (runs : Tbl (Nat × Nat)) (n : Nat) : Nat :=
  ((layersHere m).map fun lk => ceilDiv n (layerPpf m lk.1) - (validIdx s runs lk).length).sum

/-- The frame-quota test of R196 and R233 for a command that could reach `n` positions. -/
def frameQuotaOk (s : State) (i n : Nat) (withDraft : Bool) : Bool :=
  let x := s.sess i
  let d := if withDraft then
      match draftOf x with
      | none => 0
      | some k => extraFrames s (s.model k) x.druns n
    else 0
  let q := frameQuota s x.spool
  q == 4294967295 || decide (spoolFrames s x.spool + extraFrames s (s.model (modelOf x)) x.runs n + d ≤ q)

/-- Start a run: the session becomes BUSY (R243). -/
def startRun (s : State) (i : Nat) (r : Run) (pend : Option Nat) : State × Reply :=
  (s.onSess i fun x => { x with st := .busy, run := some r, pend := pend },
   .running (.session i))

/-- A run with nothing set. -/
def Run.blank (c : Cmd) (op : Nat) (kind : RunKind) : Run where
  spool := c.spool
  seq := c.seq
  opcode := op
  kind := kind
  tokens := []
  pos := 0
  total := 0
  sample := false
  left := 0
  chunk := 0
  keep := none
  k := 0
  rejection := false
  list := false
  drafts := []
  probs := []
  emitted := 0
  stop := 0
  held := 0

/-- SESSION_PREFILL (R248, R254). -/
def runSessionPrefill (c : Cmd) (addr count : Nat) (sample dropPending : Bool) : State → State :=
  hostCommand (.sessionPrefill c addr count sample dropPending) c 0x21
    (paramCheck (.sessionPrefill c addr count sample dropPending)) fun s =>
    sessionCommand c (· == .idle)
      (fun i s =>
        let x := s.sess i
        let m := s.model (modelOf x)
        if x.importing then sessError s i 0x0208
        else if x.kvStale then sessError s i 0x020A
        else
          match bufRead s c addr (4 * count) with
          | none => sessError s i 0x0501
          | some (b, s) =>
            let toks := words b count
            let all := (if dropPending then [] else x.pend.toList) ++ toks
            if !tokensOk m toks then sessError s i 0x0105
            else if x.maxCtx < x.length + all.length then sessError s i 0x0301
            else if !frameQuotaOk s i (x.length + all.length) false then sessError s i 0x060A
            else
              startRun s i
                { Run.blank c 0x21 .prefill with
                  tokens := all, pos := x.length, total := all.length, sample := sample,
                  chunk := opt s oPrefillChunk } all.head?)
      s

def execSessionPrefill (c : Cmd) (addr count : Nat) (sample dropPending : Bool) (s : State) :
    Host.Outcome State Fault Refusal :=
  guarded c.wf s (runSessionPrefill c addr count sample dropPending s)

/-- SESSION_STEP (R253, R254); without PENDING it is refused with SESSION_STATE (log 27). -/
def runSessionStep (c : Cmd) (count : Nat) : State → State :=
  hostCommand (.sessionStep c count) c 0x22 (paramCheck (.sessionStep c count)) fun s =>
    sessionCommand c (· == .idle)
      (fun i s =>
        let x := s.sess i
        match x.importing, x.kvStale, x.pend with
        | true, _, _ => sessError s i 0x0208
        | _, true, _ => sessError s i 0x020A
        | _, _, none => sessError s i 0x0208
        | _, _, some t =>
          if x.maxCtx ≤ x.length then sessError s i 0x0301
          else if !frameQuotaOk s i (min x.maxCtx (x.length + count)) false then sessError s i 0x060A
          else
            startRun s i
              { Run.blank c 0x22 .step with
                tokens := [t], pos := x.length, total := count, sample := true, left := count }
              x.pend)
      s

def execSessionStep (c : Cmd) (count : Nat) (s : State) : Host.Outcome State Fault Refusal :=
  guarded c.wf s (runSessionStep c count s)

/-- Empty a session as FREE does (R271). -/
def freeSession (s : State) (i : Nat) : State :=
  (truncSession s i 0).onSess i fun x => { x with pend := none, history := [] }

/-- Mask a session's lane: no item admitted, no entry sealed, except entries whose seal decision stands
(R267, R268); the other modules of its model get a control frame (R267, R478). -/
def maskLane (s : State) (i : Nat) : State :=
  let m := s.model (modelOf (s.sess i))
  let s1 := s.onPipe fun q =>
    { q with entries := q.entries.map fun e => if e.sess = i && !e.sealing then { e with masked := true } else e }
  if m.stages.any StageRec.remote then
    tellModules s1 0 (.cancelMask (handleOf s i))
  else s1

/-- A session leaves the park queue. -/
def unpark (s : State) (i : Nat) : State :=
  s.onKv fun k => { k with parked := k.parked.filter fun p => !(p.1 == i) }

/-- SESSION_CANCEL (R267–R271): an IDLE session answers at once; otherwise the lane is masked and the edge
carries out the rest. -/
def runSessionCancel (c : Cmd) (free : Bool) : State → State :=
  hostCommand (.sessionCancel c free) c 0x23 (paramCheck (.sessionCancel c free)) fun s =>
    sessionCommand c (· != .held)
      (fun i s =>
        if (s.sess i).importing && free then sessError s i 0x0208
        else if (s.sess i).st = .idle then
          let s1 := if free then freeSession s i else s
          (s1, .done (sessResult (s1.sess i) 0 0))
        else
          (((maskLane s i).onTick fun t => { t with acts := t.acts ++ [.cancel i c.spool c.seq free] }),
           .running (.session i)))
      s

def execSessionCancel (c : Cmd) (free : Bool) (s : State) : Host.Outcome State Fault Refusal :=
  guarded c.wf s (runSessionCancel c free s)

/-- Release a session: truncate to 0, return its runs, close it (R246). -/
def releaseSession (s : State) (i : Nat) : State :=
  let s1 := truncSession s i 0
  let x := s1.sess i
  let s2 := freeRunsOf s1 (s1.model (modelOf x)) x.runs
  let s3 := match draftOf x with
    | none => s2
    | some d => freeRunsOf s2 (s2.model d) x.druns
  s3.onSess i fun x => { Session.init with gen := x.gen, used := true }

/-- SESSION_RELEASE (R246). -/
def runSessionRelease (c : Cmd) : State → State :=
  hostCommand (.sessionRelease c) c 0x24 (paramCheck (.sessionRelease c)) fun s =>
    plainSession c (· == .idle) (fun i s => (releaseSession s i, .done [])) s

def execSessionRelease (c : Cmd) (s : State) : Host.Outcome State Fault Refusal := guarded c.wf s (runSessionRelease c s)

/-- SESSION_REBIND (R279, R412). -/
def runSessionRebind (c : Cmd) (r : Rebind) : State → State :=
  hostCommand (.sessionRebind c r) c 0x25 (paramCheck (.sessionRebind c r)) fun s =>
    plainSession c (· != .held)
      (fun i s =>
        let x := s.sess i
        let m := s.model (modelOf x)
        let fn := spoolOwner s c.spool
        let code := firstCode
          [need (tokensOk m (r.stops.getD [])) 0x0105,
           need ((r.params.map fun p => decide (p.topK ≤ bVocab m.bytes)).getD true) 0x010B,
           bindNew s fn 0 x.model x.epoch x.steer (r.steer.bind optHandle),
           bindNew s fn 1 x.model x.epoch x.delta (r.delta.bind optHandle)]
        match code with
        | some k => (s, .error k [])
        | none =>
          (s.onSess i fun x =>
            { x with
              steer := match r.steer with
                | some h => optHandle h
                | none => x.steer
              delta := match r.delta with
                | some h => optHandle h
                | none => x.delta
              cls := r.cls.getD x.cls, params := r.params.getD x.params, stops := r.stops.getD x.stops },
           .done []))
      s

def execSessionRebind (c : Cmd) (r : Rebind) (s : State) : Host.Outcome State Fault Refusal :=
  guarded c.wf s (runSessionRebind c r s)

/-- SESSION_FORK (R230, R247, R282, R317). -/
def runSessionFork (c : Cmd) (e : Option (SampleParams × Nat)) : State → State :=
  hostCommand (.sessionFork c e) c 0x26 (paramCheck (.sessionFork c e)) fun s =>
    plainSession c (· == .idle)
      (fun i s =>
        let x := s.sess i
        let m := s.model (modelOf x)
        let retiring := fun (h : Option W32) => match h with
          | none => false
          | some h =>
            match findAdapter s 0 h with
            | none => false
            | some (k, a) => (s.adapter (adapterKey k a)).retiring
        let code := firstCode
          [need (!x.importing) 0x0208, need (!x.kvStale) 0x020A,
           need ((e.map fun p => decide (p.1.topK ≤ bVocab m.bytes)).getD true) 0x010B,
           need (!retiring x.steer && !retiring x.delta) 0x020D,
           need (sessQuotaOk s c.spool) 0x0609]
        match code with
        | some k => (s, .error k [])
        | none =>
          match leastBelow 65536 (sessIndexFree s c) with
          | none => (s, .error 0x0303 [])
          | some j =>
            match allocSession s m x.draft x.maxCtx with
            | none => (s, .error 0x0304 [])
            | some (runs, druns, s1) =>
              let g := nextGen (s.sess j).used (s.sess j).gen
              let s2 := s1.onSess j fun _ =>
                { x with
                  gen := g, used := true, runs := runs, druns := druns, run := none,
                  params := (e.map Prod.fst).getD x.params, cls := (e.map Prod.snd).getD x.cls }
              let s3 := sharePages s2 m x.runs runs x.length
              let s4 := match draftOf x with
                | none => s3
                | some d => sharePages s3 (s3.model d) x.druns druns x.draftLen
              (s4, .done (toLe 4 (sessHandle j g).toNat)))
      s

def execSessionFork (c : Cmd) (e : Option (SampleParams × Nat)) (s : State) : Host.Outcome State Fault Refusal :=
  guarded c.wf s (runSessionFork c e s)

/-- SESSION_TRUNCATE (R229, R256). -/
def runSessionTruncate (c : Cmd) (n : Nat) (p : W32) : State → State :=
  hostCommand (.sessionTruncate c n p) c 0x27 (paramCheck (.sessionTruncate c n p)) fun s =>
    sessionCommand c (· == .idle)
      (fun i s =>
        let x := s.sess i
        let m := s.model (modelOf x)
        if x.importing then sessError s i 0x0208
        else if x.length < n || !tokensOk m ((optHandle p).map BitVec.toNat).toList then sessError s i 0x0105
        else
          let s1 := (truncSession s i n).onSess i fun x => { x with pend := (optHandle p).map BitVec.toNat }
          (s1, .done (sessResult (s1.sess i) 0 0)))
      s

def execSessionTruncate (c : Cmd) (n : Nat) (p : W32) (s : State) : Host.Outcome State Fault Refusal :=
  guarded c.wf s (runSessionTruncate c n p s)

/-- SESSION_RECOMPUTE (R257, R317): KV_STALE stands until it completes. -/
def runSessionRecompute (c : Cmd) (addr first count : Nat) : State → State :=
  hostCommand (.sessionRecompute c addr first count) c 0x28 (paramCheck (.sessionRecompute c addr first count))
    fun s =>
      sessionCommand c (· == .idle)
        (fun i s =>
          let x := s.sess i
          let m := s.model (modelOf x)
          if x.importing then sessError s i 0x0208
          else if x.length < first || count != x.length - first then sessError s i 0x0105
          else
            match bufRead s c addr (4 * count) with
            | none => sessError s i 0x0501
            | some (b, s) =>
              let toks := words b count
              if !tokensOk m toks then sessError s i 0x0105
              else
                let s1 := (truncSession s i first).onSess i fun y => { y with kvStale := x.kvStale }
                if count = 0 then
                  let s2 := s1.onSess i fun y => { y with kvStale := y.kvStale && first != 0 }
                  (s2, .done (sessResult (s2.sess i) 0 0))
                else
                  startRun s1 i
                    { Run.blank c 0x28 .recompute with
                      tokens := toks, pos := first, total := count, chunk := opt s oPrefillChunk, keep := x.pend }
                    x.pend)
        s

def execSessionRecompute (c : Cmd) (addr first count : Nat) (s : State) : Host.Outcome State Fault Refusal :=
  guarded c.wf s (runSessionRecompute c addr first count s)

/-- STATE as SESSION_QUERY gives it (R411). -/
def sessStateCode (x : Session) : Nat :=
  match x.st with
  | .busy => 1
  | .starved => 2
  | .held => 3
  | _ => 0

/-- FLAGS of the query record (R411). -/
def sessFlags (x : Session) : Nat := b2n x.kvStale + 2 * b2n x.mixed + 4 * b2n x.importing

/-- The query record (R411). -/
def queryRecord (s : State) (i : Nat) : List Byte :=
  let x := s.sess i
  let h := fun (a : Option W32) => (a.getD noHandle).toNat
  toLe 4 (handleOf s i).toNat ++ toLe 4 x.model.toNat ++ toLe 1 (sessStateCode x) ++ toLe 1 x.cls ++
  toLe 1 (sessFlags x) ++ toLe 1 x.stops.length ++ toLe 2 x.epoch ++ toLe 2 x.lastArith.toNat ++
  toLe 4 x.length ++ toLe 4 (pendField x.pend) ++ toLe 4 x.maxCtx ++ toLe 4 (h x.steer) ++ toLe 4 (h x.delta) ++
  toLe 4 (if x.draft.isSome then x.draftLen else 0xFFFFFFFF) ++ toLe 4 (sessFrames s x) ++
  toLe 2 x.lastDwell ++ toLe 2 x.lastSlip ++ toLe 8 x.params.seed.toNat ++ toLe 8 x.lastTick.toNat

/-- SESSION_QUERY (R409, R411): ADDR 0 writes no record. -/
def runSessionQuery (c : Cmd) (addr : Nat) : State → State :=
  hostCommand (.sessionQuery c addr) c 0x29 (paramCheck (.sessionQuery c addr)) fun s =>
    plainSession c (fun _ => true)
      (fun i s =>
        let x := s.sess i
        let res := toLe 1 (sessStateCode x) ++ toLe 1 (sessFlags x) ++ toLe 2 x.epoch ++ toLe 4 x.length ++
          toLe 4 (pendField x.pend)
        if addr = 0 then (s, .done res) else outputTo s c addr (queryRecord s i) res)
      s

def execSessionQuery (c : Cmd) (addr : Nat) (s : State) : Host.Outcome State Fault Refusal :=
  guarded c.wf s (runSessionQuery c addr s)

/-- Whether an FP32 draft probability lies in (0, 1] (R262). -/
def probOk (q : F32) : Bool := flt 0 q && fle q 0x3F800000#32

/-- SPEC_VERIFY (R254, R262). -/
def runSpecVerify (c : Cmd) (k : Nat) (rejection list : Bool) (addr : Nat) : State → State :=
  hostCommand (.specVerify c k rejection list addr) c 0x2A (paramCheck (.specVerify c k rejection list addr))
    fun s =>
      sessionCommand c (· == .idle)
        (fun i s =>
          let x := s.sess i
          let m := s.model (modelOf x)
          let b := if list then bufRead s c addr ((if rejection then 8 else 4) * k) else some ([], s)
          match x.importing, x.kvStale, x.pend, b with
          | true, _, _, _ => sessError s i 0x0208
          | _, true, _, _ => sessError s i 0x020A
          | _, _, none, _ => sessError s i 0x0208
          | _, _, _, none => sessError s i 0x0501
          | _, _, some t, some (b, s) =>
            let ds := if list then words b k else []
            let qs := if list && rejection then (words (b.drop (4 * k)) k).map (BitVec.ofNat 32) else []
            if !list && x.draft.isNone then sessError s i 0x0110
            else if !tokensOk m ds then sessError s i 0x0105
            else if !qs.all probOk then sessError s i 0x0111
            else if x.maxCtx < x.length + k + 1 then sessError s i 0x0301
            else if !frameQuotaOk s i (x.length + k + 1) (!list) then sessError s i 0x060A
            else
              startRun s i
                { Run.blank c 0x2A .verify with
                  tokens := t :: ds, pos := x.length, total := k + 1, sample := true, k := k,
                  rejection := rejection, list := list, drafts := ds, probs := qs.map fun q => [q] } x.pend)
        s

def execSpecVerify (c : Cmd) (k : Nat) (rejection list : Bool) (addr : Nat) (s : State) :
    Host.Outcome State Fault Refusal :=
  guarded c.wf s (runSpecVerify c k rejection list addr s)

/-! Frames and migration (R413–R416). -/

/-- FRAME_QUOTA (R382, R413). -/
def runFrameQuota (c : Cmd) (q f : Nat) : State → State :=
  hostCommand (.frameQuota c q f) c 0x40 (paramCheck (.frameQuota c q f)) fun s =>
    match spoolNumber c.handle with
    | none => (s, .error 0x0105 [])
    | some t =>
      if t = 0 then (s, .error 0x0105 [])
      else (s.onSpool t fun sp => { sp with sessQuota := some q, frameQuota := some f }, .done [])

def execFrameQuota (c : Cmd) (q f : Nat) (s : State) : Host.Outcome State Fault Refusal :=
  guarded c.wf s (runFrameQuota c q f s)

/-- Bytes of scores reserved on a keel, in the buffer or in the spill region (R213, R214). -/
def scoreBytes (s : State) (k : Nat) (spill : Bool) : Nat :=
  ((s.kv.scores.filter fun r => r.keel == k && r.spill == spill).map ScoreResv.bytes).sum

/-- Frames of a keel that have been reserved and not yet written, those of pending copies among them (R414). -/
def unwrittenReserved (s : State) (k : Nat) : Nat :=
  s.kv.frames.countP fun e => e.1 / 2097152 == k && decide (0 < e.2.ref) && !e.2.written

/-- The keel record of FRAME_QUERY (R414). -/
def keelRecord (s : State) (k : Nat) : List Byte :=
  let runs := freeRuns s k
  toLe 4 (freeFrames s k) ++ toLe 4 (unwrittenReserved s k) ++
  toLe 4 (s.kv.frames.countP fun e => e.1 / 2097152 == k && decide (1 < e.2.ref)) ++
  toLe 4 (s.kv.parked.countP fun p => p.2 == k) ++ toLe 4 (scoreBytes s k false) ++ toLe 8 (scoreBytes s k true) ++
  toLe 4 ((runs.map fun r => runLen r.2).sum) ++
  toLe 1 (if runs.isEmpty then 0xFF else (runs.map Prod.snd).foldl max 0) ++ zeros 31

/-- FRAME_QUERY (R233, R413, R414): ADDR 0 writes no report. -/
def runFrameQuery (c : Cmd) (addr : Nat) : State → State :=
  hostCommand (.frameQuery c addr) c 0x41 (paramCheck (.frameQuery c addr)) fun s =>
    match spoolNumber c.handle with
    | none => (s, .error 0x0105 [])
    | some t =>
      let fn := spoolOwner s c.spool
      if fn != 0 && spoolOwner s t != fn then (s, .error 0x0402 [])
      else
        let res := toLe 4 (spoolFrames s t) ++ toLe 4 (spoolSessions s t) ++ toLe 4 s.kv.parked.length
        if addr = 0 then (s, .done res) else outputTo s c addr ((List.range 8).flatMap (keelRecord s)) res

def execFrameQuery (c : Cmd) (addr : Nat) (s : State) : Host.Outcome State Fault Refusal :=
  guarded c.wf s (runFrameQuery c addr s)

/-- The frame keys that an export reads. -/
def exportFrames (s : State) (m : Model) (x : Session) : List Nat :=
  (exportList m x.length).map fun r =>
    let e := s.page (pageAt x.runs r.1 r.2.1)
    frameKey r.1.2 (if e.copy then e.old else e.frame)

/-- KV_EXPORT (R234, R415): each frame exported is held by one more reference until its record is written. -/
def runKvExport (c : Cmd) (addr limit : Nat) : State → State :=
  hostCommand (.kvExport c addr limit) c 0x42 (paramCheck (.kvExport c addr limit)) fun s =>
    plainSession c (· != .held)
      (fun i s =>
        let x := s.sess i
        let m := s.model (modelOf x)
        let n := exportLen m x.length
        if limit < n then (s, .error 0x0114 (toLe 8 n))
        else
          let fs := exportFrames s m x
          (fs.foldl addRef s, .accepted [] (.kvExport fs [(addr, exportStream s m x)] (toLe 8 n))))
      s

def execKvExport (c : Cmd) (addr limit : Nat) (s : State) : Host.Outcome State Fault Refusal :=
  guarded c.wf s (runKvExport c addr limit s)

/-- KV_IMPORT (R235, R416): it starts only on an IDLE session of LENGTH 0. -/
def runKvImport (c : Cmd) (addr length : Nat) (p : W32) : State → State :=
  hostCommand (.kvImport c addr length p) c 0x43 (paramCheck (.kvImport c addr length p)) fun s =>
    sessionCommand c (· == .idle)
      (fun i s =>
        let x := s.sess i
        if x.length != 0 || x.importing then sessError s i 0x0208
        else if !tokensOk (s.model (modelOf x)) ((optHandle p).map BitVec.toNat).toList then sessError s i 0x0105
        else
          match bufRead s c addr length with
          | none => (s, .acceptedEnd [] 0x0501 (sessResult x 0 0))
          | some (b, s) =>
            (s.onSess i fun y => { y with importing := true }, .accepted [] (.kvImport i (b.take length) p)))
      s

def execKvImport (c : Cmd) (addr length : Nat) (p : W32) (s : State) : Host.Outcome State Fault Refusal :=
  guarded c.wf s (runKvImport c addr length p s)

end Sys2Proof.Machine
end

