-- ==== Sys2Proof/Machine/Adapters.lean ====
section
/-!
DEFINITION. Adapters and the steering bank (R240, R272–R282, R408, R413), and the room of the general regions.
-/
namespace Sys2Proof.Machine

/-! The general region of a keel (R21, R214, R216, R220, R298, R435, R448, R470). -/

/-- Bytes of a section with the parity of its tile records (R298). -/
def sectionRoom (b : List Byte) (e : DirEntry) : Nat :=
  if e.kind = 1 then e.len else e.len + sTiles (slice b e.off 64) * 33792

/-- Bytes that a staged bundle takes on a keel, without the units in `gone`, whose master copies are freed. -/
def stagedLess (gone : List Nat) (b : List Byte) (keels : List Nat) (k : Nat) : Nat :=
  ((List.range (bSections b)).map fun i =>
    if keels[i]? = some k && !gone.contains (sectUnit b i) then sectionRoom b (dirEntry b i) else 0).sum

/-- Bytes that a staged bundle takes on a keel. -/
def stagedRoom (b : List Byte) (keels : List Nat) (k : Nat) : Nat := stagedLess [] b keels k

/-- Units whose old master copy is freed: those that have switched (R320). -/
def switchedUnits (m : Model) : List Nat :=
  match m.repl with
  | none => []
  | some r => (r.units.filter fun u => u.2.switched).map Prod.fst

/-- Sections of a delta adapter image on a keel: descriptor layer, matrix, rows, count, offset (R275). -/
structure DeltaSec where
  layer : Nat
  matrix : Nat
  rows : Nat
  count : Nat
  off : Nat
  rsvdOk : Bool
  deriving DecidableEq, Repr

/-- Descriptor `i` of a delta image. -/
def deltaSec (b : List Byte) (i : Nat) : DeltaSec :=
  let d := slice b (64 + 32 * i) 32
  { layer := byteAt d 0, matrix := byteAt d 1, rows := le d 4 4, count := le d 8 4, off := le d 12 8,
    rsvdOk := zeroAt d 2 2 && zeroAt d 20 12 }

/-- The sections of a delta image. -/
def deltaSecs (b : List Byte) : List DeltaSec := (List.range (le b 10 2)).map (deltaSec b)

/-- Bytes of a delta section. -/
def deltaSecLen (d : DeltaSec) : Nat := 12 * d.rows + 4 * d.count

/-- Bytes an adapter takes on a keel. -/
def adapterRoom (m : Model) (b : List Byte) (k : Nat) : Nat :=
  if byteAt b 2 = 0 then 516 * (layersHere m).countP fun lk => lk.2 == k
  else ((deltaSecs b).map fun d =>
    if (layerStage m d.layer).map StageRec.keel = some k then deltaSecLen d else 0).sum

/-- Bytes the module's fixed uses take of a general region: frame table, page-list pool, score spill,
captures, exposure logs, and the HDM slice. -/
def fixedRoom (s : State) : Nat :=
  0x10000000 + 0x4000000 + 0x100000000 + 0x400000 + 0x1000000 + opt s oHdmSize * 0x40000000

/-- Bytes in use on a keel. -/
def regionUsed (s : State) (k : Nat) : Nat :=
  fixedRoom s +
  (s.models.map fun e =>
    stagedLess (switchedUnits e.2) e.2.bytes e.2.keels k +
    (match e.2.pendB with
     | some (b, ks) => stagedRoom b ks k
     | none => 0) +
    (if isPlaced e.2 && (layersHere e.2).any (fun lk => lk.2 == k) then 8192 * bHidden e.2.bytes else 0)).sum +
  (s.adapters.map fun e =>
    if e.2.used && (e.2.resident || e.2.cmd.isSome) then adapterRoom (s.model (e.2.model.toNat % 256)) e.2.bytes k
    else 0).sum

/-- Whether every keel can take some more bytes. -/
def regionFits (s : State) (more : Nat → Nat) : Bool :=
  (List.range 8).all fun k => more k == 0 || decide (regionUsed s k + more k ≤ 0x1000000000)

/-! Image checks (R272, R274–R276). -/

/-- A row table's entries and non-zeros of a section, checked (R276): N values, ordering, bounds, deltas. -/
def deltaRowsOk (b : List Byte) (d : DeltaSec) (md : MatDesc) : Bool :=
  let row := fun i => slice b (d.off + 12 * i) 12
  let nz := fun i => le b (d.off + 12 * d.rows + 4 * i) 4
  let ns := (List.range d.rows).map fun i => le (row i) 4 4
  let starts := (List.range d.rows).map fun i => (ns.take i).sum
  ns.sum == d.count &&
  (List.range d.rows).all (fun i =>
    decide (le (row i) 0 4 < md.inW) && decide (1 ≤ le (row i) 4 4) && zeroAt (row i) 10 2 &&
    (i == 0 || decide (le (row (i - 1)) 0 4 < le (row i) 0 4))) &&
  (List.range d.count).all (fun j =>
    decide (nz j % 16777216 < md.outW) && nz j / 16777216 != 128 &&
    (starts.contains j || decide (nz (j - 1) % 16777216 < nz j % 16777216)))

/-- A delta image that R276 accepts. -/
def deltaOk (m : Model) (b : List Byte) : Bool :=
  let secs := deltaSecs b
  le b 0 2 == 1 && zeroAt b 3 1 && le b 4 4 == bModel m.bytes && zeroAt b 16 44 &&
  decide (1 ≤ le b 12 4) && decide (le b 12 4 ≤ 4194304) && (secs.map DeltaSec.count).sum == le b 12 4 &&
  le b 60 4 == crc32c (overlay b 60 (zeros 4)) &&
  secs.all (fun d =>
    d.rsvdOk && decide (d.layer < bLayers m.bytes) && decide (d.matrix < 7) &&
    decide (d.off + deltaSecLen d ≤ b.length) &&
    deltaRowsOk b d (matDesc (unitSection m.bytes d.layer) d.matrix))

/-- A steering image that R272 and R274 accept. -/
def steerOk (m : Model) (b : List Byte) : Bool :=
  let n := bLayers m.bytes
  le b 0 2 == 1 && zeroAt b 3 1 && le b 4 4 == bModel m.bytes && le b 8 2 == n && zeroAt b 10 18 &&
  b.length == 32 + 516 * n && le b 28 4 == crc32c (b.take 28 ++ b.drop 32) && bHidden m.bytes % 256 == 0 &&
  (List.range n).all fun l => decide (le b (32 + 516 * l + 514) 2 < 4096)

/-- Steering-bank vectors that a steering image names (R273). -/
def steerVectors (b : List Byte) : List Nat := (List.range (le b 8 2)).map fun l => le b (32 + 516 * l + 514) 2 % 4096

/-- Whether an adapter index may be taken (R238, R240). -/
def adapterIndexFree (s : State) (c : Cmd) (kind i : Nat) : Bool :=
  let a := s.adapter (adapterKey kind i)
  let named := fun (h : W32) => h.toNat % 16777216 == kind * 65536 + i
  !(a.used && (a.resident || a.cmd.isSome)) && !anyCommand s c opAdapter adapterOperands named &&
  !(s.pipe.entries.any fun e => (e.steer.map named).getD false || (e.delta.map named).getD false) &&
  !anyRecord s (recNames opAdapter [0x30] [] [] named)

/-- A replacement of a model that is before its cut-over (R408, R413). -/
def replBefore (m : Model) : Option Repl :=
  match m.repl with
  | some r => if r.cut then none else some r
  | none => none

/-- The pair that REPLACES would add, refused as R408 states; `epoch` is the new adapter's BASE_EPOCH. A handle that names no
adapter the function may name is stale (R240, R337). -/
def replacesCheck (s : State) (fn : Nat) (m : Model) (mh : W32) (kind epoch : Nat) (old : Option W32) : Option Nat :=
  match old with
  | none => none
  | some h =>
    match findAdapter s fn h, replBefore m with
    | none, _ => some 0x0401
    | _, none => some 0x0209
    | some (k, i), some r =>
      let a := s.adapter (adapterKey k i)
      if kind != 1 || epoch != r.newEpoch || r.pairs.any (fun p => p.1 == h) then some 0x020E
      else if 256 ≤ r.pairs.length then some 0x0306
      else need (k == 1 && a.model == mh && a.base == m.epoch) 0x020E

/-- ADAPTER_LOAD: the tests at start; the image is checked when it has arrived (R240, R276, R413). -/
def runAdapterLoad (c : Cmd) (addr length : Nat) (replaces : Option W32) : State → State :=
  hostCommand (.adapterLoad c addr length replaces) c 0x30 (paramCheck (.adapterLoad c addr length replaces))
    fun s =>
      match findModel s c.handle with
      | none => (s, .error 0x0401 [])
      | some mi =>
        let m := s.model mi
        if m.st != .committed && m.st != .replacing then (s, .error 0x0209 [])
        else
          match bufRead s c addr length with
          | none => (s, .error 0x0501 [])
          | some (b0, s) =>
            let b := b0.take length
            let kind := byteAt b 2
            let base := if kind = 0 then 0 else le b 8 2
            if 1 < kind || b.length < 32 then (s, .error 0x010C [])
            else
              match replacesCheck s (spoolOwner s c.spool) m c.handle kind base replaces with
              | some k => (s, .error k [])
              | none =>
                match leastBelow (if kind = 0 then 4096 else 256) (adapterIndexFree s c kind) with
                | none => (s, .error 0x0306 [])
                | some i =>
                  if !regionFits s (adapterRoom m b) then (s, .error 0x0307 [])
                  else
                    let key := adapterKey kind i
                    let g := nextGen (s.adapter key).used (s.adapter key).gen
                    let s1 := s.onAdapter key fun _ =>
                      { Adapter.init with
                        gen := g, used := true, fn := spoolOwner s c.spool, model := c.handle, base := base,
                        bytes := b, cmd := some (c.spool, c.seq) }
                    (s1, .accepted (toLe 4 (adapterHandle kind i g).toNat) (.adapterLoad kind i b))

def execAdapterLoad (c : Cmd) (addr length : Nat) (replaces : Option W32) (s : State) :
    Host.Outcome State Fault Refusal :=
  guarded c.wf s (runAdapterLoad c addr length replaces s)

/-- The completion of ADAPTER_LOAD once its image has arrived (R276, R408, R413, R314). -/
def adapterArrived (s : State) (p : Nat) (seq : W32) (kind i : Nat) (replaces : Option W32) (ok : Bool) : State :=
  let key := adapterKey kind i
  let a := s.adapter key
  let mi := a.model.toNat % 256
  let m := s.model mi
  let h := adapterHandle kind i a.gen
  let drop := s.onAdapter key fun a => { Adapter.init with gen := a.gen, used := true }
  let epochOk := kind == 0 || a.base == m.epoch || (m.repl.map fun r => r.newEpoch == a.base).getD false
  if !ok then finish drop p seq 0x0501 (toLe 4 h.toNat)
  else if !epochOk || !(if kind = 0 then steerOk m a.bytes else deltaOk m a.bytes) then
    finish drop p seq 0x010C (toLe 4 h.toNat)
  else
    match replacesCheck s a.fn m a.model kind a.base replaces with
    | some k => finish drop p seq k (toLe 4 h.toNat)
    | none =>
      let s1 := s.onAdapter key fun a => { a with resident := true, cmd := none }
      let s2 := match replaces with
        | none => s1
        | some o => s1.onModel mi fun m =>
            { m with repl := m.repl.map fun r => { r with pairs := r.pairs ++ [(o, h)] } }
      finish s2 p seq 0 (toLe 4 h.toNat)

/-- ADAPTER_RETIRE: ACCEPTED, and retiring until nothing refers to it (R282, R413). One whose ADAPTER_LOAD has not completed is refused
with ADAPTER_STATE: the rules give no answer for it (the model's choice, log 142). -/
def runAdapterRetire (c : Cmd) : State → State :=
  hostCommand (.adapterRetire c) c 0x31 (paramCheck (.adapterRetire c)) fun s =>
    match findAdapter s (spoolOwner s c.spool) c.handle with
    | none => (s, .error 0x0401 [])
    | some (k, i) =>
      let a := s.adapter (adapterKey k i)
      if a.retiring || !a.resident then (s, .error 0x020D [])
      else
        (s.onAdapter (adapterKey k i) fun a => { a with retiring := true, cmd := some (c.spool, c.seq) },
         .accepted [] (.adapterRetire k i))

def execAdapterRetire (c : Cmd) (s : State) : Host.Outcome State Fault Refusal := guarded c.wf s (runAdapterRetire c s)

/-- Whether a retiring adapter waits only for an edge: nothing refers to it (R282). -/
def freeable (s : State) (kind i : Nat) : Bool :=
  let a := s.adapter (adapterKey kind i)
  a.retiring && refCount s (adapterHandle kind i a.gen) == 0

/-- ADAPTER_FREE: the count of a retiring adapter has reached 0, so it is freed at the next edge (R282). -/
def adapterFree (kind i : Nat) (s : State) : State :=
  if freeable s kind i && !s.tick.acts.contains (.freeAdapter kind i) then atEdge s [.freeAdapter kind i] else s

/-- Every adapter that the coming edge frees (R282). -/
def freeAdapters (s : State) : State :=
  s.adapters.foldl (fun s e => if e.1 < 4096 then adapterFree 0 e.1 s else adapterFree 1 (e.1 - 4096) s) s

/-- The edge frees the adapter, and its command ends (R281, R282). -/
def freeAdapter (kind i : Nat) (s : State) : State :=
  let key := adapterKey kind i
  let a := s.adapter key
  if freeable s kind i then
    let s1 := s.onAdapter key fun a => { Adapter.init with gen := a.gen, used := true }
    match a.cmd with
    | some (p, q) => finish s1 p q 0 []
    | none => s1
  else s

def execAdapterFree (kind i : Nat) (s : State) : Host.Outcome State Fault Refusal :=
  guarded (Instr.wf (.adapterFree kind i)) s (adapterFree kind i s)

/-- ADAPTER_QUERY (R281, R413). -/
def runAdapterQuery (c : Cmd) : State → State :=
  hostCommand (.adapterQuery c) c 0x32 (paramCheck (.adapterQuery c)) fun s =>
    match findAdapter s (spoolOwner s c.spool) c.handle with
    | none => (s, .error 0x0401 [])
    | some (k, i) =>
      let a := s.adapter (adapterKey k i)
      (s, .done (toLe 1 (b2n a.retiring) ++ toLe 1 k ++ toLe 2 a.base ++ toLe 4 (refCount s c.handle) ++
        toLe 4 (boundSessions s c.handle)))

def execAdapterQuery (c : Cmd) (s : State) : Host.Outcome State Fault Refusal := guarded c.wf s (runAdapterQuery c s)

/-- Whether a vector of a model's bank is named by a resident steering adapter (R273). -/
def vectorInUse (s : State) (mh : W32) (first count : Nat) : Bool :=
  s.adapters.any fun e =>
    decide (e.1 < 4096) && e.2.resident && e.2.model == mh &&
    (steerVectors e.2.bytes).any fun v => decide (first ≤ v) && decide (v < first + count)

/-- Check 6 of R363 on the extent of STEER_BANK_LOAD's buffer, COUNT vectors of the model that HANDLE names (R392). -/
def bankExtent (s : State) (i : Instr) : Option Nat :=
  match i with
  | .steerBankLoad c a _ n =>
    (findModel s c.handle).bind fun mi => need (addrOk 64 a (2 * bHidden (s.model mi).bytes * n)) 0x0105
  | _ => none

/-- STEER_BANK_LOAD (R273, R413). -/
def runSteerBankLoad (c : Cmd) (addr first count : Nat) (s : State) : State :=
  hostCommand (.steerBankLoad c addr first count) c 0x33
    (paramCheck (.steerBankLoad c addr first count) <|> bankExtent s (.steerBankLoad c addr first count)) (fun s =>
    match findModel s c.handle with
    | none => (s, .error 0x0401 [])
    | some mi =>
      let m := s.model mi
      if m.st == .staging then (s, .error 0x0209 [])
      else if vectorInUse s c.handle first count then (s, .error 0x020D [])
      else
        match bufRead s c addr (2 * bHidden m.bytes * count) with
        | none => (s, .acceptedEnd [] 0x0501 [])
        | some (b, s) => (s, .accepted [] (.bankLoad mi first (b.take (2 * bHidden m.bytes * count))))) s

def execSteerBankLoad (c : Cmd) (addr first count : Nat) (s : State) : Host.Outcome State Fault Refusal :=
  guarded c.wf s (runSteerBankLoad c addr first count s)

/-- The vectors of a STEER_BANK_LOAD enter the bank. -/
def bankArrived (s : State) (p : Nat) (seq : W32) (mi first : Nat) (b : List Byte) (ok : Bool) : State :=
  if !ok then finish s p seq 0x0501 []
  else
    let w := 2 * bHidden (s.model mi).bytes
    let s1 := s.onModel mi fun m =>
      { m with bank := (List.range (b.length / max 1 w)).foldl (fun t i => t.set (first + i) (slice b (w * i) w)) m.bank }
    finish s1 p seq 0 []

end Sys2Proof.Machine
end

