-- ==== Sys2Proof/Machine/Models.lean ====
section
/-!
DEFINITION. The model commands (R284–R328, R405–R408): staging and its checks, placement and its refusals,
writing, commit, replacement, unloading, and the live panel map.
-/
namespace Sys2Proof.Machine

/-! Weight encodings (R38, R39, R40, R42). -/

/-- The value of a bit pair in a format: 0 W2, 1 W1.58, 2 W1. -/
def weightVal (fmt : Nat) (b1 b0 : Bool) : Int :=
  match fmt with
  | 0 => 2 * (2 * (b2n b1 : Int) + b2n b0) - 3
  | 1 => (b2n b1 : Int) - b2n b0
  | _ => 2 * (b2n b1 : Int) - 1

/-- Weight of logical column `c` in a row of 256 bytes. -/
def rowWeight (fmt : Nat) (row : List Byte) (c : Nat) : Int :=
  weightVal fmt (rowBit row (2 * c)) (rowBit row (2 * c + 1))

/-- Sum of a row's weights over the 1,024 logical columns (R294). -/
def rowSum (fmt : Nat) (row : List Byte) : Int := ((List.range 1024).map (rowWeight fmt row)).sum

/-- Whether a tile record's ROW_CRC and ROW_SUM match, and no W1.58 row holds the pair (1, 1) (R41, R297). -/
def recordOk (fmt : Nat) (t : List Byte) : Bool :=
  (List.range 1024).all fun r =>
    let row := imageRow t r
    le t (262144 + 4 * r) 4 == crc32c row && tileRowSum t r == rowSum fmt row &&
    (fmt != 1 || (List.range 1024).all fun c => !(rowBit row (2 * c) && rowBit row (2 * c + 1)))

/-! The checks of R297. -/

/-- The first byte after a bundle's directory. -/
def dirEnd (b : List Byte) : Nat := bDirOff b + 96 * bSections b

/-- Header fields in range, reserved fields 0, KEY_ID 0 of an unsigned bundle, the directory after the header (R288). HIDDEN and
VOCAB of 0 are refused: the table gives them no lower bound, and a model without a width or a vocabulary has no place here (the
model's choice, log 144). -/
def headerOk (b : List Byte) : Bool :=
  b.take 8 == [0x48, 0x59, 0x53, 0x4B, 0x41, 0x42, 0x4E, 0x44] && le b 8 2 == 1 && decide (le b 10 2 < 2) &&
  decide (1 ≤ bLayers b) && decide (bLayers b ≤ 256) && zeroAt b 18 2 && decide (bVocab b ≤ 262144) &&
  decide (1 ≤ bVocab b) && decide (1 ≤ bHidden b) &&
  decide (1 ≤ bMaxCtx b) && decide (bMaxCtx b ≤ 1048576) && zeroAt b 68 4 && zeroAt b 348 164 &&
  (le b 10 2 == 1 || zeroAt b 152 64) && bLength b == b.length && decide (512 ≤ bDirOff b) &&
  decide (dirEnd b ≤ b.length)

/-- The bundle key whose identifier is a digest (R289, R546). -/
def bundleKey (s : State) (id : List Byte) : Option (List Byte) :=
  let p := policy s
  ((List.range (min 8 (byteAt p 9))).map fun i => slice p (544 + 132 * i) 132).find? fun k => sha512 k == id

/-- The signature is accepted (R289). -/
def bundleSigned (s : State) (b : List Byte) : Bool :=
  if le b 10 2 = 1 then
    match bundleKey s (slice b 152 64) with
    | some k => Config.sigVerifies k (sha512 (b.take 216)) (slice b 216 132)
    | none => false
  else bitOf (le (policy s) 0 4) 1

/-- The widths of R567 for a descriptor of a section. -/
def widthsOk (b x : List Byte) (d : MatDesc) : Bool :=
  let h := bHidden b
  let f := (roleDesc x 4).outW
  let w := match d.role with
    | 0 => (h, sHq x * sDh x)
    | 1 => (h, sHkv x * sDh x)
    | 2 => (h, sHkv x * sDh x)
    | 3 => (sHq x * sDh x, h)
    | 4 => (h, f)
    | 5 => (h, f)
    | 6 => (f, h)
    | _ => (h, bVocab b)
  d.inW == w.1 && d.outW == w.2 && d.rowB == ceilDiv d.inW 1024 && d.colB == ceilDiv d.outW 1024

/-- The descriptors cover records 0 to TILES − 1, each exactly once. -/
def coverOk (x : List Byte) : Bool :=
  let ds := sortBy (fun (a b : MatDesc) => decide (a.first < b.first)) (matrices x)
  (ds.foldl (fun (st : Bool × Nat) d => (st.1 && d.first == st.2, st.2 + matTiles d)) (true, 0)) == (true, sTiles x)

/-- FORMAT takes a defined value (R567), and so does the format table where there is one (R293). -/
def formatsOk (x : List Byte) (d : MatDesc) : Bool :=
  decide (d.format < 3) &&
  (d.fmap == 0 || (decide (d.fmap + matTiles d ≤ x.length) &&
    (List.range (matTiles d)).all fun k => decide (tileFormat x d k < 3) &&
      tileFormat x d k == tileFormat x d (k / 8 * 8)))

/-- The layout of a LAYER or HEAD section (R292, R293, R567). -/
def sectionOk (b x : List Byte) (isHead : Bool) : Bool :=
  let h := bHidden b
  decide (64 + 32 * sMatrices x ≤ x.length) && zeroAt x 32 32 &&
  (if isHead then
    sArch x == 2 && sAct x == 0 && sHq x == 0 && sHkv x == 0 && sDh x == 0 && sMatrices x == 1 &&
    (matDesc x 0).role == 7 && sVecBytes x == 4 * h
   else
    sArch x == 1 && decide (sAct x < 2) && sMatrices x == 7 &&
    (List.range 7).all (fun i => (matDesc x i).role == i) && sVecBytes x == 8 * h &&
    decide (1 ≤ (roleDesc x 4).outW)) &&
  decide (64 + 32 * sMatrices x ≤ sVecOff x) && decide (sVecOff x + sVecBytes x ≤ sTileOff x) && decide (sTileOff x + 270336 * sTiles x ≤ x.length) &&
  (matrices x).all (fun d => d.rsvdOk && widthsOk b x d && formatsOk x d) && coverOk x

/-- The directory as a whole: one section of each kind and layer (R290). -/
def directoryOk (b : List Byte) : Bool :=
  let es := directory b
  (List.range (bLayers b)).all (fun l => es.countP (fun e => e.kind == 0 && e.layer == l) == 1) &&
  es.countP (fun e => e.kind == 1) == 1 && es.countP (fun e => e.kind == 2) == 1 &&
  es.length == bLayers b + 2

/-- A directory entry by itself: its section comes after the directory (R288, R290). -/
def entryOk (b : List Byte) (e : DirEntry) : Bool :=
  decide (e.kind < 3) && e.rsvdOk && (e.kind == 0 || e.layer == 0) && decide (dirEnd b ≤ e.off) && decide (e.off + e.len ≤ b.length)

/-- The first failing check of one section (R297). The rule orders the sections, not the checks inside one: the model takes layout or
length, then the digest, then ROW_CRC, ROW_SUM and the pairs (the model's choice, log 143). -/
def sectionCheck (b : List Byte) (e : DirEntry) : Option Nat :=
  let x := slice b e.off e.len
  if e.kind = 1 then
    (need (e.len == bVocab b * bHidden b * 2) 0x0115 <|> need (sha512 x == e.digest) 0x0108)
  else
    need (sectionOk b x (e.kind == 2)) 0x0115 <|> need (sha512 x == e.digest) 0x0108 <|>
    need ((List.range (sTiles x)).all fun r => recordOk (recordFormat x r) (tileRecord x r)) 0x0109

/-- The first of a list of sections to fail, in order of arrival, with its directory index. -/
def firstBad (b : List Byte) (idx : List Nat) : Option (Nat × Nat) :=
  let ordered := sortBy (fun i j => decide ((dirEntry b i).off < (dirEntry b j).off)) idx
  ordered.findSome? fun i => (sectionCheck b (dirEntry b i)).map fun c => (c, i)

/-- BUNDLE_STAGE's checks: the code of the first failure and the index its EVENT names (R297). -/
def bundleCheck (s : State) (b : List Byte) : Option (Nat × Nat) :=
  if !headerOk b then some (0x0115, 0xFFFFFFFF)
  else if !bundleSigned s b then some (0x0107, 0xFFFFFFFF)
  else if sha512 (slice b (bDirOff b) (96 * bSections b)) != slice b 88 64 then some (0x0108, 0xFFFFFFFF)
  else
    match leastBelow (bSections b) fun i => !entryOk b (dirEntry b i) with
    | some i => some (0x0115, i)
    | none =>
      if !directoryOk b then some (0x0115, 0xFFFFFFFF) else firstBad b (List.range (bSections b))

/-! Staging (R285, R296, R299, R405–R407). -/

/-- Staging keels of the basic form (R296). -/
def basicKeels (b : List Byte) : List Nat :=
  (directory b).map fun e => if e.kind = 0 then e.layer * 8 / max 1 (bLayers b) else if e.kind = 1 then 0 else 7

/-- Whether an outstanding A command works on a model (R406). -/
def modelBusy (s : State) (mi : Nat) (stage : Bool) : Bool :=
  s.spools.any fun e => e.2.out.any fun o =>
    match o.job with
    | .stage m _ _ _ _ _ => m == mi
    | .write m => m == mi && !stage
    | .replace m => m == mi && !stage
    | _ => false

/-- Whether a model index may be taken (R238, R284). -/
def modelIndexFree (s : State) (c : Cmd) (i : Nat) : Bool :=
  let named := fun (h : W32) => h.toNat % 16777216 == i
  (s.model i).st == .closed && !anyCommand s c opModel modelOperands named && !(s.pipe.entries.any fun e => e.model == i) &&
  !anyRecord s (recNames opModel [0x10] [0x000A, 0x000B, 0x000C] [] named)

/-- The model that a BUNDLE_STAGE works on, or the code of its refusal: a free slot for MODE 0; a model in a legal state for the others
(R286, R405–R407). -/
def stageTarget (s : State) (c : Cmd) (mode : Nat) : Nat ⊕ Nat :=
  if mode = 0 then
    match leastBelow 16 (modelIndexFree s c) with
    | none => .inl 0x0302
    | some i => .inr i
  else
    match findModel s c.handle with
    | none => .inl 0x0401
    | some i =>
      let m := s.model i
      if modelBusy s i (mode == 2) || m.st == .staging || (mode == 1 && (m.st != .committed || m.pendB.isSome)) then .inl 0x0209
      else .inr i

/-- BUNDLE_STAGE (R286, R407): its tests at start, the handle and the state before anything is read. The bundle is checked when it has
arrived. -/
def runBundleStage (c : Cmd) (addr length mode first count : Nat) (keels : Option (List Nat)) : State → State :=
  hostCommand (.bundleStage c addr length mode first count keels) c 0x10
    (paramCheck (.bundleStage c addr length mode first count keels)) fun s =>
    match stageTarget s c mode with
    | .inl code => (s, .error code [])
    | .inr i =>
      match bufRead s c addr length with
      | none => (s, .error 0x0501 [])
      | some (b0, s) =>
        let b := b0.take length
        let ks := keels.getD (basicKeels b)
        let lenBad := bLength b != length || (keels.map fun k => k.length != bSections b).getD false
        if mode = 2 then
          if bSections (s.model i).bytes < first + count || bLength b != length then (s, .error 0x0105 [])
          else (s, .accepted (toLe 4 c.handle.toNat) (.stage i 2 first count b []))
        else if lenBad then (s, .error 0x0105 [])
        else if !regionFits s (stagedRoom b ks) then (s, .error 0x0307 [])
        else if mode = 0 then
          let g := nextGen (s.model i).used (s.model i).gen
          (s.onModel i fun _ => { Model.init with gen := g, used := true, st := .staging },
           .accepted (toLe 4 (modelHandle i g).toNat) (.stage i 0 0 0 b ks))
        else (s, .accepted (toLe 4 c.handle.toNat) (.stage i 1 0 0 b ks))

def execBundleStage (c : Cmd) (addr length mode first count : Nat) (keels : Option (List Nat)) (s : State) :
    Host.Outcome State Fault Refusal :=
  guarded c.wf s (runBundleStage c addr length mode first count keels s)

/-- RESULTS of BUNDLE_STAGE's EVENT. -/
def stageResults (h : W32) (idx : Nat) : List Byte := toLe 4 h.toNat ++ toLe 4 idx

/-- Replace the sections a RESTAGE names by those of a bundle with the staged directory, and clear their
MASTER_LOST marks (R299). -/
def restaged (m : Model) (b : List Byte) (idx : List Nat) : Model :=
  { m with
    bytes := idx.foldl (fun x i =>
      let e := dirEntry m.bytes i
      overlay x e.off (slice b e.off e.len)) m.bytes
    lost := m.lost.filter fun l => !(idx.map (sectUnit m.bytes)).contains l.1 }

/-- Lines of sections that a RESTAGE has repaired do not fail any more: the next failure of one writes a record (R440). -/
def linesRepaired (s : State) (mi : Nat) (idx : List Nat) : State :=
  let hit := fun (b : Nat × Nat × Nat × Nat) => b.2.2.1 == mi && idx.contains b.2.2.2
  s.onChk fun c =>
    { c with badLines := c.badLines.filter fun l => !(c.badSects.any fun b => hit b && (b.1, b.2.1) == l),
             badSects := c.badSects.filter fun b => !hit b }

/-- A restaged bundle as it is checked: its sections under the staged header and directory (R299). -/
def stagedFrame (m b : List Byte) : List Byte :=
  overlay (overlay b 0 (m.take 512)) (bDirOff m) (slice m (bDirOff m) (96 * bSections m))

/-- The bundle of a BUNDLE_STAGE has arrived, or a read of it failed (R297, R299, R386). -/
def bundleArrived (s : State) (p : Nat) (seq : W32) (mi mode first count : Nat) (b : List Byte) (ks : List Nat)
    (ok : Bool) : State :=
  let h := modelHandle mi (s.model mi).gen
  let drop := if mode = 0 then s.onModel mi fun m => { Model.init with gen := m.gen, used := true } else s
  if !ok then finish drop p seq 0x0501 (stageResults h 0xFFFFFFFF)
  else if mode = 2 then
    let idx := (List.range count).map (first + ·)
    let m := s.model mi
    match firstBad (stagedFrame m.bytes b) idx with
    | some (code, i) => finish s p seq code (stageResults h i)
    | none =>
      finish (linesRepaired (s.onModel mi fun m => restaged m b idx) mi idx) p seq 0 (stageResults h 0xFFFFFFFF)
  else
    match bundleCheck s b with
    | some (code, i) => finish drop p seq code (stageResults h i)
    | none =>
      let s1 := s.onModel mi fun m =>
        if mode = 0 then { m with st := .staged, bytes := b, keels := ks } else { m with pendB := some (b, ks), pendLost := [] }
      finish s1 p seq 0 (stageResults h 0xFFFFFFFF)

/-! Slots and units (R177, R300, R301). -/

/-- Slots of a keel: 4 × m interleaved, then the rest die by die. -/
def keelSlots (s : State) (k : Nat) : Nat := ((List.range 4).map fun d => inService s (4 * k + d)).sum

/-- m of R177. -/
def keelM (s : State) (k : Nat) : Nat := ((List.range 4).map fun d => inService s (4 * k + d)).foldl min 1856

/-- Die and place that a slot binds to. -/
def slotPlace (s : State) (k slot : Nat) : Option (Nat × Nat) :=
  let m := keelM s k
  if slot < 4 * m then some (4 * k + slot % 4, slot / 4)
  else
    ((List.range 4).flatMap fun d =>
      ((List.range (inService s (4 * k + d))).drop m).map fun i => (4 * k + d, i))[slot - 4 * m]?

/-- The module panel number a slot binds to; none where it is bound to nothing (R325, R328). -/
def slotPanel (s : State) (k slot : Nat) : Option Nat :=
  match slotPlace s k slot with
  | none => none
  | some (d, i) =>
    match (liveOrder s d)[i]? with
    | none => none
    | some ph => let p := d * 2048 + ph
                 if s.arr.retired.contains p then none else some p

/-- Slots a matrix takes (R300). -/
def matSlots (d : MatDesc) : Nat := ceilDiv (matTiles d) 8

/-- Slots a layer or the head takes; EMBED takes none. -/
def unitSlots (b : List Byte) (u : Nat) : Nat :=
  if u = 256 then 0 else ((matrices (unitSection b u)).map matSlots).sum

/-- First slot of matrix `i` of a unit whose range starts at `first`. -/
def matFirst (x : List Byte) (first i : Nat) : Nat := first + (((matrices x).take i).map matSlots).sum

/-- The module tile number that tile `k` of matrix `i` of a unit lies on. -/
def unitTile (s : State) (x : List Byte) (keel first i k : Nat) : Option Nat :=
  (slotPanel s keel (matFirst x first i + k / 8)).map fun p => 8 * p + k % 8

/-- Every tile of a unit: module tile number and tile record, for a range that starts at `first`. -/
def unitTiles (s : State) (b : List Byte) (u keel first : Nat) : List (Nat × Nat) :=
  let x := unitSection b u
  if u = 256 then [] else
  (List.range (sMatrices x)).flatMap fun i =>
    let d := matDesc x i
    (List.range (matTiles d)).filterMap fun k => (unitTile s x keel first i k).map fun t => (t, d.first + k)

/-- Every tile of a model's units in force, with the unit. -/
def modelTiles (s : State) (m : Model) : List (Nat × Nat × Nat) :=
  m.units.flatMap fun e => (unitTiles s m.bytes e.1 e.2.keel e.2.first).map fun t => (t.1, e.1, t.2)

/-- Slots of a keel that some unit range or write in progress takes (R301). -/
def usedSlots (s : State) (k : Nat) : List (Nat × Nat) :=
  s.models.flatMap fun e =>
    ((e.2.units.filter fun u => u.2.keel == k).map fun u => (u.2.first, u.2.count)) ++
    match e.2.repl with
    | none => []
    | some r => r.units.filterMap fun u =>
        if (e.2.units.find u.1).map UnitPl.keel = some k && !u.2.barrier then
          some (u.2.first, unitSlots e.2.bytes u.1) else none

/-- Whether a slot is free (R301). -/
def slotFree (s : State) (k slot : Nat) : Bool :=
  (slotPanel s k slot).isSome && !(usedSlots s k).any fun r => decide (r.1 ≤ slot) && decide (slot < r.1 + r.2)

/-! Placement (R179, R180, R195, R196, R199, R300–R302, R565). -/

/-- The units of a stage: EMBED if flagged, its layers, HEAD if flagged. -/
def stageUnits (r : StageRec) : List Nat :=
  (if r.embed then [256] else []) ++ (List.range r.layerCount).map (r.layerFirst + ·) ++ (if r.head then [257] else [])

/-- The unit ranges of a stage, one after another from its first slot (R300, R301). -/
def placeUnits (b : List Byte) (keel : Nat) : List Nat → Nat → Tbl UnitPl → Tbl UnitPl
  | [], _, t => t
  | u :: r, at_, t =>
    placeUnits b keel r (at_ + unitSlots b u) (t.set u { keel := keel, first := at_, count := unitSlots b u, epoch := 0 })

/-- The unit table of a map. -/
def mapUnits (b : List Byte) (st : List StageRec) : Tbl UnitPl :=
  st.foldl (fun t r => placeUnits b r.keel (stageUnits r) r.slotFirst t) []

/-- Follow NEXT_STAGE from a stage, at most `fuel` steps: the stages met, ending at SAMPLE or a REMOTE link. -/
def stagePath (st : List StageRec) : Nat → Nat → List Nat
  | 0, _ => []
  | fuel + 1, i =>
    match st[i]? with
    | none => []
    | some r => i :: if r.sample || r.remote then [] else stagePath st fuel r.nextStage

/-- The layers along a path are contiguous and ascending from `l`. -/
def pathLayers (st : List StageRec) : List Nat → Nat → Option Nat
  | [], l => some l
  | i :: r, l =>
    match st[i]? with
    | none => none
    | some x =>
      if x.layerCount = 0 then pathLayers st r l
      else if x.layerFirst = l then pathLayers st r (l + x.layerCount) else none

/-- The stages of a map to which no stage of it leads: where a path enters this module (R179). -/
def chainStarts (st : List StageRec) : List Nat :=
  (List.range st.length).filter fun i => !st.any fun r => !r.sample && !r.remote && r.nextStage == i

/-- Whether a path through this module meets R179: EMBED only at its start, layers contiguous and ascending, from layer 0 after
EMBED and up to the last one at SAMPLE. -/
def chainOk (b : List Byte) (st : List StageRec) (path : List Nat) : Bool :=
  let rs := path.filterMap fun i => st[i]?
  let begins := (rs.take 1).any StageRec.embed
  let first := if begins then 0 else ((rs.find? fun r => r.layerCount != 0).map StageRec.layerFirst).getD (bLayers b)
  (rs.drop 1).all (fun r => !r.embed) &&
  match pathLayers st path first with
  | none => false
  | some l => !rs.any StageRec.sample || l == bLayers b

/-- Whether two stages share no layer. -/
def layersApart (a b : StageRec) : Bool :=
  decide (a.layerFirst + a.layerCount ≤ b.layerFirst) || decide (b.layerFirst + b.layerCount ≤ a.layerFirst)

/-- Whether the paths through this module take each of its stages once and no layer twice (R179). -/
def chainsOk (b : List Byte) (st : List StageRec) : Bool :=
  let paths := (chainStarts st).map (stagePath st st.length)
  paths.flatten.length == st.length && (List.range st.length).all paths.flatten.contains && paths.all (chainOk b st) &&
  (List.range st.length).all fun i => match st[i]? with
    | none => true
    | some r => (st.take i).all (layersApart r)

/-- The stage at fault, if the map is not well formed (R179, R180); 0xFF for the map as a whole. -/
def mapFault (s : State) (m : Model) (st : List StageRec) : Option Nat :=
  let n := st.length
  let b := m.bytes
  let stageBad := fun (i : Nat) => match st[i]? with
    | none => false
    | some r =>
      r.stage != i || (r.layerCount == 0 && !r.head) || decide (bLayers b < r.layerFirst + r.layerCount) ||
      r.head != r.sample || (!r.sample && !r.remote && decide (n ≤ r.nextStage)) ||
      (stageUnits r).any (fun u => match unitDir b u with
        | none => true
        | some d => m.keels[d]? != some r.keel)
  let overlaps := fun (i : Nat) => match st[i]? with
    | none => false
    | some r =>
      let hit := fun (o : StageRec) => o.keel == r.keel && decide (o.slotFirst < r.slotFirst + r.slotCount) &&
        decide (r.slotFirst < o.slotFirst + o.slotCount)
      (st.take i).any hit || s.models.any fun e => e.2.stages.any hit
  let whole :=
    if st.any StageRec.remote then
      decide (st.countP StageRec.embed ≤ 1) && decide (st.countP StageRec.sample ≤ 1) &&
      st.countP StageRec.embed == st.countP StageRec.sample && chainsOk b st
    else
      st.countP StageRec.embed == 1 && st.countP StageRec.sample == 1 &&
      (match st.findIdx? StageRec.embed with
       | none => false
       | some e =>
         let path := stagePath st n e
         path.length == n && (List.range n).all path.contains && pathLayers st path 0 == some (bLayers b))
  match leastBelow n fun i => stageBad i || overlaps i with
  | some i => some i
  | none => if whole then none else some 0xFF

/-- The lowest run of free module stage indices (R565). -/
def stageBase (s : State) (n : Nat) : Option Nat :=
  leastBelow 257 fun b =>
    decide (b + n ≤ 256) && !s.models.any fun e =>
      !e.2.stages.isEmpty && decide (e.2.base < b + n) && decide (b < e.2.base + e.2.stages.length)

/-- The first stage whose slots or panels do not serve (R196, R302: REFUSE_PANELS). -/
def panelsFault (s : State) (b : List Byte) (st : List StageRec) : Option Nat :=
  leastBelow st.length fun i => match st[i]? with
    | none => false
    | some r =>
      decide (keelSlots s r.keel < r.slotFirst + r.slotCount) || r.slotCount == 0 ||
      decide (r.slotCount < ((stageUnits r).map (unitSlots b)).sum) ||
      (List.range ((stageUnits r).map (unitSlots b)).sum).any fun j => !slotFree s r.keel (r.slotFirst + j)

/-- The first stage with a reduction of more than 256 blocks (R61). -/
def reductionFault (b : List Byte) (st : List StageRec) : Option Nat :=
  leastBelow st.length fun i => match st[i]? with
    | none => false
    | some r => (stageUnits r).any fun u => u != 256 &&
        (matrices (unitSection b u)).any fun d => decide (256 < d.rowB)

/-- The first stage in which a slot, and so a panel, would hold tiles of different formats (R82, R196). -/
def formatFault (b : List Byte) (st : List StageRec) : Option Nat :=
  leastBelow st.length fun i => match st[i]? with
    | none => false
    | some r => (stageUnits r).any fun u => u != 256 &&
        let x := unitSection b u
        (matrices x).any fun d => (List.range (matTiles d)).any fun k => tileFormat x d k != tileFormat x d (k - k % 8)

/-- The matrix operations of a section (R195): the matrices one quantised input feeds. -/
def operations (x : List Byte) : List (List Nat) := if sArch x = 2 then [[0]] else [[0, 1, 2], [3], [4, 5], [6]]

/-- Tiles and panels of an operation on each die position, and the most tiles on one panel. -/
def opSpread (s : State) (x : List Byte) (keel first : Nat) (op : List Nat) : List (Nat × Nat) × Nat :=
  let slots := op.flatMap fun i =>
    let d := matDesc x i
    (List.range (matSlots d)).map fun j => (matFirst x first i + j, min 8 (matTiles d - 8 * j))
  let on := fun (d : Nat) => slots.filter fun e => (slotPlace s keel e.1).map Prod.fst == some (4 * keel + d)
  ((List.range 4).map fun d => (((on d).map Prod.snd).sum, (on d).length), (slots.map Prod.snd).foldl max 0)

/-- Rounds of an operation (R195). -/
def opRounds (sp : List (Nat × Nat) × Nat) : Nat :=
  (sp.1.map fun e => if e.2 = 0 then 0 else ceilDiv e.1 (min 64 e.2)).foldl max sp.2

/-- The test of R195 at a period, in units of 0.01 ns: (rounds − 1) × 112 ns + 172.23 ns ≤ P − 2.00 µs. -/
def opFits (rounds period : Nat) : Bool := decide ((rounds - 1) * 11200 + 17223 + 200000 ≤ period * 25000)

/-- Whether every operation of a unit fits a period. -/
def unitFits (s : State) (b : List Byte) (u keel first period : Nat) : Bool :=
  u == 256 ||
  let x := unitSection b u
  (operations x).all fun op => opFits (opRounds (opSpread s x keel first op)) period

/-- The first stage with an operation that fails R195 at a period. -/
def tickFault (s : State) (b : List Byte) (st : List StageRec) (period : Nat) : Option Nat :=
  let t := mapUnits b st
  leastBelow st.length fun i => match st[i]? with
    | none => false
    | some r => (stageUnits r).any fun u => match t.find u with
        | none => false
        | some p => !unitFits s b u r.keel p.first period

/-- Whether every placed model fits a period (R195, R401). -/
def allFit (s : State) (period : Nat) : Bool :=
  s.models.all fun e => e.2.units.all fun u => unitFits s e.2.bytes u.1 u.2.keel u.2.first period

/-- Tiles and slots that units take on a keel. -/
def sramUse (b : List Byte) (units : Tbl UnitPl) (k : Nat) : Nat :=
  ((units.filter fun u => u.2.keel == k && u.1 != 256).map fun u =>
    sTiles (unitSection b u.1) * 2048 + u.2.count * 4096).sum

/-- A keel whose SRAM the map would overfill (R196, REFUSE_SRAM). -/
def sramFault (s : State) (b : List Byte) (units : Tbl UnitPl) : Bool :=
  (List.range 8).any fun k =>
    decide (0x10000000 < sramUse b units k + 0x6000000 + (s.models.map fun e => sramUse e.2.bytes e.2.units k).sum)

/-- A keel with too few frames for one session at the model's maximum context (R196, REFUSE_FRAMES). -/
def framesFault (m : Model) : Bool :=
  (List.range 8).any fun k =>
    decide (2097152 < ((layersHere m).map fun lk =>
      if lk.2 = k then ceilDiv (bMaxCtx m.bytes) (layerPpf m lk.1) else 0).sum)



/-- The first stage whose REMOTE next module cannot be reached (R474, R475). -/
def chainFault (s : State) (st : List StageRec) : Option Nat :=
  leastBelow st.length fun i => match st[i]? with
    | none => false
    | some r => r.remote && !(if s.boot.strapAddr < r.nextModule then linkUp s 2
                              else decide (r.nextModule < s.boot.strapAddr) && linkUp s 1)

/-- The head layout of R199. -/
def headLayoutOk (x : List Byte) : Bool :=
  decide (1 ≤ sHkv x) && decide (sHkv x ≤ 16) && (sDh x == 64 || sDh x == 128 || sDh x == 256) &&
  decide (sHkv x ≤ sHq x) && decide (sHq x ≤ 256) && sHq x % sHkv x == 0

/-- The refusal of a placement, with the stage at fault (R196, R199, R302, R407). -/
def placeRefusal (s : State) (m : Model) (st : List StageRec) (formats : Option (List Nat)) : Option (Nat × Nat) :=
  let b := m.bytes
  let m1 := { m with stages := st, fmts := formats.getD (List.replicate (bLayers b) (opt s oKvFormat)) }
  let at_ := fun (code : Nat) (o : Option Nat) => o.map fun i => (code, i)
  let whole := fun (code : Nat) (bad : Bool) => if bad then some (code, 0xFF) else none
  whole 0x0105 ((formats.map fun f => f.length != bLayers b).getD false) <|>
  whole 0x010A ((List.range (bLayers b)).any fun l => !headLayoutOk (unitSection b l)) <|>
  at_ 0x0602 (mapFault s m st) <|>
  whole 0x0602 (stageBase s st.length).isNone <|>
  at_ 0x0601 (panelsFault s b st) <|>
  at_ 0x0604 (reductionFault b st) <|>
  at_ 0x0605 (formatFault b st) <|>
  whole 0x0606 (sramFault s b (mapUnits b st)) <|>
  whole 0x0607 (framesFault m1) <|>
  at_ 0x0603 (tickFault s b st s.tick.period) <|>
  at_ 0x0603 (s.tick.pend.bind fun p => tickFault s b st p.period) <|>
  at_ 0x060B (chainFault s st)

/-- MODEL_PLACE (R286, R405, R565). -/
def runModelPlace (c : Cmd) (st : List StageRec) (formats : Option (List Nat)) : State → State :=
  hostCommand (.modelPlace c st formats) c 0x11 (paramCheck (.modelPlace c st formats)) fun s =>
    match findModel s c.handle with
    | none => (s, .error 0x0401 [])
    | some i =>
      let m := s.model i
      if m.st != .staged || modelBusy s i false then (s, .error 0x0209 (toLe 1 0xFF))
      else
        match placeRefusal s m st formats with
        | some (code, at_) => (s, .error code (toLe 1 at_))
        | none =>
          let base := (stageBase s st.length).getD 0
          (s.onModel i fun m =>
            { m with st := .placed, stages := st, base := base, units := mapUnits m.bytes st,
                     fmts := formats.getD (List.replicate (bLayers m.bytes) (opt s oKvFormat)) },
           .done (toLe 2 base))

def execModelPlace (c : Cmd) (st : List StageRec) (formats : Option (List Nat)) (s : State) :
    Host.Outcome State Fault Refusal :=
  guarded c.wf s (runModelPlace c st formats s)

/-! Writing and commit (R303–R309). -/

/-- A tile is WRITE_FAIL: it holds no weights, and a record names it and a row (R304, R308). -/
def failWrite (s : State) (t row : Nat) : State :=
  faultRec (s.onTile t fun x => { x with fail := true, holds := none, under := none, rows := 0, rowFails := [] }) 0x0006
    (tileKeel t) t row

/-- The staging keel of a unit of an epoch (R296). -/
def stagingKeel (m : Model) (epoch u : Nat) : Option Nat :=
  let ks := if newCopy m epoch u then (m.pendB.map Prod.snd).getD [] else m.keels
  (unitDir (unitBundle m epoch u) u).bind fun i => ks[i]?

/-- A tile record staged on another keel than the tile's crosses the bridle in the bulk class (R25; log 112). -/
def recordTraffic (s : State) (t : Nat) (src : TileSrc) : State :=
  let m := s.model src.model
  match stagingKeel m src.epoch src.unit with
  | none => s
  | some k =>
    if k = tileKeel t then s
    else sendBulk s k (tileKeel t) (tileRecord (unitSection (unitBundle m src.epoch src.unit) src.unit) src.record)

/-- Begin the write of a tile: it is queued for the reel engine. A record marked MASTER_LOST is not written and leaves the tile
WRITE_FAIL; no row has failed then, and the record's row is 0 (R298, R308; log 119). -/
def queueWrite (s : State) (t : Nat) (src : TileSrc) : State :=
  if recordLost (s.model src.model) src.epoch src.unit src.record then failWrite s t 0
  else (recordTraffic s t src).onTile t fun x => { x with under := some src, rows := 0, rowFails := [], fail := false }

/-- WRITE_FAIL tiles and uncalibrated panels of a model (R308). -/
def writeFails (s : State) (m : Model) : Nat := (modelTiles s m).countP fun t => (s.tileAt t.1).fail
def modelPanels (s : State) (m : Model) : List Nat := distinct ((modelTiles s m).map fun t => t.1 / 8)
def uncalibrated (s : State) (m : Model) : Nat := (modelPanels s m).countP fun p => !(s.panelAt p).cal

/-- Queue every tile of a list for writing: tile, unit and record of each. -/
def queueAll (s : State) (mi : Nat) (l : List (Nat × Nat × Nat)) (epoch : Nat) : State :=
  l.foldl (fun s t => queueWrite s t.1 { model := mi, unit := t.2.1, record := t.2.2, epoch := epoch }) s

/-- MODEL_WRITE (R286, R308); the epoch written is the first (R309). -/
def runModelWrite (c : Cmd) : State → State :=
  hostCommand (.modelWrite c) c 0x12 (paramCheck (.modelWrite c)) fun s =>
    match findModel s c.handle with
    | none => (s, .error 0x0401 [])
    | some i =>
      let m := s.model i
      if (m.st != .placed && m.st != .written) || modelBusy s i false then (s, .error 0x0209 [])
      else
        let all := modelTiles s m
        let l := if m.st = .placed then all
          else all.filter fun t => (s.tileAt t.1).fail || !(s.panelAt (t.1 / 8)).cal
        (queueAll s i l 1, .accepted [] (.write i))

def execModelWrite (c : Cmd) (s : State) : Host.Outcome State Fault Refusal := guarded c.wf s (runModelWrite c s)

/-- Whether a tile list is still being written or first recalibrated (R84, R308). -/
def writesOpen (s : State) (tiles : List Nat) : Bool :=
  tiles.any fun t => (s.tileAt t).under.isSome || (s.panelAt (t / 8)).fresh

/-- End every MODEL_WRITE whose tiles are written and recalibrated (R308). -/
def settleWrites (s : State) : State :=
  (s.spools.flatMap fun e => e.2.out.filterMap fun o => match o.job with
    | .write mi => some (e.1, o.seq, mi)
    | _ => none).foldl
    (fun s w =>
      let m := s.model w.2.2
      if writesOpen s ((modelTiles s m).map Prod.fst) then s
      else
        let f := writeFails s m
        let u := uncalibrated s m
        let lost := (modelTiles s m).any fun t => (s.tileAt t.1).fail && m.lost.contains t.2
        let code := if lost then 0x0502 else if f = 0 && u = 0 then 0 else 0x0503
        finish (s.onModel w.2.2 fun m => { m with st := .written }) w.1 w.2.1 code (toLe 4 f ++ toLe 4 u))
    s

/-- The tiles that a model's units take here, whether or not their slots are bound to a panel (R300, R328). -/
def modelSize (m : Model) : Nat :=
  (m.units.map fun e => if e.1 = 256 then 0 else ((matrices (unitSection m.bytes e.1)).map matTiles).sum).sum

/-- Whether every tile of a model holds weights on a calibrated panel (R309). -/
def fullyWritten (s : State) (m : Model) : Bool :=
  (modelTiles s m).length == modelSize m &&
  (modelTiles s m).all fun t => (s.tileAt t.1).holds.isSome && (s.panelAt (t.1 / 8)).cal

/-- MODEL_COMMIT (R309). -/
def runModelCommit (c : Cmd) : State → State :=
  hostCommand (.modelCommit c) c 0x13 (paramCheck (.modelCommit c)) fun s =>
    match findModel s c.handle with
    | none => (s, .error 0x0401 [])
    | some i =>
      let m := s.model i
      if m.st != .written || modelBusy s i false then (s, .error 0x0209 [])
      else if !fullyWritten s m then (s, .error 0x0503 [])
      else
        (s.onModel i fun m =>
          { m with st := .committed, epoch := 1, units := m.units.mapAll fun _ u => { u with epoch := 1 } },
         .done (toLe 2 1))

def execModelCommit (c : Cmd) (s : State) : Host.Outcome State Fault Refusal := guarded c.wf s (runModelCommit c s)

/-! Replacement (R310–R324, R408). -/

/-- Values that keep an epoch number out of use (R310). -/
def epochNamed (s : State) (mi : Nat) (mh : W32) (e : Nat) : Bool :=
  s.sessions.any (fun x => x.2.st != .closed && x.2.model == mh && x.2.epoch == e) ||
  s.pipe.entries.any (fun x => x.model == mi && x.stamped && x.epoch == e) ||
  s.adapters.any (fun x => decide (4096 ≤ x.1) && x.2.resident && x.2.model == mh && x.2.base == e)

/-- The next epoch of a model: plus 1 modulo 65,536, skipping 0 and the values still named (R310). -/
def nextEpoch (s : State) (mi : Nat) (mh : W32) (e : Nat) : Nat :=
  (((List.range 65536).map fun i => (e + 1 + i) % 65536).find? fun v => v != 0 && !epochNamed s mi mh v).getD 0

/-- Whether two sections differ only in what a replacement may change (R313). -/
def shapeSame (x y : List Byte) : Bool :=
  let strip := fun (h : List Byte) => overlay h 8 (zeros 8)
  let d := fun (z : List Byte) (i : Nat) =>
    let m := matDesc z i
    (m.role, m.inW, m.outW, m.rowB, m.colB, m.first, m.rsvdOk)
  strip (x.take 64) == strip (y.take 64) && sMatrices x == sMatrices y &&
  (List.range (sMatrices x)).all fun i => d x i == d y i

/-- Whether a pending bundle has the shape of the committed one (R313). -/
def bundleShapeSame (a b : List Byte) : Bool :=
  bLayers a == bLayers b && bHidden a == bHidden b && bVocab a == bVocab b &&
  (List.range (bLayers a) ++ [257]).all fun u => shapeSame (unitSection a u) (unitSection b u)

/-- Units whose section digest differs (R312). -/
def changedUnits (a b : List Byte) : List Nat :=
  (unitsOf a).filter fun u =>
    (unitDir a u).map (fun i => (dirEntry a i).digest) != (unitDir b u).map (fun i => (dirEntry b i).digest)

/-- One pair of the DELTA_MAP (R408). -/
def pairOk (s : State) (mh : W32) (old new : Nat) (p : W32 × W32) : Bool :=
  let side := fun (h : W32) (e : Nat) => match findAdapter s 0 h with
    | some (1, i) => (s.adapter (adapterKey 1 i)).model == mh && (s.adapter (adapterKey 1 i)).base == e
    | _ => false
  side p.1 old && (p.2 == noHandle || side p.2 new)

/-- MODEL_REPLACE (R310, R312–R314, R408). -/
def runModelReplace (c : Cmd) (fate : Nat) (e : Option ReplaceExt) : State → State :=
  hostCommand (.modelReplace c fate e) c 0x14 (paramCheck (.modelReplace c fate e)) fun s =>
    match findModel s c.handle with
    | none => (s, .error 0x0401 [])
    | some i =>
      let m := s.model i
      match m.pendB with
      | none => (s, .error 0x0209 [])
      | some (nb, _) =>
        let mask := match e with
          | some x => x.mask
          | none => changedUnits m.bytes nb
        let pairs := match e with
          | some x => x.pairs
          | none => []
        let ep := nextEpoch s i c.handle m.epoch
        if m.st != .committed || modelBusy s i false then (s, .error 0x0209 [])
        else if mask.any fun u => (unitDir m.bytes u).isNone then (s, .error 0x0105 [])
        else if !bundleShapeSame m.bytes nb then (s, .error 0x060C [])
        else if !pairs.all (pairOk s c.handle m.epoch ep) || (distinct (pairs.map Prod.fst)).length != pairs.length then
          (s, .error 0x020E [])
        else
          (s.onModel i fun m =>
            { m with
              st := .replacing
              repl := some { spool := c.spool, seq := c.seq, newEpoch := ep, fate := fate,
                             prewrite := (e.map ReplaceExt.prewrite).getD true, mask := mask, pairs := pairs,
                             cut := false, units := [], blocked := [] } },
           .accepted (toLe 2 ep) (.replace i))

def execModelReplace (c : Cmd) (fate : Nat) (e : Option ReplaceExt) (s : State) :
    Host.Outcome State Fault Refusal :=
  guarded c.wf s (runModelReplace c fate e s)

/-- Clear the tiles that a shadow write has taken (R324). -/
def dropShadow (s : State) (m : Model) : State :=
  match m.repl with
  | none => s
  | some r =>
    r.units.foldl (fun s u =>
      match m.units.find u.1 with
      | none => s
      | some pl =>
        if u.2.barrier || u.2.switched then s
        else (unitTiles s m.bytes u.1 pl.keel u.2.first).foldl (fun s t => s.onTile t.1 Tile.emptied) s) s

/-- Every unit that BARRIER mode has started is rewritten from the old master copy (R324). -/
def undoBarrier (s : State) (mi : Nat) (m : Model) (r : Repl) : State :=
  r.units.foldl (fun s u =>
    match m.units.find u.1 with
    | none => s
    | some pl =>
      if !u.2.barrier then s
      else (unitTiles s m.bytes u.1 pl.keel pl.first).foldl
        (fun s t => queueWrite s t.1 { model := mi, unit := u.1, record := t.2, epoch := m.epoch }) s) s

/-- The tiles of a model that leaves the module. -/
def dropTiles (s : State) (mi : Nat) : State :=
  let gone := fun (x : Tile) => x.holds.map TileSrc.model == some mi || x.under.map TileSrc.model == some mi
  s.onArr fun a => { a with tiles := a.tiles.mapAll fun _ x => if gone x then x.emptied else x }

/-- What this module keeps for sessions of other modules on a model that leaves it. -/
def dropForeign (s : State) (mi : Nat) : State :=
  (s.sessions.filter fun e => decide (65536 ≤ e.1) && modelOf e.2 == mi).foldl
    (fun s e =>
      let s1 := truncPages s (s.model mi) e.2.runs 0
      let s2 := freeRunsOf s1 (s1.model mi) e.2.runs
      { s2 with sessions := s2.sessions.del e.1 }) s

/-- MODEL_UNLOAD (R286, R324). With PENDING before cut-over the replacement ends, its command with code
CANCELLED (log 28). -/
def runModelUnload (c : Cmd) (pend : Bool) : State → State :=
  hostCommand (.modelUnload c pend) c 0x15 (paramCheck (.modelUnload c pend)) fun s =>
    match findModel s c.handle with
    | none => (s, .error 0x0401 [])
    | some i =>
      let m := s.model i
      if pend then
        match m.repl, m.pendB with
        | some r, _ =>
          if r.cut then (s, .error 0x0209 [])
          else
            let s1 := dropShadow s m
            let s2 := s1.onModel i fun m => { m with st := .committed, repl := none, pendB := none, pendLost := [] }
            let s3 := { s2 with sessions := s2.sessions.mapAll fun _ x =>
              if x.st != .closed && x.model == c.handle && x.epoch == r.newEpoch then { x with epoch := m.epoch } else x }
            (finish (undoBarrier s3 i m r) r.spool r.seq 0x0210 (toLe 2 m.epoch), .acceptedEnd [] 0 [])
        | none, some _ =>
          if m.st != .committed || modelBusy s i false then (s, .error 0x0209 [])
          else (s.onModel i fun m => { m with pendB := none, pendLost := [] }, .acceptedEnd [] 0 [])
        | none, none => (s, .error 0x0209 [])
      else if m.st == .replacing || m.st == .staging || modelBusy s i false ||
          s.sessions.any (fun x => x.2.st != .closed && (x.2.model == c.handle || x.2.draft == some c.handle)) ||
          s.pipe.entries.any (fun e => e.model == i) ||
          s.adapters.any (fun x => (x.2.resident || x.2.cmd.isSome) && x.2.model == c.handle) then
        (s, .error 0x0209 [])
      else
        ((dropForeign (dropTiles s i) i).onModel i fun m => { Model.init with gen := m.gen, used := true }, .acceptedEnd [] 0 [])

def execModelUnload (c : Cmd) (pend : Bool) (s : State) : Host.Outcome State Fault Refusal :=
  guarded c.wf s (runModelUnload c pend s)

/-! The live panel map (R323, R325–R328, R406). -/

/-- Whether a panel holds weights, or is under write. -/
def panelHolds (s : State) (p : Nat) : Bool := (List.range 8).any fun i => (s.tileAt (8 * p + i)).holds.isSome
def panelUnder (s : State) (p : Nat) : Bool := (List.range 8).any fun i => (s.tileAt (8 * p + i)).under.isSome

/-- Place of a panel in its die's panel-map order. -/
def panelPlace (s : State) (p : Nat) : Nat := (liveOrder s (panelDie p)).findIdx (· == p % 2048)

/-- Whether a panel is a spare: it lies past the in-service places and is not retired. -/
def isSpare (s : State) (p : Nat) : Bool :=
  !s.arr.retired.contains p && decide (inService s (panelDie p) ≤ panelPlace s p)

/-- STATE of a panel in the map: 0 free, 1 holding, 2 under write, 3 spare, 4 retired (R326). -/
def panelState (s : State) (p : Nat) : Nat :=
  if s.arr.retired.contains p then 4 else if panelUnder s p then 2 else if panelHolds s p then 1
  else if isSpare s p then 3 else 0

/-- Whether an outstanding PANEL_REMAP names a panel. -/
def remapNames (s : State) (p : Nat) : Bool :=
  s.spools.any fun e => e.2.out.any fun o => match o.job with
    | .remap a b => a == p || b == p
    | _ => false

/-- Whether a panel is covered by a replacement: of a masked unit, or of a shadow run (R323). -/
def replCovers (s : State) (p : Nat) : Bool :=
  s.models.any fun e => match e.2.repl with
    | none => false
    | some r => r.mask.any fun u => match e.2.units.find u with
      | none => false
      | some pl =>
        (unitTiles s e.2.bytes u pl.keel pl.first).any (fun t => t.1 / 8 == p) ||
        match r.units.find u with
        | none => false
        | some ru => (unitTiles s e.2.bytes u pl.keel ru.first).any fun t => t.1 / 8 == p

/-- The refusals that PANEL_RETIRE and PANEL_REMAP share (R323, R406). -/
def panelBusy (s : State) (p : Nat) : Bool := panelUnder s p || remapNames s p || replCovers s p

/-- PANEL_RETIRE (R328, R405). -/
def runPanelRetire (c : Cmd) (p : Nat) : State → State :=
  hostCommand (.panelRetire c p) c 0x16 (paramCheck (.panelRetire c p)) fun s =>
    if panelBusy s p || (panelState s p != 0 && panelState s p != 3) then (s, .error 0x020C [])
    else (atEdge s [.retire p, .finish c.spool c.seq 0 []], .running .tick)

def execPanelRetire (c : Cmd) (p : Nat) (s : State) : Host.Outcome State Fault Refusal :=
  guarded c.wf s (runPanelRetire c p s)

/-- The slot that a panel is bound to, if any. -/
def panelSlot (s : State) (p : Nat) : Option Nat :=
  leastBelow (keelSlots s (panelKeel p)) fun i => slotPanel s (panelKeel p) i == some p

/-- The records of PANEL_REMAP with READ for one die (R326); a spare stays one until its exchange, though it is written before
(R327). -/
def mapRecords (s : State) (d : Nat) : List Byte :=
  let ps := (liveOrder s d).map fun ph => d * 2048 + ph
  let retired := ps.countP s.arr.retired.contains
  let spare := ps.countP (isSpare s)
  toLe 2 d ++ toLe 2 (ps.length - spare - retired) ++ toLe 2 spare ++ toLe 2 retired ++
  ps.flatMap fun p => toLe 4 (p % 2048 + panelState s p * 2048 + (panelSlot s p).getD 0x1FFF * 65536)

/-- The lowest spare of a die. -/
def lowestSpare (s : State) (d : Nat) : Option Nat :=
  (leastBelow 1856 fun ph => isSpare s (d * 2048 + ph) && panelState s (d * 2048 + ph) == 3).map fun ph => d * 2048 + ph

/-- The epoch of the copy of a unit in force: the first until MODEL_COMMIT opens it (R309, R327). -/
def unitEpoch (m : Model) (u : Nat) : Nat :=
  if m.st = .placed || m.st = .written then 1 else ((m.units.find u).map UnitPl.epoch).getD 0

/-- What the tiles of a panel hold or should hold: the tile records that units place on it (R300). -/
def panelRecords (s : State) (p : Nat) : List (Nat × TileSrc) :=
  s.models.flatMap fun e =>
    if !isPlaced e.2 then [] else
    ((modelTiles s e.2).filter fun t => t.1 / 8 == p).map fun t =>
      (t.1 % 8, { model := e.1, unit := t.2.1, record := t.2.2, epoch := unitEpoch e.2 t.2.1 })

/-- PANEL_REMAP (R326–R328, R405, R406). -/
def runPanelRemap (c : Cmd) (mode p : Nat) (sp : W32) (addr : Nat) : State → State :=
  hostCommand (.panelRemap c mode p sp addr) c 0x17 (paramCheck (.panelRemap c mode p sp addr)) fun s =>
    if mode = 1 then
      let b := (maskBits p 32).flatMap (mapRecords s)
      (s, .accepted [] (.output [(addr, b)] (toLe 4 b.length)))
    else
      let named := if sp = noHandle then lowestSpare s (panelDie p) else some sp.toNat
      match named with
      | none => (s, .error 0x0308 [])
      | some q =>
        if lowestSpare s (panelDie p) = none then (s, .error 0x0308 [])
        else if panelBusy s p || panelBusy s q || panelDie q != panelDie p || panelState s q != 3 ||
            (panelState s p != 0 && panelState s p != 1) then (s, .error 0x020C [])
        else if panelState s p = 0 then
          (atEdge s [.remap p q, .finish c.spool c.seq 0 (toLe 4 q)], .accepted [] (.remap p q))
        else
          ((panelRecords s p).foldl (fun s x => queueWrite s (8 * q + x.1) x.2) s, .accepted [] (.remap p q))

def execPanelRemap (c : Cmd) (mode p : Nat) (sp : W32) (addr : Nat) (s : State) :
    Host.Outcome State Fault Refusal :=
  guarded c.wf s (runPanelRemap c mode p sp addr s)

/-- Whether a tile of the spare failed because the record of the weights to move is MASTER_LOST (R298, R308). -/
def spareLost (s : State) (p q : Nat) : Bool :=
  (List.range 8).any fun i => (s.tileAt (8 * q + i)).fail &&
    (s.tileAt (8 * p + i)).holds.any fun x => recordLost (s.model x.model) x.epoch x.unit x.record

/-- Every PANEL_REMAP whose spare is written and calibrated makes its exchange at this edge (R327); `acts` are the changes of the
edge, among them the exchange of a panel that was free. -/
def settleRemaps (acts : List EdgeAct) (s : State) : State :=
  (s.spools.flatMap fun e => e.2.out.filterMap fun o => match o.job with
    | .remap p q => if o.accepted then some (e.1, o.seq, p, q) else none
    | _ => none).foldl
    (fun s w =>
      let p := w.2.2.1
      let q := w.2.2.2
      if panelUnder s q || (s.panelAt q).fresh || acts.contains (.remap p q) then s
      else if panelHolds s p && (!(s.panelAt q).cal || (List.range 8).any (fun i => (s.tileAt (8 * q + i)).fail)) then
        finish s w.1 w.2.1 (if spareLost s p q then 0x0502 else 0x0503) (toLe 4 p)
      else atEdge s [.remap p q, .finish w.1 w.2.1 0 (toLe 4 q)])
    s

/-- Exchange a panel and a spare of its die: places, slot and weights; the named panel retires and its
redundancy entries lapse (R327). -/
def exchangePanels (s : State) (p q : Nat) : State :=
  let d := panelDie p
  let swap := fun ph => if ph = p % 2048 then q % 2048 else if ph = q % 2048 then p % 2048 else ph
  let s1 := s.onArr fun a =>
    { a with places := a.places.set d ((liveOrder s d).map swap), retired := a.retired ++ [p] }
  (List.range 8).foldl (fun s i => s.onTile (8 * p + i) fun x => { x.emptied with red := [] }) s1

/-- Retire a panel (R328). -/
def retirePanel (s : State) (p : Nat) : State := s.onArr fun a => { a with retired := a.retired ++ [p] }

end Sys2Proof.Machine
end

