-- ==== Sys2Proof/Machine/Calib.lean ====
section
/-!
DEFINITION. The calibration, trim, redundancy and refresh commands (R86–R99, R105, R417–R419) and the view of
a panel that they share with the service operations.
-/
namespace Sys2Proof.Machine

/-! What a panel holds. -/

/-- The module tile numbers of a panel (R18). -/
def panelTiles (p : Nat) : List Nat := (List.range 8).map fun i => 8 * p + i

/-- Whether a tile holds weights. -/
def tileHolds (s : State) (t : Nat) : Bool := (s.tileAt t).holds.isSome

/-- The panels that hold weights, ascending. -/
def holdingPanels (s : State) : List Nat :=
  distinct ((s.arr.tiles.filter fun e => e.2.holds.isSome).map fun e => e.1 / 8)

/-- The bundle that a written tile's record comes from: that of the epoch that the tile holds (R323). -/
def srcBundle (s : State) (src : TileSrc) : List Byte := unitBundle (s.model src.model) src.epoch src.unit

/-- The tile record of a written tile, and its format. -/
def srcRecord (s : State) (src : TileSrc) : List Byte := tileRecord (unitSection (srcBundle s src) src.unit) src.record
def srcFormat (s : State) (src : TileSrc) : Nat := recordFormat (unitSection (srcBundle s src) src.unit) src.record

/-- Whether the record of what a tile holds is refused for use (R298). -/
def sourceLost (s : State) (src : TileSrc) : Bool := recordLost (s.model src.model) src.epoch src.unit src.record

/-- A correction of a panel: identity where none has been measured (R84). -/
def panelO (p : Panel) (c : Nat) : F16 := p.o.getD c 0
def panelGc (p : Panel) (c : Nat) : F16 := p.gc.getD c 0x3C00#16
def panelGt (p : Panel) (t : Nat) : F16 := p.gt.getD t 0x3C00#16

/-- Whether a slot lies in the range of a unit of a stage. -/
def unitSlot (m : Model) (r : StageRec) (slot : Nat) : Bool :=
  (stageUnits r).any fun u => match m.units.find u with
    | none => false
    | some pl => decide (pl.first ≤ slot) && decide (slot < pl.first + pl.count)

/-- The first stage of a keel, by module stage index, that a test selects. -/
def findStage (s : State) (k : Nat) (f : Model → StageRec → Bool) : Option Nat :=
  s.models.findSome? fun e =>
    if isPlaced e.2 then (e.2.stages.find? fun r => r.keel == k && f e.2 r).map fun r => e.2.base + r.stage else none

/-- The module stage index of the stage that a panel lies in: the stage whose unit has it, otherwise the stage whose slot
range has it (R320, R448, R464, R565). -/
def panelStage (s : State) (p : Nat) : Option Nat :=
  match panelSlot s p with
  | none => none
  | some slot =>
    (findStage s (panelKeel p) fun m r => unitSlot m r slot) <|>
    (findStage s (panelKeel p) fun _ r => decide (r.slotFirst ≤ slot) && decide (slot < r.slotFirst + r.slotCount))

/-- Whether a panel is under write. -/
def panelWriting (s : State) (p : Nat) : Bool := panelUnder s p

/-- The state that CAL_RUN, CAL_READ and CAL_WRITE need: weights held, no write under way (R419). -/
def calReady (s : State) (p : Nat) : Bool := panelHolds s p && !panelUnder s p

/-! CAL_RUN, CAL_READ, CAL_WRITE (R86, R418, R419). -/

/-- CAL_RUN: the panels it names are recalibrated in the next available service slots. -/
def runCalRun (c : Cmd) (panel : W32) (keels : Nat) : State → State :=
  hostCommand (.calRun c panel keels) c 0x50 (paramCheck (.calRun c panel keels)) fun s =>
    let ps := if panel = noHandle then (holdingPanels s).filter fun p => bitOf keels (panelKeel p)
      else [panel.toNat]
    if ps.all (calReady s) then
      (ps.foldl (fun s p => s.onPanel p fun x => { x with calForced := true }) s, .accepted [] (.calRun ps 0 0 0))
    else (s, .error 0x020C [])

def execCalRun (c : Cmd) (panel : W32) (keels : Nat) (s : State) : Host.Outcome State Fault Refusal :=
  guarded c.wf s (runCalRun c panel keels s)

/-- A calibration record (R418). -/
def calRecord (s : State) (p : Nat) : List Byte :=
  let x := s.panelAt p
  toLe 4 p ++ zeros 4 ++ toLe 8 s.now.toNat ++
  ((List.range 1024).flatMap fun c => toLe 2 (panelO x c).toNat) ++
  ((List.range 1024).flatMap fun c => toLe 2 (panelGc x c).toNat) ++
  (List.range 8).flatMap fun t => toLe 2 (panelGt x t).toNat

/-- CAL_READ. -/
def runCalRead (c : Cmd) (panel addr : Nat) : State → State :=
  hostCommand (.calRead c panel addr) c 0x51 (paramCheck (.calRead c panel addr)) fun s =>
    if calReady s panel then outputTo s c addr (calRecord s panel) (toLe 8 s.now.toNat)
    else (s, .error 0x020C [])

def execCalRead (c : Cmd) (panel addr : Nat) (s : State) : Host.Outcome State Fault Refusal :=
  guarded c.wf s (runCalRead c panel addr s)

/-- A list of FP16 values in a record. -/
def halfs (b : List Byte) (off n : Nat) : List F16 :=
  (List.range n).map fun i => BitVec.ofNat 16 (le b (off + 2 * i) 2)

/-- A finite FP16 value above 0. -/
def halfPos (x : F16) : Bool := f16IsFin x && !x.msb && x != 0

/-- A calibration record that CAL_WRITE takes (R418). -/
def calRecordOk (b : List Byte) : Bool :=
  zeroAt b 4 4 && (halfs b 16 1024).all f16IsFin && (halfs b 2064 1024).all halfPos && (halfs b 4112 8).all halfPos

/-- CAL_WRITE: the values wait for the seal of a tick in which the panel runs no product (R86). A PANEL that
names no installed panel is refused with BAD_PARAMETER (log 29). -/
def runCalWrite (c : Cmd) (addr : Nat) : State → State :=
  hostCommand (.calWrite c addr) c 0x52 (paramCheck (.calWrite c addr)) fun s =>
    match bufRead s c addr 4128 with
    | none => (s, .error 0x0501 [])
    | some (b, s) =>
      let p := le b 0 4
      if !panelOk p then (s, .error 0x0105 [])
      else if !calRecordOk b then (s, .error 0x0113 [])
      else if !calReady s p then (s, .error 0x020C [])
      else
        (atEdge s [.corrections p (halfs b 16 1024) (halfs b 2064 1024) (halfs b 4112 8) [] true,
                   .calWriteDone c.spool c.seq p], .running .tick)

def execCalWrite (c : Cmd) (addr : Nat) (s : State) : Host.Outcome State Fault Refusal :=
  guarded c.wf s (runCalWrite c addr s)

/-! Trims (R87–R94). -/

/-- The 1,048 trim entries of a panel that the reset load brought: the factory's, or 0 where the factory record failed its CRC
(R89, R544). -/
def loadedTrims (s : State) (p : Nat) : List Nat :=
  if s.boot.trimZero.contains p then List.replicate 1048 0
  else (List.range 1048).map fun n => (Config.factoryTrim p n).toNat

/-- The trim entries of a panel: written by the host, or those of the reset load. -/
def trimsOf (s : State) (p : Nat) : List Nat := (s.panelAt p).trims.getD (loadedTrims s p)

/-- Whether the host has changed a panel's trims since the reset load (R91). -/
def trimsChanged (s : State) (p : Nat) : Bool :=
  match (s.panelAt p).trims with
  | some l => l != loadedTrims s p
  | none => false

/-- A trim record (R90, R91). -/
def trimRecord (s : State) (p : Nat) : List Byte :=
  let t := trimsOf s p
  let host := trimsChanged s p
  let temp := if (s.panelAt p).trims.isSome then (s.panelAt p).trimTemp else (Config.factoryTemp p).toNat
  let head := toLe 4 p ++ toLe 2 1 ++ toLe 2 (b2n (!host)) ++ toLe 2 temp ++ zeros 2
  let body := (List.range 524).flatMap fun g => toLe 3 (t.getD (2 * g) 0 + 4096 * t.getD (2 * g + 1) 0)
  head ++ toLe 4 (crc32c (head ++ body)) ++ body

/-- The installed panels from a number upward, at most `n` of them (R417). -/
def panelsFrom (first n : Nat) : List Nat := (((List.range 65536).drop first).filter panelOk).take n

/-- TRIM_READ (R91). -/
def runTrimRead (c : Cmd) (first count addr : Nat) : State → State :=
  hostCommand (.trimRead c first count addr) c 0x53 (paramCheck (.trimRead c first count addr)) fun s =>
    let ps := panelsFrom first count
    (s, .accepted [] (.output [(addr, ps.flatMap (trimRecord s))] (toLe 4 ps.length)))

def execTrimRead (c : Cmd) (first count addr : Nat) (s : State) : Host.Outcome State Fault Refusal :=
  guarded c.wf s (runTrimRead c first count addr s)

/-- A trim record that TRIM_WRITE takes (R90, R92). -/
def trimRecordOk (r : List Byte) : Bool :=
  panelOk (le r 0 4) && le r 4 2 == 1 && decide (le r 6 2 < 2) && zeroAt r 10 2 &&
  le r 12 4 == crc32c (r.take 12 ++ r.drop 16)

/-- The trim entries of a record. -/
def trimEntries (r : List Byte) : List Nat :=
  (List.range 524).flatMap fun g => let w := le r (16 + 3 * g) 3
    [w % 4096, w / 4096]

/-- A panel that a model's replacement has given weights of the new epoch (R93). -/
def replHolds (s : State) (p : Nat) : Bool :=
  (panelTiles p).any fun t =>
    let new := fun (o : Option TileSrc) => match o with
      | none => false
      | some src => match (s.model src.model).repl with
        | none => false
        | some r => r.newEpoch == src.epoch
    new (s.tileAt t).holds || new (s.tileAt t).under

/-- TRIM_WRITE (R92–R94). -/
def runTrimWrite (c : Cmd) (addr count : Nat) : State → State :=
  hostCommand (.trimWrite c addr count) c 0x54 (paramCheck (.trimWrite c addr count)) fun s =>
    match bufRead s c addr (1588 * count) with
    | none => (s, .error 0x0501 [])
    | some (b, s) =>
      let rs := (List.range count).map fun i => slice b (1588 * i) 1588
      let ps := rs.map fun r => le r 0 4
      if !rs.all trimRecordOk then (s, .error 0x010D [])
      else if ps.any (fun p => (panelStage s p).isSome || replHolds s p) then (s, .error 0x020C [])
      else
        (atEdge s ((rs.map fun r => EdgeAct.trims (le r 0 4) (trimEntries r) (le r 8 2)) ++
                   [.finish c.spool c.seq 0 []]), .accepted [] .tick)

def execTrimWrite (c : Cmd) (addr count : Nat) (s : State) : Host.Outcome State Fault Refusal :=
  guarded c.wf s (runTrimWrite c addr count s)

/-! Redundancy (R95–R99). -/

/-- Whether an entry is VALID, and its COLUMN. -/
def redValid (e : Nat) : Bool := bitOf e 15
def redColumn (e : Nat) : Nat := e % 4096

/-- A redundancy record that REDUNDANCY_LOAD takes (R96, R97). -/
def redRecordOk (r : List Byte) : Bool :=
  let es := (List.range 16).map fun i => le r (4 + 2 * i) 2
  let cols := (es.filter redValid).map redColumn
  tileOk (le r 0 4) && es.all (fun e => bitsOf e 12 3 == 0) && cols.all (fun k => decide (k ≤ 2047)) &&
  (distinct cols).length == cols.length

/-- One record applied: a tile that holds weights has its newly valid spares written first; otherwise the tile takes the map at
the next seal, and a map that still waited is superseded (R98). That an entry loaded with VALID = 0 ends its substitution at the
next seal, whatever products the tile runs in that tick, is the model's choice (log 102). -/
def loadRedundancy (s : State) (t : Nat) (es : List Nat) : State :=
  let old := (s.tileAt t).red
  let fresh := (List.range 16).any fun i => redValid (es.getD i 0) && es.getD i 0 != old.getD i 0
  if tileHolds s t && fresh then s.onTile t fun x => { x with redWant := some es }
  else atEdge (s.onTile t fun x => { x with redWant := none }) [.substitution t es]

/-- REDUNDANCY_LOAD (R96–R98); its EVENT follows the last substitution. -/
def runRedundancyLoad (c : Cmd) (addr count : Nat) : State → State :=
  hostCommand (.redundancyLoad c addr count) c 0x55 (paramCheck (.redundancyLoad c addr count)) fun s =>
    match bufRead s c addr (36 * count) with
    | none => (s, .error 0x0501 [])
    | some (b, s) =>
      let rs := (List.range count).map fun i => slice b (36 * i) 36
      if !rs.all redRecordOk then (s, .error 0x010E [])
      else
        (rs.foldl (fun s r => loadRedundancy s (le r 0 4) ((List.range 16).map fun i => le r (4 + 2 * i) 2)) s,
         .accepted [] (.redundancy (rs.map fun r => le r 0 4)))

def execRedundancyLoad (c : Cmd) (addr count : Nat) (s : State) : Host.Outcome State Fault Refusal :=
  guarded c.wf s (runRedundancyLoad c addr count s)

/-- Whether a substitution of a tile is still to take effect. -/
def redundancyOpen (s : State) (t : Nat) : Bool :=
  (s.tileAt t).redWant.isSome || s.tick.acts.any fun a => match a with
    | .substitution u _ => u == t
    | _ => false

/-- End every REDUNDANCY_LOAD whose substitutions have all taken effect. -/
def settleRedundancy (s : State) : State :=
  (s.spools.flatMap fun e => e.2.out.filterMap fun o => match o.job with
    | .redundancy ts => some (e.1, o.seq, ts)
    | _ => none).foldl
    (fun s w => if w.2.2.any (redundancyOpen s) then s else finish s w.1 w.2.1 0 []) s

/-- Change the panels left of every CAL_RUN that names a panel. -/
def calRunNote (s : State) (p : Nat) (agreed disagreed skipped : Nat) : State :=
  { s with spools := s.spools.mapAll fun _ q =>
      { q with out := q.out.map fun o => match o.job with
          | .calRun l a d k =>
            if l.contains p then
              { o with job := .calRun (l.filter fun x => !(x == p)) (a + agreed) (d + disagreed) (k + skipped) }
            else o
          | _ => o } }

/-- Panels that some CAL_RUN still names. -/
def calRunPanels (s : State) : List Nat :=
  distinct (s.spools.flatMap fun e => e.2.out.flatMap fun o => match o.job with
    | .calRun l _ _ _ => l
    | _ => [])

/-- At an edge: panels that no longer hold weights or came under write are skipped, and every CAL_RUN with
nothing left ends (R417, R419). -/
def settleCalRuns (s : State) : State :=
  let s1 := ((calRunPanels s).filter fun p => !calReady s p).foldl
    (fun s p => (calRunNote s p 0 0 1).onPanel p fun x => { x with calForced := false }) s
  (s1.spools.flatMap fun e => e.2.out.filterMap fun o => match o.job with
    | .calRun [] a d k => some (e.1, o.seq, a, d, k)
    | _ => none).foldl
    (fun s w => finish s w.1 w.2.1 0 (toLe 4 w.2.2.1 ++ toLe 4 w.2.2.2.1 ++ toLe 4 w.2.2.2.2)) s1

/-! Refresh policy (R105). -/

/-- REFRESH_POLICY. -/
def runRefreshPolicy (c : Cmd) (dies divisor : Nat) : State → State :=
  hostCommand (.refreshPolicy c dies divisor) c 0x56 (paramCheck (.refreshPolicy c dies divisor)) fun s =>
    (atEdge s [.refresh dies divisor, .finish c.spool c.seq 0 []], .running .tick)

def execRefreshPolicy (c : Cmd) (dies divisor : Nat) (s : State) : Host.Outcome State Fault Refusal :=
  guarded c.wf s (runRefreshPolicy c dies divisor s)

end Sys2Proof.Machine
end

