-- ==== Sys2Proof/Machine/Faults.lean ====
section
/-!
DEFINITION. The test, fault-log, exposure, capture and check-policy commands (R417, R420, R435, R448–R456,
R460–R463).
-/
namespace Sys2Proof.Machine

/-- TEST_PANEL: the panel is tested in a service slot; a panel without weights takes generated images first
(R454). -/
def runTestPanel (c : Cmd) (panel : Nat) : State → State :=
  hostCommand (.testPanel c panel) c 0x60 (paramCheck (.testPanel c panel)) fun s =>
    let s1 := if panelHolds s panel then s
      else (panelTiles panel).foldl (fun s t => s.onTile t fun x => { x with testImage := true }) s
    (s1, .accepted [] (.testPanel panel))

def execTestPanel (c : Cmd) (panel : Nat) (s : State) : Host.Outcome State Fault Refusal :=
  guarded c.wf s (runTestPanel c panel s)

/-- TEST_CORE (R454). -/
def runTestCore (c : Cmd) (core : Nat) : State → State :=
  hostCommand (.testCore c core) c 0x61 (paramCheck (.testCore c core)) fun s =>
    (s, .accepted [] (.testCore core))

def execTestCore (c : Cmd) (core : Nat) (s : State) : Host.Outcome State Fault Refusal :=
  guarded c.wf s (runTestCore c core s)

/-- Whether a keel holds a stage of a placed model. -/
def keelStaged (s : State) (k : Nat) : Bool := s.models.any fun e => isPlaced e.2 && e.2.stages.any fun r => r.keel == k

/-- Whether a BIST_RUN is outstanding. -/
def bistBusy (s : State) : Bool :=
  s.spools.any fun e => e.2.out.any fun o => match o.job with
    | .bist _ => true
    | _ => false

/-- BIST_RUN (R420, R456). -/
def runBistRun (c : Cmd) (keels : Nat) : State → State :=
  hostCommand (.bistRun c keels) c 0x62 (paramCheck (.bistRun c keels)) fun s =>
    if bistBusy s || (maskBits keels 8).any (keelStaged s) then (s, .error 0x0211 [])
    else (s, .accepted [] (.bist keels))

def execBistRun (c : Cmd) (keels : Nat) (s : State) : Host.Outcome State Fault Refusal :=
  guarded c.wf s (runBistRun c keels s)

/-- A fault record as its 32 bytes (R461). -/
def faultBytes (r : FaultRec) : List Byte :=
  toLe 4 r.index ++ toLe 2 r.kind ++ toLe 1 r.source ++ toLe 1 (b2n r.recovered) ++ toLe 8 r.tick.toNat ++
  toLe 4 r.location ++ toLe 4 r.session.toNat ++ toLe 4 r.position.toNat ++ toLe 4 r.detail

/-- The index of the oldest record held; the next index where none is. -/
def oldestFault (s : State) : Nat :=
  match s.chk.log with
  | [] => s.chk.next
  | r :: _ => r.index

/-- Where FAULT_READ starts: FIRST, or the oldest record where FIRST is older (R463). Indices wrap at 2^32,
so "older" is read within half the range (log 30). -/
def faultStart (s : State) (first : Nat) : Nat :=
  let ahead := (first + 2 ^ 32 - oldestFault s) % 2 ^ 32
  if ahead < 2 ^ 31 then first else oldestFault s

/-- FAULT_READ (R463). -/
def runFaultRead (c : Cmd) (addr first count : Nat) : State → State :=
  hostCommand (.faultRead c addr first count) c 0x63 (paramCheck (.faultRead c addr first count)) fun s =>
    let start := faultStart s first
    let rs := (s.chk.log.drop ((start + 2 ^ 32 - oldestFault s) % 2 ^ 32)).take count
    outputTo s c addr (rs.flatMap faultBytes) (toLe 4 rs.length ++ toLe 4 ((start + rs.length) % 2 ^ 32))

def execFaultRead (c : Cmd) (addr first count : Nat) (s : State) : Host.Outcome State Fault Refusal :=
  guarded c.wf s (runFaultRead c addr first count s)

/-- The exposure records that name a panel: those of its stage sealed after its last good spot check (R449). -/
def exposureOf (s : State) (p : Nat) : List ExpRec :=
  match panelStage s p with
  | none => []
  | some st => (s.pipe.expo.get [] st).filter fun r => decide ((s.panelAt p).good.toNat < r.tick.toNat)

/-- An exposure record as its 16 bytes (R448). -/
def expBytes (r : ExpRec) : List Byte :=
  toLe 4 r.handle.toNat ++ toLe 4 r.first ++ toLe 2 r.count ++ toLe 1 r.stage ++ zeros 1 ++ toLe 4 r.tick.toNat

/-- EXPOSURE_READ (R449). -/
def runExposureRead (c : Cmd) (panel count addr : Nat) : State → State :=
  hostCommand (.exposureRead c panel count addr) c 0x64 (paramCheck (.exposureRead c panel count addr)) fun s =>
    let rs := (exposureOf s panel).take count
    outputTo s c addr (rs.flatMap expBytes) (toLe 4 rs.length)

def execExposureRead (c : Cmd) (panel count addr : Nat) (s : State) : Host.Outcome State Fault Refusal :=
  guarded c.wf s (runExposureRead c panel count addr s)

/-- A capture as its 1,024 bytes, one code per row (R435). -/
def captureBytes (x : Capture) : List Byte := (List.range 1024).map fun r => BitVec.ofInt 8 (x.codes.getD r 0)

/-- CAPTURE_READ; without a capture the buffer is left as it is (log 31). -/
def runCaptureRead (c : Cmd) (tile addr : Nat) : State → State :=
  hostCommand (.captureRead c tile addr) c 0x65 (paramCheck (.captureRead c tile addr)) fun s =>
    match s.chk.captures.find tile with
    | none => (s, .done [0])
    | some x => outputTo s c addr (captureBytes x) [1]

def execCaptureRead (c : Cmd) (tile addr : Nat) (s : State) : Host.Outcome State Fault Refusal :=
  guarded c.wf s (runCaptureRead c tile addr s)

/-- CHECK_POLICY (R451). -/
def runCheckPolicy (c : Cmd) (panel pol : Nat) : State → State :=
  hostCommand (.checkPolicy c panel pol) c 0x66 (paramCheck (.checkPolicy c panel pol)) fun s =>
    (atEdge s [if pol = 3 then .clearSuspect panel else .policy panel pol, .finish c.spool c.seq 0 []],
     .running .tick)

def execCheckPolicy (c : Cmd) (panel pol : Nat) (s : State) : Host.Outcome State Fault Refusal :=
  guarded c.wf s (runCheckPolicy c panel pol s)

/-- Clear the pattern-suspect marks of a panel's tiles and free their captures (R435, R436, R451). -/
def clearSuspect (s : State) (p : Nat) : State :=
  let ts := panelTiles p
  (ts.foldl (fun s t => s.onTile t fun x => { x with suspect := false, raised := false }) s).onChk fun k =>
    { k with captures := k.captures.filter fun e => !ts.contains e.1, lost := k.lost.filter fun t => !ts.contains t }

/-- Captures held on a keel. -/
def keelCaptures (s : State) (k : Nat) : Nat := s.chk.captures.countP fun e => tileKeel e.1 == k

/-- Capture an operand for a tile: its first is kept; in a full store none is, and LOST is set (R435). -/
def capture (s : State) (t : Nat) (codes : List Int) : State :=
  if (s.chk.captures.find t).isSome then s
  else if 4096 ≤ keelCaptures s (tileKeel t) then
    s.onChk fun k => { k with lost := if k.lost.contains t then k.lost else k.lost ++ [t] }
  else s.onChk fun k => { k with captures := k.captures.set t { tick := s.now, codes := codes } }

/-- Mark a tile pattern-suspect. -/
def markSuspect (s : State) (t : Nat) : State := s.onTile t fun x => { x with suspect := true }

/-- End the outstanding commands whose job satisfies a test. -/
def finishJobs (s : State) (p : Job → Bool) (code : Nat) (res : List Byte) : State :=
  (s.spools.flatMap fun e => (e.2.out.filter fun o => p o.job).map fun o => (e.1, o.seq)).foldl
    (fun s w => finish s w.1 w.2 code res) s

/-- BIST_RUN_DONE: the run ends; failing keels are named (R456). -/
def bistRunDone (failed : List Nat) (s : State) : State :=
  let bad := fun (ks : Nat) => (List.range 8).filter fun k => bitOf ks k && failed.contains k
  (s.spools.flatMap fun e => e.2.out.filterMap fun o => match o.job with
    | .bist ks => some (e.1, o.seq, ks)
    | _ => none).foldl
    (fun s w =>
      let f := bad w.2.2
      finish s w.1 w.2.1 (if f.isEmpty then 0 else 0x0504) (toLe 1 ((f.map fun k => 2 ^ k).sum))) s

def execBistRunDone (failed : List Nat) (s : State) : Host.Outcome State Fault Refusal :=
  guarded (Instr.wf (.bistRunDone failed)) s (bistRunDone failed s)

end Sys2Proof.Machine
end

