-- ==== Sys2Proof/Machine/Image.lean ====
section
/-!
DEFINITION. The option image (R546–R553): its layout, when a copy is valid, which copy boot chooses, the policy
in force, and the thermal block of R522.
-/
namespace Sys2Proof.Machine

/-- A thermal block within the ranges of R522. -/
def thermalOk (b : List Byte) : Bool :=
  let w := byteAt b 0
  let h := byteAt b 1
  let l := byteAt b 2
  let t := byteAt b 3
  decide (30 ≤ w) && decide (w ≤ 55) && decide (w + 5 ≤ h) && decide (h ≤ 70) && decide (h + 5 ≤ l) &&
  decide (l ≤ 85) && decide (l + 5 ≤ t) && decide (t ≤ 95) && decide (1 ≤ byteAt b 4) && decide (byteAt b 4 ≤ 8) &&
  decide (25 ≤ byteAt b 5) && decide (byteAt b 5 + 5 ≤ t) && zeroAt b 6 2 && decide (le b 8 2 ≤ 960) &&
  decide (le b 10 2 ≤ 1120) && decide (32 ≤ le b 12 2) && decide (le b 12 2 ≤ 480) && zeroAt b 14 18

/-! Fields of an image (R546). -/

def imgEntries (b : List Byte) : Nat := le b 16 2
def imgVersion (b : List Byte) : Nat := le b 12 4
def imgSigned (b : List Byte) : Bool := bitOf (le b 10 2) 0
def imgKeyId (b : List Byte) : List Byte := slice b 24 64
def imgPolicy (b : List Byte) : List Byte := slice b 12800 1600
def imgEntry (b : List Byte) (i : Nat) : List Byte := slice b (256 + 12 * i) 12

/-- Policy fields. -/
def polMin (p : List Byte) : Nat := le p 4 4
def polImageKeys (p : List Byte) : List (List Byte) :=
  (List.range (min 4 (byteAt p 8))).map fun i => slice p (16 + 132 * i) 132
def polBundleKeys (p : List Byte) : List (List Byte) :=
  (List.range (min 8 (byteAt p 9))).map fun i => slice p (544 + 132 * i) 132

/-- The option entries of an image (R547): numbers ascending, defined, values in range. R121 names the test of its sum for
SET_OPTION and TICK_CONFIG only; an image whose allowances and period break it comes into force as it is (the model's choice, log
110). -/
def entriesOk (b : List Byte) : Bool :=
  (List.range (imgEntries b)).all fun i =>
    let e := imgEntry b i
    optInRange (le e 0 2) (le e 4 8) && zeroAt e 2 2 && (i == 0 || decide (le (imgEntry b (i - 1)) 0 2 < le e 0 2))

/-- MAGIC, VERSION, reserved fields, entries, thermal block and CRC (R546, R547, R549). -/
def imageLayoutOk (b : List Byte) : Bool :=
  b.length == 65536 && b.take 8 == [0x48, 0x59, 0x53, 0x4B, 0x41, 0x4F, 0x50, 0x54] && le b 8 2 == 1 &&
  decide (le b 10 2 < 2) && decide (imgEntries b ≤ 1024) && zeroAt b 18 6 && zeroAt b 220 36 &&
  zeroAt b (256 + 12 * imgEntries b) (12288 - 12 * imgEntries b) && decide (le b 12576 4 < 512) && zeroAt b 12580 220 &&
  decide (polFlags (imgPolicy b) < 8) && zeroAt (imgPolicy b) 10 6 && decide (byteAt (imgPolicy b) 8 ≤ 4) &&
  decide (byteAt (imgPolicy b) 9 ≤ 8) && zeroAt b 14400 51132 && (imgSigned b || zeroAt b 24 64) &&
  le b 65532 4 == crc32c (b.take 65532) && entriesOk b && thermalOk (slice b 12544 32)

/-- The digest that an image's signature covers (R546). -/
def imageSigned (b : List Byte) : List Byte := sha512 (overlay (overlay b 88 (zeros 132)) 65532 (zeros 4))

/-- The key of a list whose identifier is a digest. -/
def keyNamed (keys : List (List Byte)) (id : List Byte) : Option (List Byte) := keys.find? fun k => sha512 k == id

/-- The first check of R549 that an image fails: 0 valid, 2 CRC or layout, 3 signature, 4 unsigned. -/
def imageStatus (part : Part) (b : List Byte) : Nat :=
  if !imageLayoutOk b then 2
  else if imgSigned b then
    match keyNamed (polImageKeys (imgPolicy b)) (imgKeyId b) with
    | none => 3
    | some k => if Config.sigVerifies k (imageSigned b) (slice b 88 132) then 0 else 3
  else if bitOf (polFlags (imgPolicy b)) 0 && !part.signedOnly then 0 else 4

/-- The status of a copy, and the copy if it is valid. -/
def copyStatus (part : Part) (k : NvCopy) : Nat × Option (List Byte) :=
  match k with
  | .blank => (1, none)
  | .torn => (2, none)
  | .image b => let c := imageStatus part b
    (c, if c = 0 then some b else none)

/-- What boot chooses: A_STATUS, B_STATUS, IN_USE and the image (R550). `b` prefers copy B. -/
def chooseCopy (n : Nv) (b : Bool) : Nat × Nat × Nat × Option (List Byte) :=
  let (sa, ia) := copyStatus n.part n.copyA
  let (sb, ib) := copyStatus n.part n.copyB
  match ia, ib with
  | some x, some y =>
    if b then (if imgVersion y < polMin (imgPolicy x) then (sa, 5, 0, some x) else (sa, sb, 1, some y))
    else if imgVersion x < polMin (imgPolicy y) then (5, sb, 1, some y) else (sa, sb, 0, some x)
  | some x, none => (sa, sb, 0, some x)
  | none, some y => (sa, sb, 1, some y)
  | none, none => (sa, sb, 2, none)

/-- Whether either copy in NV flash is valid. -/
def anyCopyValid (n : Nv) : Bool := (copyStatus n.part n.copyA).2.isSome || (copyStatus n.part n.copyB).2.isSome

/-- Whether IMAGE_WRITE accepts an image (R552). -/
def imageAccepted (s : State) (b : List Byte) : Bool :=
  let p := policy s
  imageStatus s.nv.part b == 0 && decide (polMin p ≤ imgVersion b) &&
  (if imgSigned b then
     (keyNamed (polImageKeys p) (imgKeyId b)).isSome ||
     (s.boot.inUse == 2 && !anyCopyValid s.nv && (keyNamed (polImageKeys (imgPolicy b)) (imgKeyId b)).isSome)
   else bitOf (policyFlags s) 0)

/-- Whether a host-loaded image may be used: R549, and where a copy is valid, a key of the copy that R550 would
choose with copy A preferred (R551; log 32). Answers 0, or the status reported. -/
def hostImageStatus (s : State) (b : List Byte) : Nat :=
  let c := imageStatus s.nv.part b
  if c != 0 then c
  else
    match (chooseCopy s.nv false).2.2.2 with
    | none => 0
    | some x =>
      if imgSigned b && (keyNamed (polImageKeys (imgPolicy x)) (imgKeyId b)).isSome then 0 else 6

/-- The options an image gives, within the bin (R2, R547). -/
def imageOptions (part : Part) (b : List Byte) : Tbl Nat :=
  (List.range (imgEntries b)).foldl
    (fun t i => let e := imgEntry b i
      t.set (le e 0 2) (binLimit part (le e 0 2) (le e 4 8))) []

/-- Take an image, or the factory defaults, into force at bring-up step 5 (R539, R542, R546). -/
def loadImage (s : State) (inUse : Nat) (b : Option (List Byte)) : State :=
  let s1 := (s.onBoot fun k => { k with inUse := inUse, image := b }).onOpts fun _ =>
    { Opts.init with image := match b with
        | some x => imageOptions s.nv.part x
        | none => [] }
  let s2 := (s1.onThermal fun t => { t with block := match b with
      | some x => slice x 12544 32
      | none => defaultThermal }).onSupply fun u => { u with enable := match b with
      | some x => BitVec.ofNat 9 (le x 12576 4)
      | none => 0 }
  let s3 := s2.onTick fun t =>
    { t with role := opt s2 oTickRole, comp := opt s2 oTickInComp, period := opt s2 oTickPeriod,
             budget := binLimit s2.nv.part oActivePanels (opt s2 oActivePanels) }
  s3.onArr fun a => { a with dies := (List.range 32).foldl (fun d i =>
    d.set i { Die.init with divisor := opt s3 oRefreshDivisor }) a.dies }

end Sys2Proof.Machine
end

