-- ==== Sys2Proof/Machine/Security.lean ====
section
/-!
DEFINITION. The security and housekeeping commands (R421, R422, R523–R529, R552–R558).
-/
namespace Sys2Proof.Machine

/-- Models that a report lists: every index that is not free. -/
def reportModels (s : State) : List (Nat × Model) :=
  (s.models.filter fun e => e.2.st != .closed && e.2.st != .staging)

/-- LENGTH of a report (R557). -/
def reportLength (s : State) : Nat := 516 + 144 * (reportModels s).length

/-- STATE of a model record. -/
def modelStateCode (m : Model) : Nat :=
  match m.st with
  | .placed => 1
  | .written => 2
  | .committed => 3
  | .replacing => 4
  | _ => 0

/-- A model record of the report. -/
def modelRecord (i : Nat) (m : Model) : List Byte :=
  toLe 4 (modelHandle i m.gen).toNat ++ toLe 4 (bModel m.bytes) ++ toLe 1 (modelStateCode m) ++ zeros 1 ++
  toLe 2 m.epoch ++ zeros 4 ++ slice m.bytes 88 64 ++
  match m.pendB with
  | some (b, _) => slice b 88 64
  | none => zeros 64

/-- TRIM_DIGEST: the SHA-512 of every installed panel's trim record, ascending. -/
def trimDigest (s : State) : List Byte := sha512 ((panelsFrom 0 65536).flatMap (trimRecord s))

/-- A report without its signature. -/
def reportBody (s : State) (nonce : List Byte) : List Byte :=
  [0x48, 0x59, 0x53, 0x4B, 0x41, 0x41, 0x54, 0x54] ++ toLe 2 1 ++ toLe 2 (reportLength s) ++
  toLe 4 (reportModels s).length ++ toLe 8 s.nv.serial.toNat ++ toLe 4 (partInfo s.nv) ++
  toLe 4 s.boot.cause.toNat ++ toLe 8 s.now.toNat ++ (nonce ++ zeros 32).take 32 ++ toLe 1 s.boot.inUse ++ zeros 3 ++
  toLe 4 (imageVersion s) ++ imageDigest s ++ trimDigest s ++ (Config.factoryDigest ++ zeros 64).take 64 ++
  sha512 ((Config.identityPublic ++ zeros 132).take 132) ++ zeros 48 ++
  (reportModels s).flatMap fun e => modelRecord e.1 e.2

/-- The report (R557). -/
def report (s : State) (nonce : List Byte) : List Byte :=
  let b := reportBody s nonce
  b ++ (Config.sign (sha512 b) ++ zeros 132).take 132

/-- ATTEST: measured at the next edge (R557, R558). -/
def runAttest (c : Cmd) (addr limit : Nat) (nonce : List Byte) : State → State :=
  hostCommand (.attest c addr limit nonce) c 0x70 (paramCheck (.attest c addr limit nonce)) fun s =>
    if limit < reportLength s then (s, .error 0x0114 (toLe 8 (reportLength s)))
    else (atEdge s [.attest c.spool c.seq], .accepted [] (.attest addr nonce []))

def execAttest (c : Cmd) (addr limit : Nat) (nonce : List Byte) (s : State) : Host.Outcome State Fault Refusal :=
  guarded c.wf s (runAttest c addr limit nonce s)

/-- Take the measurements of an ATTEST at the edge. -/
def measureReport (s : State) (p : Nat) (seq : W32) : State :=
  onOut s p seq fun o => match o.job with
    | .attest a n _ => { o with job := .attest a n (report s n) }
    | _ => o

/-- An SPDM measurement block; none for a free index or any other number (R559). -/
def spdmBlock (s : State) (i : Nat) : List Byte :=
  match i with
  | 1 => imageDigest s
  | 2 => trimDigest s
  | 3 => (Config.factoryDigest ++ zeros 64).take 64
  | _ =>
    match (reportModels s).find? fun e => e.1 + 4 == i with
    | none => []
    | some e => slice e.2.bytes 88 64

/-- The measurement of an SPDM request, at the edge after it (R558, R559). -/
def measureSpdm (s : State) (i : Nat) (nonce : List Byte) : State :=
  let b := spdmBlock s i
  s.onBus fun x => { x with spdm := b, spdmSig := (Config.sign (sha512 (Config.spdmTranscript nonce b)) ++ zeros 132).take 132 }

/-- ATTEST_REPORT_DONE: the finished report is written, and ATTEST completes (R557, R386). -/
def attestReportDone (ok : Bool) (s : State) : State :=
  match (s.spools.flatMap fun e => e.2.out.filterMap fun o => match o.job with
    | .attest a _ (b :: r) => some (e.1, o, a, b :: r)
    | _ => none).head? with
  | none => s
  | some (p, o, a, b) =>
    if ok || (hdmOffset s a b.length).isSome then finish (bufWrite s (outIo o) a b) p o.seq 0 (toLe 4 b.length)
    else finish s p o.seq 0x0501 []

def execAttestReportDone (ok : Bool) (s : State) : Host.Outcome State Fault Refusal :=
  guarded (Instr.wf (.attestReportDone ok)) s (attestReportDone ok s)

/-- IMAGE_WRITE (R422, R552, R553): the erase pulse starts, and the copy is left invalid until its programming ends. -/
def runImageWrite (c : Cmd) (addr k : Nat) : State → State :=
  hostCommand (.imageWrite c addr k) c 0x71 (paramCheck (.imageWrite c addr k)) fun s =>
    if s.boot.imgJob.isSome then (s, .error 0x0211 [])
    else
      match bufRead s c addr 65536 with
      | none => (s, .acceptedEnd [] 0x0501 [])
      | some (b0, s) =>
        let b := b0.take 65536
        if !imageAccepted s b then (s, .acceptedEnd [] 0x0112 [])
        else
          let s1 := s.onBoot fun x =>
            { x with imageBusy := true, pulse := true,
                     imgJob := some { spool := c.spool, seq := c.seq, copy := k, bytes := b, pulses := 0 } }
          (s1.onNv fun n => if k = 0 then { n with copyA := .torn } else { n with copyB := .torn },
           .accepted [] .image)

def execImageWrite (c : Cmd) (addr k : Nat) (s : State) : Host.Outcome State Fault Refusal :=
  guarded c.wf s (runImageWrite c addr k s)

/-- At an edge, an IMAGE_WRITE between its pulses starts the next one: the erase and 256 pages in all (R553; log 47). -/
def nextPulse (s : State) : State :=
  s.onBoot fun x =>
    match x.imgJob with
    | some j => if j.pulses < 257 then { x with pulse := true } else x
    | none => x

/-- First 16 bytes of each key's identifier, in slot order; empty slots 0. -/
def keyPrefixes (keys : List (List Byte)) (slots : Nat) : List Byte :=
  (keys.flatMap fun k => (sha512 k).take 16) ++ zeros (16 * (slots - keys.length))

/-- The key block (R556). -/
def keyBlock (s : State) : List Byte :=
  let p := policy s
  let pub := (Config.identityPublic ++ zeros 132).take 132
  pub ++ toLe 1 (byteAt p 8) ++ toLe 1 (byteAt p 9) ++ zeros 2 ++ toLe 4 (policyFlags s) ++ toLe 4 (polMin p) ++
  keyPrefixes (polImageKeys p) 4 ++ keyPrefixes (polBundleKeys p) 8 ++ sha512 pub ++ zeros 112

/-- KEY_INFO (R556). -/
def runKeyInfo (c : Cmd) (addr : Nat) : State → State :=
  hostCommand (.keyInfo c addr) c 0x72 (paramCheck (.keyInfo c addr)) fun s => outputTo s c addr (keyBlock s) []

def execKeyInfo (c : Cmd) (addr : Nat) (s : State) : Host.Outcome State Fault Refusal := guarded c.wf s (runKeyInfo c addr s)

/-- A sequence descriptor that ADC_SEQUENCE takes (R523, R525). -/
def sequenceOk (b : List Byte) : Bool :=
  let n := byteAt b 0
  let t := byteAt b 1
  let d := le b 4 2
  decide (n ≤ 32) && decide (t ≤ 3) && zeroAt b 2 2 && zeroAt b 7 1 &&
  (if t = 1 then true else if t = 2 then decide (2 ≤ d) else d == 0) &&
  (if t = 3 then decide (byteAt b 6 < 8) else byteAt b 6 == 0) &&
  (List.range n).all fun i =>
    let e := le b (8 + 4 * i) 4
    e / 1024 == 0 && bitsOf e 6 2 == 0 && decide (e % 64 ≤ 60)

/-- The length of a sequence descriptor that lies in the HDM window: its header names COUNT entries (R525). -/
def sequenceBytes (s : State) (a : Nat) : Nat :=
  match hdmOffset s a 8 with
  | none => 8
  | some w => 8 + 4 * ((windowRead s w 1).headD 0).toNat

/-- ADC_SEQUENCE: the sequence applies from the next edge (R525). -/
def runAdcSequence (c : Cmd) (addr : Nat) : State → State :=
  hostCommand (.adcSequence c addr) c 0x80 (paramCheck (.adcSequence c addr)) fun s =>
    match bufRead s c addr (sequenceBytes s addr) with
    | none => (s, .error 0x0501 [])
    | some (b, s) =>
      if !sequenceOk b then (s, .error 0x0105 [])
      else (atEdge s [.adcSeq (b.take (8 + 4 * byteAt b 0)), .finish c.spool c.seq 0 []], .running .tick)

def execAdcSequence (c : Cmd) (addr : Nat) (s : State) : Host.Outcome State Fault Refusal :=
  guarded c.wf s (runAdcSequence c addr s)

/-- A channel's result as ADC_READ gives it (R529). -/
def adcValue (x : AdcChan) : Nat :=
  x.code + b2n x.highHit * 4096 + b2n x.lowHit * 8192 + b2n x.opened * 16384 + b2n x.valid * 32768

/-- ADC_READ (R529). -/
def runAdcRead (c : Cmd) (chans addr : Nat) : State → State :=
  hostCommand (.adcRead c chans addr) c 0x81 (paramCheck (.adcRead c chans addr)) fun s =>
    outputTo s c addr ((maskBits chans 64).flatMap fun ch => toLe 2 (adcValue (s.adc.chans.get AdcChan.init ch))) []

def execAdcRead (c : Cmd) (chans addr : Nat) (s : State) : Host.Outcome State Fault Refusal :=
  guarded c.wf s (runAdcRead c chans addr s)

/-- THERMAL_CONFIG (R522). -/
def runThermalConfig (c : Cmd) (addr : Nat) : State → State :=
  hostCommand (.thermalConfig c addr) c 0x82 (paramCheck (.thermalConfig c addr)) fun s =>
    match bufRead s c addr 32 with
    | none => (s, .error 0x0501 [])
    | some (b, s) =>
      if !thermalOk (b.take 32) then (s, .error 0x0105 [])
      else (atEdge s [.thermal (b.take 32), .finish c.spool c.seq 0 []], .running .tick)

def execThermalConfig (c : Cmd) (addr : Nat) (s : State) : Host.Outcome State Fault Refusal :=
  guarded c.wf s (runThermalConfig c addr s)

/-- SUPPLY_STATUS (R421); the input power is that of the last scan (R507, R534). -/
def runSupplyStatus (c : Cmd) : State → State :=
  hostCommand (.supplyStatus c) c 0x83 (paramCheck (.supplyStatus c)) fun s =>
    let u := s.supply
    (s, .done (toLe 1 (b2n u.backup) ++ toLe 1 (b2n u.mainGood + 2 * b2n u.backupGood) ++ toLe 2 u.mainV ++
      toLe 2 u.backupV ++ toLe 2 u.pLast ++ toLe 4 u.switches))

def execSupplyStatus (c : Cmd) (s : State) : Host.Outcome State Fault Refusal := guarded c.wf s (runSupplyStatus c s)

end Sys2Proof.Machine
end

