-- ==== Sys2Proof/Machine/Reset.lean ====
section
/-!
DEFINITION. Reset sources and what a full reset reaches (R535–R539, R562), and the host-loaded image (R551).
-/
namespace Sys2Proof.Machine

/-- The RESET_CAUSE bit of a source (R563). -/
def ResetSrc.bit : ResetSrc → Nat
  | .powerOn => 0
  | .brownout => 1
  | .perst => 2
  | .hotReset => 3
  | .mrst => 5
  | .thermalTrip => 6
  | .register => 8

/-- The state a full reset leaves: every volatile part as after reset, with NV flash, the inputs, the reset pins, what
the module wrote to host memory and RESET_CAUSE kept (R287, R536, R537, R539). -/
def wiped (s : State) : State :=
  { State.reset with
    pending := s.pending
    nv := s.nv
    free := s.free
    bus := { Bus.init with host := s.bus.host }
    tick := { Tick.init with time := s.tick.time }
    supply := { Supply.init with
      mainGood := s.supply.mainGood, backupGood := s.supply.backupGood, mainOv := s.supply.mainOv,
      backupOv := s.supply.backupOv, mainAbove := s.supply.mainAbove,
      backup := !s.supply.mainGood && s.supply.backupGood }
    boot := { Boot.init with
      powered := s.boot.powered, cause := s.boot.cause, arriving := s.boot.arriving, trip := s.boot.trip,
      pins := s.boot.pins } }

/-- A source once in a list of sources. -/
def addSource (l : List ResetSrc) (src : ResetSrc) : List ResetSrc := if l.contains src then l else l ++ [src]

/-- The end of the stop of R506: the brownout record, and power removed; the word keeps the record of a trip (R536; log 133). No
source is left arriving. -/
def cutPower (s : State) : State :=
  (wiped (s.onNv fun n => { n with cause := if n.cause == .thermalTrip then n.cause else .brownout })).onBoot fun k =>
    { k with powered := false, arriving := [] }

/-- A reset source takes effect: bring-up starts again, with one more cause (R537). An unpowered module takes none (R506), and a stop
that has begun completes: power is removed whatever arrives (R506). -/
def takeReset (s : State) (src : ResetSrc) : State :=
  if !s.boot.powered then s
  else if src == .brownout || s.supply.stopping then cutPower s
  else (wiped s).onBoot fun k => { k with arriving := addSource k.arriving src }

/-- A reset source arrives: it is latched during an NV pulse (R538). -/
def startReset (s : State) (src : ResetSrc) : State :=
  if s.boot.pulse then s.onBoot fun k => { k with latched := addSource k.latched src } else takeReset s src

/-- The pulse in progress ends, and the latched sources take effect (R538). -/
def takeLatched (s : State) : State := s.boot.latched.foldl takeReset (s.onBoot fun k => { k with pulse := false })

/-- RESET_AFTER_NV_PULSE: the pulse in progress ends. With no source latched it counts towards its IMAGE_WRITE, whose next pulse
starts at the next edge (R538, R553; log 47). -/
def resetAfterNvPulse (s : State) : State :=
  if !s.boot.pulse then s
  else if !s.boot.latched.isEmpty then takeLatched s
  else s.onBoot fun k =>
    { k with pulse := false, imgJob := k.imgJob.map fun j => { j with pulses := j.pulses + 1 } }

def execResetAfterNvPulse (s : State) : Host.Outcome State Fault Refusal :=
  guarded (Instr.wf .resetAfterNvPulse) s (resetAfterNvPulse s)

/-- NV_PROGRAM_DONE: the last pulses have ended, the copy is read back and compared, and IMAGE_WRITE completes (R553). A latched source
takes effect instead: the pulse in progress was not the write's end (R538, R554). -/
def nvProgramDone (ok : Bool) (s : State) : State :=
  match s.boot.imgJob with
  | none => s
  | some j =>
    if s.boot.pulse && !s.boot.latched.isEmpty then takeLatched s
    else
      let s1 := s.onBoot fun x =>
        { x with imageBusy := false, pulse := false, imgJob := none, nvFault := x.nvFault || !ok }
      let s2 := if ok then
          s1.onNv fun n => if j.copy = 0 then { n with copyA := .image j.bytes } else { n with copyB := .image j.bytes }
        else s1
      finish s2 j.spool j.seq (if ok then 0 else 0x0505) []

def execNvProgramDone (ok : Bool) (s : State) : Host.Outcome State Fault Refusal :=
  guarded (Instr.wf (.nvProgramDone ok)) s (nvProgramDone ok s)

/-- A low level on PERST# or MRST# for a time, still low (`held`) or risen. Under 100 ns it is ignored, from 1 µs it is a reset,
between open (R535, log 18). A pin still low holds the module in reset until it rises (R537). -/
def pinReset (s : State) (src : ResetSrc) (ns : Nat) (held : Bool) : State :=
  if s.boot.pins.contains src then
    if held then s else s.onBoot fun k => { k with pins := k.pins.filter fun p => p != src }
  else if ns < 100 then s
  else if 1000 ≤ ns then startReset (if held then s.onBoot fun k => { k with pins := addSource k.pins src } else s) src
  else if held then s
  else
    let s1 := { s with free := s.free + 1 }
    if Config.pulseResets s.free then startReset s1 src else s1

/-- PERST (R535). -/
def perst (ns : Nat) (held : Bool) (s : State) : State := pinReset s .perst ns held
def execPerst (ns : Nat) (held : Bool) (s : State) : Host.Outcome State Fault Refusal :=
  guarded (Instr.wf (.perst ns held)) s (perst ns held s)

/-- MRST (R535). -/
def mrst (ns : Nat) (held : Bool) (s : State) : State := pinReset s .mrst ns held
def execMrst (ns : Nat) (held : Bool) (s : State) : Host.Outcome State Fault Refusal :=
  guarded (Instr.wf (.mrst ns held)) s (mrst ns held s)

/-- HOT_RESET, received on link 0 (R535). -/
def hotReset (s : State) : State := startReset s .hotReset
def execHotReset (s : State) : Host.Outcome State Fault Refusal := guarded (Instr.wf .hotReset) s (hotReset s)

/-- An input is good: from 46 V to 62 V (R501). -/
def Supply.good (u : Supply) (backup : Bool) : Supply :=
  if backup then { u with backupGood := true, backupOv := false }
  else { u with mainGood := true, mainOv := false, mainAbove := true }

/-- POWER_ON: an input has been good for 250 ms on an unpowered module (R535, R536); a pin that is low then is a source too (log 127). -/
def powerOn (backup : Bool) (s : State) : State :=
  if s.boot.powered then s
  else
    let s1 := (s.onSupply fun u => { u.good backup with stopping := false }).onBoot fun k =>
      { k with powered := true, pulse := false }
    s1.boot.pins.foldl takeReset (takeReset s1 .powerOn)

def execPowerOn (backup : Bool) (s : State) : Host.Outcome State Fault Refusal :=
  guarded (Instr.wf (.powerOn backup)) s (powerOn backup s)

/-- A write of RESET_CTRL: KEY 0xA5 and GO 1 in one access (R562). -/
def resetCtrlWrite (s : State) (v : Nat) : State :=
  if bitsOf v 8 8 == 0xA5 && bitOf v 0 then startReset s .register else s

/-- RESET_CTRL over BAR0 of the PF, which answers only while the module is ready (R543, R545). -/
def resetCtrl (v : W32) (s : State) : State := if s.boot.ready then resetCtrlWrite s v.toNat else s
def execResetCtrl (v : W32) (s : State) : Host.Outcome State Fault Refusal :=
  guarded (Instr.wf (.resetCtrl v)) s (resetCtrl v s)

/-- SIDEBAND_CONTROL in force; a module in reset hold treats it as 1 (R561). -/
def sidebandControl (s : State) : Bool := s.boot.hold != 0 || opt s oSidebandControl == 1

/-- IMAGE_GO: the image in the buffer is checked; one that passes is used and bring-up goes on from step 5
(R551, R560). -/
def imageGo (s : State) : State :=
  if !s.boot.waitImage || !sidebandControl s then s
  else
    let b := s.boot.buffer.readBytes 0 65536
    let c := hostImageStatus s b
    let s1 := s.onBoot fun k => { k with aStatus := c }
    if c != 0 then s1
    else (loadImage s1 3 (some b)).onBoot fun k => { k with waitImage := false, step := 6 }

def execImageGo (s : State) : Host.Outcome State Fault Refusal := guarded (Instr.wf .imageGo) s (imageGo s)
end Sys2Proof.Machine
end

