-- ==== Sys2Proof/Machine/Power.lean ====
section
/-!
DEFINITION. Supplies, temperature and the housekeeping ADC (R501–R534): the events of the inputs, sensors and
converters, and what each edge decides from them.
-/
namespace Sys2Proof.Machine

/-! Alerts (R530, R534). -/

/-- Set a bit of ALERT_STATUS. -/
def alert (s : State) (bit : Nat) : State := s.onSupply fun u => { u with alert := u.alert ||| BitVec.ofNat 9 (2 ^ bit) }

/-- ALERT# is driven low (R530). -/
def alertLow (s : State) : Bool := s.supply.alert &&& s.supply.enable != 0

/-! Inputs (R501–R506). -/

/-- An injected conversion, from the supply controller or the host: it takes converter 0, or waits behind at most three more; one that
finds four waiting is dropped (R527). -/
def injectAs (own : Bool) (ch : Nat) (a : Adc) : Adc :=
  if a.injecting.isNone then { a with injecting := some (ch, own) }
  else if a.inject.length < 4 then { a with inject := a.inject ++ [(ch, own)] }
  else { a with injectLost := true }

/-- ADC_INJECT (R527). -/
def inject (s : State) (ch : Nat) : State := s.onAdc (injectAs false ch)

/-- Whether an injection is dropped. -/
def injectFull (a : Adc) : Bool := a.injecting.isSome && decide (4 ≤ a.inject.length)

/-- A SUPPLY_SWITCH record with both its voltages, in 10 mV (R505, R533). -/
def SwitchNote.detail (n : SwitchNote) : Option Nat :=
  match n.main, n.backup with
  | some m, some b => some (b * 65536 + m)
  | _, _ => none

/-- Write the SUPPLY_SWITCH records whose voltages are known (R505). -/
def writeNotes (s : State) : State :=
  (s.supply.notes.filter fun n => n.detail.isSome).foldl (fun s n => faultRec s 0x0020 8 n.input (n.detail.getD 0))
    (s.onSupply fun u => { u with notes := u.notes.filter fun n => n.detail.isNone })

/-- A voltage enters the first record that waits for one of its channel. -/
def fillNote (ch v : Nat) : List SwitchNote → List SwitchNote
  | [] => []
  | n :: r =>
    if ch = 45 && n.main.isNone then { n with main := some v } :: r
    else if ch = 46 && n.backup.isNone then { n with backup := some v } :: r
    else n :: fillNote ch v r

/-- Move the load to an input: counted, conversions of 45 and 46 injected for its record, reported at the next edge (R505). Where an
injection is dropped, the record takes the voltage read last (log 34). -/
def moveLoad (s : State) (toBackup : Bool) : State :=
  let a := injectAs true 45 s.adc
  let note := { input := b2n toBackup, main := if injectFull s.adc then some s.supply.mainV else none,
                backup := if injectFull a then some s.supply.backupV else none : SwitchNote }
  writeNotes ((s.onAdc fun _ => injectAs true 46 a).onSupply fun u =>
    { u with backup := toBackup, timer := none, switches := satAdd 32 u.switches 1,
             report := u.report ++ [(b2n toBackup, b2n (!toBackup))], notes := u.notes ++ [note] })

/-- Whether the load can move away from the input in use: to backup when that is good, to main also when it is above 44 V (R502,
R504). The comparators decide it, and no reading of the ADC (R501). -/
def otherServes (s : State) : Bool :=
  if s.supply.backup then s.supply.mainGood || s.supply.mainAbove else s.supply.backupGood

/-- The comparators of an input that is not good (R501). -/
def Supply.fails (u : Supply) (backup : Bool) (level : InLevel) : Supply :=
  if backup then { u with backupGood := false, backupOv := level == .high }
  else { u with mainGood := false, mainOv := level == .high, mainAbove := level != .low, timer := none }

/-- The level of an input past its switch-away threshold. -/
def awayLevel (ov : Bool) : InLevel := if ov then .high else .low

/-- SUPPLY_SWITCH (R502, R504, R505). -/
def supplySwitch (ov : Bool) (s : State) : State :=
  if s.boot.powered && otherServes s then
    moveLoad (s.onSupply fun u => u.fails u.backup (awayLevel ov)) (!s.supply.backup)
  else s

def execSupplySwitch (ov : Bool) (s : State) : Host.Outcome State Fault Refusal :=
  guarded (Instr.wf (.supplySwitch ov)) s (supplySwitch ov s)

/-- The return timer has reached 250 ms: from the edge before main came good to the last edge; before the module is ready there is no
edge, and the event stands for the time (log 149). -/
def returnDue (s : State) : Bool :=
  match s.supply.timer with
  | some t => !s.boot.ready || decide (t + 250000000 ≤ s.tick.time)
  | none => false

/-- SUPPLY_RETURN: the return timer reaches 250 ms (R503). -/
def supplyReturn (s : State) : State :=
  if s.boot.powered && s.supply.backup && s.supply.mainGood && returnDue s then moveLoad s false else s

def execSupplyReturn (s : State) : Host.Outcome State Fault Refusal := guarded (Instr.wf .supplyReturn) s (supplyReturn s)

/-- SUPPLY_FAULT: the input not in use stops being good, or, not good already, passes another threshold (R504). -/
def supplyFault (level : InLevel) (s : State) : State :=
  let backup := !s.supply.backup
  let good := if backup then s.supply.backupGood else s.supply.mainGood
  let s1 := s.onSupply fun u => u.fails backup level
  if !s.boot.powered then s
  else if good then faultRec (if backup then alert s1 1 else s1) 0x0021 8 (b2n backup) (b2n (level == .high))
  else s1

def execSupplyFault (level : InLevel) (s : State) : Host.Outcome State Fault Refusal :=
  guarded (Instr.wf (.supplyFault level)) s (supplyFault level s)

/-- INPUT_GOOD: an input is good again, and main coming good on backup starts the return timer (R503); or the input in use falls below
46 V and no further, which only clears its good bit (R501, R534). -/
def inputGood (backup good : Bool) (s : State) : State :=
  if good then
    s.onSupply fun u =>
      let v := u.good backup
      if !backup && u.backup && u.timer.isNone then { v with timer := some s.tick.time } else v
  else if backup == s.supply.backup then s.onSupply fun u => u.fails backup .sag
  else s

def execInputGood (backup good : Bool) (s : State) : Host.Outcome State Fault Refusal :=
  guarded (Instr.wf (.inputGood backup good)) s (inputGood backup good s)

/-- BROWNOUT: no input can carry the load. A running module stops at the edge that ends the tick; one that
has no tick loses power at once (R506). -/
def brownout (ov : Bool) (s : State) : State :=
  if !s.boot.powered || otherServes s then s
  else
    let s1 := s.onSupply fun u => u.fails u.backup (awayLevel ov)
    if s.boot.ready then s1.onSupply fun u => { u with stopping := true } else startReset s1 .brownout

def execBrownout (ov : Bool) (s : State) : Host.Outcome State Fault Refusal :=
  guarded (Instr.wf (.brownout ov)) s (brownout ov s)

/-! Power (R507–R509). -/

/-- CAP_UNMET: CAP_STEP 7 for 16 ms with P_avg above POWER_CAP throughout (R509). -/
def capUnmet (s : State) : State :=
  let long := match s.supply.highSince with
    | some t => decide (t + 16000000 ≤ s.tick.time)
    | none => false
  if s.tick.capStep == 7 && decide (opt s oPowerCap < s.supply.pAvg) && long && !s.supply.unmet &&
      decide (s.supply.capTime + 16000000 ≤ s.tick.time) then
    faultRec (alert (s.onSupply fun u => { u with unmet := true }) 3) 0x0024 8 0 s.supply.pAvg
  else s

def execCapUnmet (s : State) : Host.Outcome State Fault Refusal := guarded (Instr.wf .capUnmet) s (capUnmet s)

/-- A scan's power enters P_avg: the mean of the products of the last 256 µs, in W (R507, log 33). -/
def notePower (s : State) (w : Nat) : State :=
  s.onSupply fun u =>
    let l := (u.scans.filter fun e => decide (s.tick.time < e.1 + 256000)) ++ [(s.tick.time, w)]
    let avg := (l.map Prod.snd).sum / l.length
    { u with scans := l, pLast := w, pAvg := avg, unmet := u.unmet && decide (opt s oPowerCap < avg),
             lowSince := if avg + opt s oCapHyst < opt s oPowerCap then some (u.lowSince.getD s.tick.time) else none,
             highSince := if opt s oPowerCap < avg then some (u.highSince.getD s.tick.time) else none }

/-! Sensors (R512–R516). -/

/-- A new reading of a sensor: two consecutive bad readings break it, two good ones restore it (R513). -/
def Sensor.take (x : Sensor) (t : W16) (bad : Bool) : Sensor :=
  if bad = x.broken then { x with temp := t, run := 0 }
  else if x.run = 0 then { x with temp := t, run := 1 }
  else { temp := t, broken := bad, run := 0 }

/-- Report a change of a sensor's state (R513). `loc` is the die or input, `th` tells a thermistor. -/
def sensorChange (s : State) (loc : Nat) (th broken : Bool) : State :=
  let s1 := faultRec s 0x0022 8 loc ((if th then 2 else 1) + (if broken then 0 else 256))
  if broken then event0 (alert s1 5) 0x0023 (toLe 1 loc ++ toLe 1 (b2n th)) else s1

/-- DIODE_READING: the monitor reads the diode whose turn it is, of dies 0–40 (R512, R513). -/
def diodeReading (mv : Nat) (t : W16) (s : State) : State :=
  if !s.boot.powered then s
  else
    let die := s.thermal.turn
    let x := s.thermal.diodes.get Sensor.init die
    let y := x.take t (decide (mv < 250) || decide (850 < mv))
    let s1 := s.onThermal fun m => { m with diodes := m.diodes.set die y, turn := if 40 ≤ die then 0 else die + 1 }
    if x.broken = y.broken then s1 else sensorChange s1 die false y.broken

def execDiodeReading (mv : Nat) (t : W16) (s : State) : Host.Outcome State Fault Refusal :=
  guarded (Instr.wf (.diodeReading mv t)) s (diodeReading mv t s)

/-- The thermistor input of a channel: dies 0–40, coolant inputs 64–67 (R523). -/
def thermInput (ch : Nat) : Nat := if ch ≤ 40 then ch else ch + 23

/-- A thermistor's reading in a scan. -/
def thermReading (s : State) (ch code : Nat) : State :=
  let i := thermInput ch
  let x := s.thermal.therms.get Sensor.init i
  let y := x.take (Config.thermTable ch code) (decide (code < 16) || decide (4080 < code))
  let s1 := s.onThermal fun m => { m with therms := m.therms.set i y }
  if x.broken = y.broken then s1 else sensorChange s1 i true y.broken

/-- An open-wire pass over a channel: open when its two codes differ by more than 1,024; two consecutive open
passes break the thermistor (R513, R524). -/
def openWirePass (s : State) (ch up down : Nat) : State :=
  let isOpen := decide (down + 1024 < up) || decide (up + 1024 < down)
  let n := if isOpen then s.adc.openRuns.get 0 ch + 1 else 0
  let s1 := s.onAdc fun a =>
    { a with openRuns := a.openRuns.set ch n, chans := a.chans.upd AdcChan.init ch fun x => { x with opened := isOpen } }
  let x := s.thermal.therms.get Sensor.init (thermInput ch)
  if isOpen && decide (2 ≤ n) && !x.broken then
    sensorChange (s1.onThermal fun m =>
      { m with therms := m.therms.set (thermInput ch) { x with broken := true, run := 0 } }) (thermInput ch) true true
  else if isOpen then
    s1.onThermal fun m => { m with therms := m.therms.upd Sensor.init (thermInput ch) fun x =>
      if x.broken then { x with run := 0 } else x }
  else s1

/-- A die has a broken diode, a broken thermistor. -/
def diodeBroken (s : State) (d : Nat) : Bool := (s.thermal.diodes.get Sensor.init d).broken
def thermBroken (s : State) (d : Nat) : Bool := (s.thermal.therms.get Sensor.init d).broken
def bothBroken (s : State) (d : Nat) : Bool := diodeBroken s d && thermBroken s d
def oneBroken (s : State) (d : Nat) : Bool := diodeBroken s d != thermBroken s d

/-- The temperature of a die (R514). -/
def dieTemp (s : State) (d : Nat) : Int :=
  let a := (s.thermal.diodes.get Sensor.init d).temp.toInt
  let b := (s.thermal.therms.get Sensor.init d).temp.toInt
  if diodeBroken s d then b else if thermBroken s d then a else max a b

/-- THERMAL_TRIP: a reading of a die has reached 105 °C (R521). -/
def thermalTrip (die : Nat) (s : State) : State :=
  let hot := fun (x : Sensor) => decide (1680 ≤ x.temp.toInt)
  if s.boot.powered && (hot (s.thermal.diodes.get Sensor.init die) || hot (s.thermal.therms.get Sensor.init die)) then
    startReset ((s.onBoot fun k => { k with trip := true }).onNv fun n => { n with cause := .thermalTrip }) .thermalTrip
  else s

def execThermalTrip (die : Nat) (s : State) : Host.Outcome State Fault Refusal :=
  guarded (Instr.wf (.thermalTrip die)) s (thermalTrip die s)

/-! Conversions (R524–R528). -/

/-- A conversion writes its channel's result and is compared with its limits (R528). -/
def convert (s : State) (ch code : Nat) : State :=
  let x := s.adc.chans.get AdcChan.init ch
  let hi := decide (x.high < code)
  let lo := decide (code < x.low)
  let y := { x with code := code, valid := true, highHit := x.highHit || hi, lowHit := x.lowHit || lo }
  let s1 := s.onAdc fun a => { a with chans := a.chans.set ch y }
  let s2 := s1.onSupply fun u =>
    if ch = 45 then { u with mainV := 2 * code } else if ch = 46 then { u with backupV := 2 * code } else u
  if (hi && !x.highHit) || (lo && !x.lowHit) then
    event0 (alert s2 8) 0x0025 (toLe 1 ch ++ toLe 1 (b2n hi + 2 * b2n lo) ++ toLe 2 code)
  else s2

/-- Power of the input in use: 20 mV and 25 mA per code, in W. -/
def inputPower (s : State) (current : Nat) : Nat :=
  (s.adc.chans.get AdcChan.init (if s.supply.backup then 46 else 45)).code * current / 2000

/-- Converter 1 goes on: channels 0–60 in turn, and after every 16th scan an open-wire pass over channels 0–44 (R524). -/
def Adc.advance (a : Adc) : Adc :=
  if a.openPass then
    if 44 ≤ a.pos then { a with openPass := false, pos := 0, round := 0 } else { a with pos := a.pos + 1 }
  else if 60 ≤ a.pos then
    { a with pos := 0, scans := satAdd 32 a.scans 1, round := a.round + 1, openPass := decide (16 ≤ a.round + 1) }
  else { a with pos := a.pos + 1 }

/-- A conversion of the fixed scan: the result, a thermistor's reading, and with the current of the input in use its power (R507,
R512, R513, R524, R528). -/
def fixedScan (s : State) (ch code : Nat) : State :=
  let s1 := convert s ch code
  let s2 := if ch ≤ 44 then thermReading s1 ch code else s1
  if ch = (if s.supply.backup then 48 else 47) then notePower s2 (inputPower s2 code) else s2

/-- SCAN_CONVERSION: converter 1 makes its next conversion; in an open-wire pass, the pair of a channel with the pull-up and the
pull-down (R524). -/
def scanConversion (code down : Nat) (s : State) : State :=
  if !s.boot.powered then s
  else
    let ch := s.adc.pos
    (if s.adc.openPass then openWirePass s ch code down else fixedScan s ch (min code 4095)).onAdc Adc.advance

def execScanConversion (code down : Nat) (s : State) : Host.Outcome State Fault Refusal :=
  guarded (Instr.wf (.scanConversion code down)) s (scanConversion code down s)

/-- Take a sequence descriptor into force (R525). -/
def loadSequence (a : Adc) (b : List Byte) : Adc :=
  { a with trigger := byteAt b 1, delay := le b 4 2, pwm := byteAt b 6,
           seqn := (List.range (byteAt b 0)).map fun i => le b (8 + 4 * i) 4,
           next := none, running := false, entry := 0 }

/-- A descriptor's edge: at once, or after the entry in progress (R525). -/
def sequenceEdge (a : Adc) (b : List Byte) : Adc := if a.running then { a with next := some b } else loadSequence a b

/-- ADC_TRIGGER: the sequence runs once from entry 0, or the trigger is counted missed (R525, R526). -/
def adcTrigger (src : AdcSource) (s : State) : State :=
  let a := s.adc
  let hit := match src with
    | .tick => a.trigger == 1
    | .timer => a.trigger == 2
    | .pwm k => a.trigger == 3 && a.pwm == k
  if !hit || a.seqn.isEmpty || !s.boot.powered then s
  else if a.running then s.onAdc fun a => { a with missed := satAdd 16 a.missed 1 }
  else s.onAdc fun a => { a with running := true, entry := 0 }

def execAdcTrigger (src : AdcSource) (s : State) : Host.Outcome State Fault Refusal :=
  guarded (Instr.wf (.adcTrigger src)) s (adcTrigger src s)

/-- Converter 0 ends an injected conversion: the next injection takes it, and one of the supply controller enters its record (R505,
R527). -/
def endInjection (s : State) (ch code : Nat) (own : Bool) : State :=
  let s1 := convert (s.onAdc fun a => { a with injecting := a.inject.head?, inject := a.inject.tail }) ch code
  if own then writeNotes (s1.onSupply fun u => { u with notes := fillNote ch (2 * code) u.notes }) else s1

/-- Converter 0 ends the sequence's entry (R525, R528). -/
def endSequenced (s : State) (code : Nat) : State :=
  if !s.adc.running then s
  else
    (convert s (s.adc.seqn.getD s.adc.entry 0 % 64) code).onAdc fun a =>
      match a.next with
      | some b => loadSequence a b
      | none => if a.entry + 1 < a.seqn.length then { a with entry := a.entry + 1 }
                else { a with running := false, entry := 0 }

/-- ADC_CONVERSION: converter 0 ends an injected conversion, or the sequence's entry (R525, R527, R528). -/
def adcConversion (code : Nat) (s : State) : State :=
  if !s.boot.powered then s
  else
    match s.adc.injecting with
    | some (ch, own) => endInjection s ch (min code 4095) own
    | none => endSequenced s (min code 4095)

def execAdcConversion (code : Nat) (s : State) : Host.Outcome State Fault Refusal :=
  guarded (Instr.wf (.adcConversion code)) s (adcConversion code s)

/-! What an edge decides (R171 step 4, R507, R511, R515–R519). -/

/-- The lower bound of a band, in 1/16 °C. -/
def bandLow (s : State) (b : Nat) : Int := if b = 0 then -32768 else 16 * (byteAt s.thermal.block (b - 1) : Int)

/-- Move to cooler bands while the temperature is below a band's lower bound by BAND_HYST or more. -/
def coolerBand (s : State) (t : Int) : Nat → Nat
  | 0 => 0
  | b + 1 => if t ≤ bandLow s (b + 1) - 16 * (byteAt s.thermal.block 4 : Int) then coolerBand s t b else b + 1

/-- The band of a die at an edge (R515, R517; log 35). -/
def nextBand (s : State) (d : Nat) : Nat :=
  if bothBroken s d then 3
  else
    let t := dieTemp s d
    let hot := ((List.range 5).filter fun b => decide (bandLow s b ≤ t)).foldl max 0
    let b := max hot (coolerBand s t (s.thermal.bands.get 0 d))
    if oneBroken s d then (if d < 32 then max b 3 else 3) else b

/-- Set one die's band; a change of a sail die is reported, and a die entering the limit band sets BAND, except a keel or the service
die that reports it for a broken sensor (R515, R517, R518). -/
def bandEdge (s : State) (d : Nat) : State :=
  let old := s.thermal.bands.get 0 d
  let new := nextBand s d
  if new = old then s
  else
    let s1 := s.onThermal fun t => { t with bands := t.bands.set d new }
    let s2 := if d < 32 then
        event0 (s1.onDie d fun x => { x with band := new }) 0x0022 (toLe 1 d ++ toLe 1 new ++ toLe 1 old)
      else s1
    if new = 3 && (decide (d < 32) || !(diodeBroken s d || thermBroken s d)) then alert s2 4 else s2

/-- The dies of a stack: its sail dies and its keel. -/
def stackDies (k : Nat) : List Nat := [4 * k, 4 * k + 1, 4 * k + 2, 4 * k + 3, 32 + k]

/-- Whether a stack is stopped, and why. -/
def tripStopped (s : State) (k : Nat) : Bool := bitOf s.thermal.tripStop k
def sensorStopped (s : State) (k : Nat) : Bool := bitOf s.thermal.sensorStop k
def stackStopped (s : State) (k : Nat) : Bool := tripStopped s k || sensorStopped s k

/-- A bit of a mask set. -/
def setBit (x i : Nat) : Nat := if bitOf x i then x else x + 2 ^ i

/-- Every tile of every sail die of a stack becomes unverified, and its writes restart from their first piece (R106,
R519). -/
def stopTiles (s : State) (k : Nat) : State :=
  let stop := fun (t : Nat) (x : Tile) =>
    if tileKeel t = k then { x with unverified := true, half := none, units := 0, rows := 0, rowFails := [] } else x
  s.onArr fun a => { a with tiles := a.tiles.mapAll stop, doubt := distinct (a.doubt ++ stackDies k) }

/-- A stack at an edge: it stops when a die is in the trip band or held (R516, R519), and its calm edges are
counted (R520). -/
def stackEdge (s : State) (k : Nat) : State :=
  let dies := stackDies k
  let trip := dies.any fun d => s.thermal.bands.get 0 d == 4
  let held := dies.any (bothBroken s)
  let calm := dies.all fun d => !bothBroken s d && decide (dieTemp s d < 16 * (byteAt s.thermal.block 5 : Int))
  let was := stackStopped s k
  let s1 := s.onThermal fun t =>
    { t with tripStop := if trip then setBit t.tripStop k else t.tripStop,
             sensorStop := if held then setBit t.sensorStop k else t.sensorStop,
             calm := t.calm.set k (if calm then t.calm.get 0 k + 1 else 0) }
  if (trip || held) && !was then
    event0 (alert (faultRec (stopTiles s1 k) 0x0023 8 k (if trip then 0 else 1)) 6) 0x0024
      (toLe 1 k ++ toLe 1 (b2n trip + 2 * b2n held))
  else s1

/-- STACK_RESUME: the conditions of R520 hold at an edge. -/
def stackResume (k : Nat) (s : State) : State :=
  if stackStopped s k && decide (1024 ≤ s.thermal.calm.get 0 k) && !(stackDies k).any (bothBroken s) then
    faultRec (s.onThermal fun t =>
      { t with tripStop := if bitOf t.tripStop k then t.tripStop - 2 ^ k else t.tripStop,
               sensorStop := if bitOf t.sensorStop k then t.sensorStop - 2 ^ k else t.sensorStop }) 0x0023 8 k 2
  else s

def execStackResume (k : Nat) (s : State) : Host.Outcome State Fault Refusal :=
  guarded (Instr.wf (.stackResume k)) s (stackResume k s)

/-- A coolant reading compared with its limit, reported once per crossing (R511). -/
def coolantOne (s : State) (loc : Nat) (v limit : Int) : State :=
  let was := s.thermal.crossed.contains loc
  if decide (limit < v) then
    if was then s
    else faultRec (alert (s.onThermal fun t => { t with crossed := t.crossed ++ [loc] }) 7) 0x0025 8 loc (signed16 v)
  else if was then s.onThermal fun t => { t with crossed := t.crossed.filter fun x => !(x == loc) } else s

/-- The coolant limits at an edge (R511). -/
def coolantEdge (s : State) : State :=
  let v := fun i => (s.thermal.therms.get Sensor.init i).temp.toInt
  let lim := fun off => toSigned 16 (le s.thermal.block off 2)
  let s1 := coolantOne (coolantOne s 64 (v 64) (lim 8)) 65 (v 65) (lim 8)
  let s2 := coolantOne (coolantOne s1 66 (v 66) (lim 10)) 67 (v 67) (lim 10)
  coolantOne s2 68 (max (v 66) (v 67) - min (v 64) (v 65)) (lim 12)

/-- The CAP_STEP that an edge chooses (R507). -/
def nextCapStep (s : State) : Nat :=
  let u := s.supply
  let st := s.tick.capStep
  let since := s.tick.time - u.capTime
  let low := match u.lowSince with
    | some t => decide (t + 16000000 ≤ s.tick.time)
    | none => false
  if bothBroken s 40 || decide (16 * (byteAt s.thermal.block 3 : Int) ≤ dieTemp s 40) then 7
  else if decide (4200 < u.pAvg) && decide (st < 4) then 4
  else if decide (opt s oPowerCap < u.pAvg) && decide (256000 ≤ since) then min 7 (st + 1)
  else if low && decide (16000000 ≤ since) then st - 1
  else st

/-- The cap step at an edge (R507, R508). -/
def capEdge (s : State) : State :=
  let old := s.tick.capStep
  let new := nextCapStep s
  if new = old then s
  else
    event0 (alert ((s.onTick fun t => { t with capStep := new }).onSupply fun u => { u with capTime := s.tick.time }) 2)
      0x0021 (toLe 1 new ++ toLe 1 old)

/-- The ceiling of a cap step (R193). -/
def capCeiling (st : Nat) : Nat := [512, 384, 256, 256, 192, 128, 96, 64].getD st 64

/-- B (R192). -/
def panelBudget (s : State) : Nat :=
  min (binLimit s.nv.part oActivePanels (opt s oActivePanels)) (min (capCeiling s.tick.capStep)
    (if s.nv.part.binB then 384 else 512))

/-- Switches reported at the edge: ALERT_STATUS and event (R505). -/
def supplyEdge (s : State) : State :=
  (s.supply.report).foldl
    (fun s r =>
      event0 (alert s 0) 0x0020 (toLe 1 r.1 ++ toLe 1 r.2))
    (s.onSupply fun u => { u with report := [] })

/-- Everything of this chapter that an edge decides: bands, stacks, coolant, the cap step and B, switches. -/
def powerEdge (s : State) : State :=
  let s1 := (List.range 41).foldl bandEdge s
  let s2 := (List.range 8).foldl stackEdge s1
  let s3 := supplyEdge (capEdge (coolantEdge s2))
  s3.onTick fun t => { t with budget := panelBudget s3 }

end Sys2Proof.Machine
end

