-- ==== Sys2Proof/Machine/Orphan.lean ====
section
/-!
DEFINITION. The end of a spool's service: cancellation as it completes, closing, orphaning, resynchronisation and
adoption (R267–R271, R345–R348, R361, R376–R384), and the events that bring them: SPOOL_TIMEOUT, FLR and VIRAL.
-/
namespace Sys2Proof.Machine

/-! Sessions in flight. -/

/-- Whether a session has an entry in flight. -/
def inFlight (s : State) (i : Nat) : Bool := s.pipe.entries.any fun e => e.sess == i

/-- A run that starts no further entry (R244). -/
def Run.cut (r : Run) : Run := { r with tokens := [], left := 0 }

/-- Spot checks of an entry's products that have still to run (R137, R444). -/
def heldSpots (s : State) (e : Entry) : List HeldSpot :=
  (s.pipe.ctx.filter fun c => c.1 / 2097152 == e.id).flatMap fun c =>
    c.2.blocks.filterMap fun b => match b.st, b.src with
      | .spot cls, some src =>
        some { key := { entry := e.id, pos := c.1 % 2097152, layer := b.layer, role := b.role, tile := b.tile },
               phys := b.phys, src := src, cls := cls, codes := b.codes, terms := b.terms, edge := b.edge, no := b.spotNo }
      | _, _ => none

/-- Take an entry out of the pipeline: its work and score reservations go, its reserved frames that hold nothing
written return, and its TOKEN credits are released (R213, R228, R368). -/
def endEntry (s : State) (e : Entry) : State :=
  let others := (s.pipe.entries.filter fun x => x.sess == e.sess && x.id != e.id).flatMap Entry.reserved
  let s1 := s.onPipe fun q => { q with entries := q.entries.filter fun x => x.id != e.id,
                                       spots := q.spots ++ heldSpots s e,
                                       arrivals := q.arrivals.filter fun a =>
                                         !(a.handle == e.handle && decide (e.first ≤ a.pos) && decide (a.pos < e.first + e.count)),
                                       ctx := q.ctx.filter fun c => c.1 / 2097152 != e.id }
  let s2 := s1.onKv fun k => { k with scores := k.scores.filter fun r => r.entry != e.id }
  let s3 := s2.onSpool e.spool fun q => { q with resv := q.resv - e.credits }
  returnReserved s3 e.sess e.reserved others

/-- End every entry of a session. -/
def dropEntries (s : State) (i : Nat) : State :=
  (s.pipe.entries.filter fun e => e.sess == i).foldl endEntry s

/-- Cancel a session at the edge: its entries end, it leaves the park queue, it is truncated to its sealed length,
and its command ends with CANCELLED (R268–R270); FREE then empties it (R271). -/
def cancelSession (s : State) (i : Nat) (free : Bool) : State :=
  let s1 := unpark (dropEntries s i) i
  let s2 := truncSession s1 i (s1.sess i).length
  let s3 := endRun s2 i 0x0210 0
  if free then freeSession s3 i else s3

/-! Closing (R348). -/

/-- Close a spool: its duplicate store goes (R348). -/
def closeSpool (s : State) (p : Nat) : State :=
  s.onSpool p fun q =>
    { q with st := .closed, dup := [], due := [], ring := [], resv := 0, out := [], sqTail := 0, cqHead := 0, cqFault := false,
             fetchFault := false, cqStall := false, closing := false }

/-- Close a spool once its due records are written, at once where none is or can be (R348, R355). -/
def closeWhenWritten (s : State) (p : Nat) : State :=
  let q := s.spool p
  if q.due.isEmpty || q.cqFault || s.bus.viral || !(q.st == .opened || q.st == .halted) then closeSpool s p
  else s.onSpool p fun q => { q with closing := true }

/-- Carry out the closings that due records of a spool would have brought once written. -/
def closeDue (s : State) (p : Nat) : State :=
  ((s.spool p).due.filterMap DueRec.closes).foldl (fun s t => if t = p then s else closeSpool s t) s

/-- End SPOOL_CLOSE with its DONE; where QUIET suppresses it or it is lost, the spool closes once its records are written
(R348, R355). -/
def finishClose (s : State) (p : Nat) (seq : W32) (t : Nat) : State :=
  let quiet := match (findOut s p seq).bind outCmd with
    | some c => c.quiet
    | none => true
  let (s1, sig) := finishRaw s p seq 0 [] (some t)
  let s2 := sendSignal s1 sig
  if quiet || !(s1.spools.any fun e => e.2.due.any fun d => d.closes == some t) then closeWhenWritten s2 t else s2

/-! What orphaning does to the commands of a spool (R377). -/

/-- Whether a started command's job moves data between host memory and the module, or is a session command. -/
def Job.stops : Job → Bool
  | .session _ => true
  | .stage .. => true
  | .output .. => true
  | .kvExport .. => true
  | .kvImport .. => true
  | .adapterLoad .. => true
  | .bankLoad .. => true
  | .attest .. => true
  | _ => false

/-- A transfer that has moved `n` bytes of its parts stops at the next 4 KiB boundary: what it has then moved (R377). -/
def movedParts : Nat → List (Nat × List Byte) → List (Nat × List Byte)
  | _, [] => []
  | n, w :: r =>
    let stop := (w.1 + n + 4095) / 4096 * 4096 - w.1
    if w.2.length ≤ stop then w :: movedParts (n - w.2.length) r else [(w.1, w.2.take stop)]

/-- An output under way stops at its next 4 KiB boundary; how far it has come is free (R377; log 56). -/
def stopOutput (s : State) (io : Io) (parts : List (Nat × List Byte)) : State :=
  (movedParts (Config.freeWord s.free).toNat parts).foldl (fun s w => bufWrite s io w.1 w.2) { s with free := s.free + 1 }

/-- What a command that moves data leaves as it stops: output up to a 4 KiB boundary, and no partial result (R377). -/
def freePartial (s : State) (o : OutCmd) : State :=
  match o.job with
  | .stage mi 0 _ _ _ _ => s.onModel mi fun m => { Model.init with gen := m.gen, used := true }
  | .output parts _ => stopOutput s (outIo o) parts
  | .kvExport fs parts _ => stopOutput (fs.foldl dropRef s) (outIo o) parts
  | .attest a _ report => stopOutput s (outIo o) [(a, report)]
  | .kvImport i _ _ => s.onSess i fun x => { x with importing := false }
  | .adapterLoad k i _ => s.onAdapter (adapterKey k i) fun a => { Adapter.init with gen := a.gen, used := true }
  | _ => s

/-- Where the commands of a spool go on once it is orphaned: a number above the spools' that no command uses. -/
def orphanKey (s : State) (p : Nat) : Nat :=
  let key := fun n => p + 4096 * (n + 1)
  key (((List.range s.spools.length).find? fun n => (s.spool (key n)).out.isEmpty).getD s.spools.length)

/-- End the outstanding commands of a spool as orphaning does: what has not started is dropped, session commands and
data movers end, and every other one goes on apart, with its record for spool 0. `keep` is a command left alone. -/
def endCommands (s : State) (p : Nat) (keep : Option W32) : State :=
  let stops := fun (o : OutCmd) => !o.started || o.job.stops
  let left := (s.spool p).out.filter fun o => some o.seq != keep
  let s1 := (left.filter fun o => o.started && stops o).foldl (fun s o => freePartial s o) s
  let k := orphanKey s1 p
  let s2 := s1.onSpool p fun q => { q with out := q.out.filter fun o => some o.seq == keep }
  let s3 := s2.onSpool k fun q =>
    { q with out := (left.filter fun o => !stops o).map fun o => { o with orphan := true, resv := 0 } }
  let s4 := moveRefs s3 fun q seq => (if q = p && some seq != keep then k else q, seq)
  s4.onBus fun b => { b with wakes := b.wakes.filter fun w => w.1 != p }

/-- A session of an orphaned spool becomes HELD: no later entry starts, and the lane leaves the park queue (R244). -/
def holdSession (s : State) (i : Nat) : State :=
  let s1 := unpark s i
  s1.onSess i fun x => { x with st := .held, run := if inFlight s1 i then x.run.map fun r => { r.cut with held := 0, spool := 0 } else none }

/-- Open sessions of a spool. -/
def sessionsOf (s : State) (p : Nat) : List Nat :=
  (s.sessions.filter fun e => e.2.st != .closed && e.2.spool == p).map Prod.fst

/-- The records that an orphaned spool keeps due: those held after a failed write, which resynchronisation writes first (R361,
R377, R386). -/
def heldDue (q : Spool) (p : Nat) : List DueRec :=
  if q.cqFault then q.due.map fun d => { d with closes := if d.closes = some p then d.closes else none } else []

/-- A spool becomes ORPHANED, or closes where only its last records kept it (R345, R348, R377). -/
def orphanSpool (s : State) (p : Nat) : State :=
  let q := s.spool p
  if q.closing then closeSpool s p
  else if p != 0 && (q.st == .opened || q.st == .halted) then
    let s1 := endCommands (closeDue s p) p none
    let s2 := s1.onSpool p fun q => { q with st := .orphaned, due := heldDue q p, resv := 0, cqStall := false }
    let s3 := s2.onPipe fun x =>
      { x with entries := x.entries.map fun e => if e.spool = p then { e with credits := 0, spool := 0 } else e }
    (sessionsOf s3 p).foldl holdSession s3
  else s

/-- A HELD session comes back: BUSY while an entry is in flight, otherwise IDLE (R243, R244). -/
def resumeSession (s : State) (i : Nat) : State :=
  s.onSess i fun x => if x.st = .held then { x with st := if inFlight s i then .busy else .idle } else x

/-- Spool 0 closes (R378, R383, R468). -/
def closeSpool0 (s : State) : State := if (s.spool 0).st == .closed then s else closeSpool s 0

/-! Resynchronisation (R361, R379, R384). -/

/-- RESYNC on a HALTED or ORPHANED spool. The commands of a HALTED spool stay outstanding (R360); IDLE_TIME goes on, since no packet
has been fetched (R343). -/
def resyncSpool (s : State) (p : Nat) : State :=
  let was := (s.spool p).st
  let s1 := s.onSpool p fun q =>
    let sz := 2 ^ (if q.dirty then q.sqOrder else q.useSqOrd)
    let q1 := { q with nextSeq := q.resyncSeq, sqHead := q.resyncHead % sz, fetchFault := false, cqFault := false,
                       st := .opened, out := q.out.map fun o => { o with stale := true } }
    let q2 := if q.dirty then
        { q1 with useSq := q.sqBase, useCq := q.cqBase, useSqOrd := q.sqOrder, useCqOrd := q.cqOrder,
                  sqTail := q.resyncHead % sz, cqHead := 0, cqTail := 0, ring := [], phase := true, dirty := false }
      else q1
    trimDup q2
  if was == .orphaned then (sessionsOf s1 p).foldl resumeSession s1 else s1

/-- RESYNC on spool 0 while it is OPEN: CQ_FAULT clears, and rewritten ring registers take effect (R384). -/
def resyncSpool0 (s : State) : State :=
  s.onSpool 0 fun q =>
    let q1 := { q with cqFault := false }
    if q.dirty then
      { q1 with useCq := q.cqBase, useCqOrd := q.cqOrder, cqHead := 0, cqTail := 0, ring := [], phase := true,
                dirty := false }
    else q1

/-! SPOOL_CLOSE and SPOOL_ADOPT (R348, R380). -/

/-- At the edge, SPOOL_CLOSE with RELEASE: sessions are cancelled and released, the spool's other commands end, and
its DONE is due. -/
def closeAtEdge (s : State) (t p : Nat) (seq : W32) : State :=
  let ss := sessionsOf s t
  let s1 := ss.foldl (fun s i => cancelSession s i false) s
  let s2 := ss.foldl releaseSession s1
  finishClose (endCommands s2 t (if t = p then some seq else none)) p seq t

/-- SPOOL_CLOSE (R348). -/
def runSpoolClose (c : Cmd) (release : Bool) : State → State :=
  hostCommand (.spoolClose c release) c 0x09 (paramCheck (.spoolClose c release)) fun s =>
    match spoolNumber c.handle with
    | none => (s, .error 0x0105 [])
    | some t =>
      let fn := spoolOwner s c.spool
      let others := !(orphanKeys s t).isEmpty || (s.spool t).out.any fun o => !(t == c.spool && o.seq == c.seq)
      if fn != 0 && spoolOwner s t != fn then (s, .error 0x0402 [])
      else if (s.spool t).st == .closed then (s, .error 0x0205 [])
      else if t = 0 then (s, .error 0x0105 [])
      else if !release && (!(sessionsOf s t).isEmpty || others) then (s, .error 0x0206 [])
      else if !release then
        if c.quiet then (closeWhenWritten (finish s c.spool c.seq 0 []) t, .running (.close t)) else (s, .doneClose t)
      else
        let busy := (sessionsOf s t).filter fun i => (s.sess i).st == .busy || (s.sess i).st == .starved
        (atEdge (busy.foldl maskLane s) [.closeSpool t c.spool c.seq], .running (.close t))

def execSpoolClose (c : Cmd) (release : Bool) (s : State) : Host.Outcome State Fault Refusal :=
  guarded c.wf s (runSpoolClose c release s)

/-- Move a session to the adopting spool (R380). -/
def adoptSession (s : State) (p i : Nat) : State :=
  resumeSession (s.onSess i fun x => { x with spool := p }) i

/-- SPOOL_ADOPT (R380, R381). -/
def runSpoolAdopt (c : Cmd) : State → State :=
  hostCommand (.spoolAdopt c) c 0x0B (paramCheck (.spoolAdopt c)) fun s =>
    match spoolNumber c.handle with
    | none => (s, .error 0x0105 [])
    | some t =>
      let fn := spoolOwner s c.spool
      if fn != 0 && spoolOwner s t != fn then (s, .error 0x0402 [])
      else if (s.spool t).st != .orphaned then (s, .error 0x0205 [])
      else
        let ss := sessionsOf s t
        let s1 := ss.foldl (fun s i => adoptSession s c.spool i) s
        (closeSpool s1 t, .done (toLe 4 ss.length))

def execSpoolAdopt (c : Cmd) (s : State) : Host.Outcome State Fault Refusal := guarded c.wf s (runSpoolAdopt c s)

/-! Events. -/

/-- SPOOL_TIMEOUT: an IDLE_TIME above SPOOL_TIMEOUT orphans the spool (R376). -/
def spoolTimeout (p : Nat) (s : State) : State :=
  let ms := opt s oSpoolTimeout
  if ms != 0 && decide (ms < idleTime s p) then orphanSpool s p else s

def execSpoolTimeout (p : Nat) (s : State) : Host.Outcome State Fault Refusal :=
  guarded (Instr.wf (.spoolTimeout p)) s (spoolTimeout p s)

/-- Orphan every spool that a test selects. -/
def orphanAll (s : State) (f : Nat → Bool) : State := ((s.spools.map Prod.fst).filter f).foldl orphanSpool s

/-- FLR: the function's spools are orphaned; of the PF, every spool, spool 0 closes, and configuration space is reset (R378,
R539). -/
def flr (fn : Nat) (s : State) : State :=
  if !s.boot.ready then s
  else
    let s1 := s.onBoot fun b =>
      { b with cause := b.cause ||| 0x10#9, flrLast := fn, vfEnable := if fn = 0 then false else b.vfEnable }
    if fn = 0 then closeSpool0 (orphanAll (s1.onBus fun b => { b with hdmBase := none }) fun _ => true) else orphanAll s1 fun p => spoolOwner s p == fn

def execFlr (fn : Nat) (s : State) : Host.Outcome State Fault Refusal := guarded (Instr.wf (.flr fn)) s (flr fn s)

/-- VIRAL: no more traffic to the host, spools orphaned, spool 0 closed, every session held (R468). -/
def viral (s : State) : State :=
  if !s.boot.ready then s
  else closeSpool0 (orphanAll (s.onBus fun b => { b with viral := true }) fun _ => true)

def execViral (s : State) : Host.Outcome State Fault Refusal := guarded (Instr.wf .viral) s (viral s)

end Sys2Proof.Machine
end

