-- ==== Sys2Proof/Machine/Links.lean ====
section
/-!
DEFINITION. Links, check-value units and channel arbiters (R466–R500): training and its loss, acknowledgement
timers, the HDM window, the host context of R489 and the arbitration of R490–R496.
-/
namespace Sys2Proof.Machine

/-! Link state (R481–R484, R500). -/

/-- Lanes installed, and the speed code of a trained link (R500). -/
def lanesMax (l : Nat) : Nat := if l = 0 then 8 else if isBridle l then 64 else 16
def linkSpeed (l : Nat) : Nat := if l = 0 then 3 else if isBridle l then 5 else 4

/-- The die whose records name a link: keels 0 and 7 for the chain ports, the lower keel of a bridle link. -/
def linkSource (l : Nat) : Nat := if l = 0 then 8 else if l = 1 then 0 else if l = 2 then 7 else (bridleEnds l).1

/-- The width that a number of working lanes allows; 0 where the link is lost (R481, R483, R484). -/
def widthOf (l n : Nat) : Nat :=
  if isBridle l then (if 64 ≤ n then 64 else if 32 ≤ n then 32 else 0)
  else if 16 ≤ n then 16 else if 12 ≤ n then 12 else if 8 ≤ n then 8 else if 4 ≤ n then 4 else 0

/-- UP at full width, DEGRADED below it. -/
def upState (l width : Nat) : LinkSt := if width = lanesMax l then .up else .degraded

/-- Lanes of a link, spares included. -/
def allLanes (l : Nat) : List Nat := List.range (if isBridle l then 68 else lanesMax l)

/-- A link carries traffic again: every end resends from the frame after the last ACK, and new frames follow. -/
def resumeLink (s : State) (l : Nat) : State := (linkEnds l).foldl (fun s k => pump (resend s k) k) s

/-- Write a LINK_LANE record (R499). -/
def laneRecord (s : State) (l lane : Nat) : State :=
  faultRec s 0x0031 (linkSource l) l (lane % 256 * 256 + (s.link l).lanes % 256)

/-- A link is lost; its frames are kept (R483). -/
def loseLink (s : State) (l detail : Nat) : State :=
  let s1 := s.onLink l fun x => { x with st := .lost, lanes := 0, speed := 0, rewidening := false, failed := 0 }
  event0 (faultRec s1 0x0032 (linkSource l) l detail) 0x0031 (toLe 1 l)

/-- LANE_FAULT: transmission stops and the link retrains without the lane (R481). Link 0 keeps to the PCIe
specification. -/
def laneFault (l lane : Nat) (s : State) : State :=
  let x := s.link l
  if l != 0 && linkUp s l && x.working.contains lane then
    ((linkEnds l).foldl (fun s k => s.onEnd k fun e => { e with resends := 0 }) s).onLink l fun x =>
      { x with st := .training, working := x.working.filter fun i => !(i == lane), faultLane := lane, rewidening := false,
               failed := 0, timers := 0, fecNow := false, fecBefore := false }
  else s

/-- A lane of a link is faulty, and the manual does not say which: it is free among those that work (R481; log 148). -/
def someLaneFault (l : Nat) (s : State) : State :=
  let ws := (s.link l).working
  laneFault l (ws.getD ((Config.freeWord s.free).toNat % max 1 ws.length) 0) { s with free := s.free + 1 }

/-- A frame of an end has been resent 8 times without being acknowledged: a lane is faulty (R481). -/
def resendFault (s : State) (k : Nat) : State := if 8 ≤ (s.linkEnd k).resends then someLaneFault (endLink k) s else s

def execLaneFault (l lane : Nat) (s : State) : Host.Outcome State Fault Refusal :=
  guarded (Instr.wf (.laneFault l lane)) s (laneFault l lane s)

/-- The first lane that does not work, or the lane last found faulty. -/
def badLane (l : Nat) (x : Link) : Nat := ((allLanes l).find? fun i => !x.working.contains i).getD x.faultLane

/-- RETRAIN_DONE: the width the lanes allow, no wider than before unless REWIDEN asked (R481, R482). A first
training takes the width it finds. -/
def retrainDone (l : Nat) (working : List Nat) (s : State) : State :=
  let x := s.link l
  if l = 0 || x.st != .training then s
  else
    let ws := (allLanes l).filter fun i => working.contains i && (x.rewidening || x.lanes == 0 || x.working.contains i)
    let w := widthOf l ws.length
    let first := x.lanes == 0
    let new := if x.rewidening || first then w else min w x.lanes
    if w = 0 then loseLink (s.onLink l fun x => { x with working := ws }) l 0
    else
      let grow := !first && decide (x.lanes < new)
      let shrink := decide (new < x.lanes)
      let s1 := s.onLink l fun x =>
        { x with st := upState l new, lanes := new, speed := linkSpeed l, working := ws, rewidening := false,
                 failed := 0, degrades := if shrink then satAdd 16 x.degrades 1 else x.degrades,
                 restores := if grow then satAdd 16 x.restores 1 else x.restores }
      let s2 := resumeLink s1 l
      if shrink then laneRecord (event0 s2 0x0030 (toLe 1 l ++ toLe 1 new)) l (if x.rewidening then badLane l (s2.link l) else x.faultLane)
      else if grow then event0 s2 0x0032 (toLe 1 l ++ toLe 1 new)
      else if x.rewidening then laneRecord s2 l (badLane l (s2.link l))
      else s2

def execRetrainDone (l : Nat) (working : List Nat) (s : State) : Host.Outcome State Fault Refusal :=
  guarded (Instr.wf (.retrainDone l working)) s (retrainDone l working s)

/-- LINK_LOST: a training has failed, the third in succession loses the link; or too few lanes work, which loses it at once (R483). A
link that has never trained has no working lanes to count. -/
def linkLost (l : Nat) (failed : Bool) (s : State) : State :=
  let x := s.link l
  if l = 0 || x.st != .training then s
  else if failed then
    let s1 := s.onLink l fun x => { x with failed := x.failed + 1 }
    if 3 ≤ x.failed + 1 then loseLink s1 l 1 else s1
  else if x.lanes != 0 && widthOf l x.working.length == 0 then loseLink s l 0
  else s

def execLinkLost (l : Nat) (failed : Bool) (s : State) : Host.Outcome State Fault Refusal :=
  guarded (Instr.wf (.linkLost l failed)) s (linkLost l failed s)

/-- LINK_TRAIN_RETRY: a lost link that trains again resumes from the frame after the last ACK (R483). -/
def linkTrainRetry (l : Nat) (working : List Nat) (s : State) : State :=
  let x := s.link l
  let ws := (allLanes l).filter working.contains
  let w := widthOf l ws.length
  if l != 0 && x.st == .lost && !x.orderErr && w != 0 then
    let s1 := s.onLink l fun x => { x with st := upState l w, lanes := w, speed := linkSpeed l, working := ws, failed := 0 }
    event0 (resumeLink s1 l) 0x0032 (toLe 1 l ++ toLe 1 w)
  else s

def execLinkTrainRetry (l : Nat) (working : List Nat) (s : State) : Host.Outcome State Fault Refusal :=
  guarded (Instr.wf (.linkTrainRetry l working)) s (linkTrainRetry l working s)

/-- REWIDEN: retrain on every lane that passes; no effect on link 0 (R482, R500). -/
def rewiden (l : Nat) (s : State) : State :=
  if s.boot.ready && l != 0 && linkUp s l then s.onLink l fun x => { x with st := .training, rewidening := true } else s

def execRewiden (l : Nat) (s : State) : Host.Outcome State Fault Refusal := guarded (Instr.wf (.rewiden l)) s (rewiden l s)

/-- CHAIN_NEIGHBOUR_LEARN: a neighbour that breaks the order of R474 leaves the port without traffic (R475). -/
def chainNeighbourLearn (l addr : Nat) (s : State) : State :=
  let a := addr % 16
  let ok := if l = 2 then decide (s.boot.strapAddr < a) else decide (a < s.boot.strapAddr)
  if (s.link l).st == .down then s
  else if ok then
    pump (s.onLink l fun x =>
      { x with neighbour := some a, orderErr := false, st := if x.orderErr then .training else x.st }) l
  else
    faultRec (s.onLink l fun x =>
      { x with neighbour := some a, orderErr := true, st := .lost, lanes := 0, speed := 0, rewidening := false })
      0x0032 (linkSource l) l 2

def execChainNeighbourLearn (l addr : Nat) (s : State) : Host.Outcome State Fault Refusal :=
  guarded (Instr.wf (.chainNeighbourLearn l addr)) s (chainNeighbourLearn l addr s)

/-- Attend to the ends of a link: what they put on the wire before has gone. -/
def clearWire (s : State) (l : Nat) : State := (linkEnds l).foldl (fun s k => s.onEnd k fun e => { e with wire := [] }) s

/-- ACK_TIMEOUT: frames outstanding at an end are resent from the oldest (R480); one resent 8 times shows a faulty lane (R481). -/
def ackTimeout (l : Nat) (s : State) : State :=
  if linkUp s l then (linkEnds l).foldl resendFault ((linkEnds l).foldl resend (clearWire s l)) else s

def execAckTimeout (l : Nat) (s : State) : Host.Outcome State Fault Refusal :=
  guarded (Instr.wf (.ackTimeout l)) s (ackTimeout l s)

/-- An interval of 1 µs ends with every second acknowledgement timer; uncorrectable codewords in two in a row make a lane faulty (R480,
R481; log 148). -/
def fecInterval (s : State) (l : Nat) : State :=
  let x := s.link l
  if isBridle l || l = 0 then s
  else if x.timers = 0 then s.onLink l fun x => { x with timers := 1 }
  else
    let s1 := s.onLink l fun x => { x with timers := 0, fecBefore := x.fecNow, fecNow := false }
    if x.fecNow && x.fecBefore then someLaneFault l s1 else s1

/-- ACK_ONLY_TIMER (R480), which comes every 0.5 µs. -/
def ackOnlyTimer (l : Nat) (s : State) : State := fecInterval ((linkEnds l).foldl sendAck (clearWire s l)) l

def execAckOnlyTimer (l : Nat) (s : State) : Host.Outcome State Fault Refusal :=
  guarded (Instr.wf (.ackOnlyTimer l)) s (ackOnlyTimer l s)

/-! The CXL port (R468, R470–R473, R499, R543, R548). -/

/-- HDM_ACCESS: a CXL.mem request to one line of the window (R470, R472); `keeps` says whether the host holds a
copy afterwards. A write carries the bytes from its offset to at most the line's end. -/
def hdmAccess (write : Bool) (w : Nat) (data : List Byte) (keeps : Bool) (s : State) : State :=
  let line := w / 64
  if !s.boot.ready || hdmBytes s ≤ w then s
  else
    let s1 := s.onBus fun b =>
      let rest := b.snoop.filter fun x => !(x == line)
      { b with snoop := if keeps then rest ++ [line] else rest }
    if write then
      s1.onKv fun k => { k with dram := k.dram.writeBytes (hdmAddr s w) (data.take (64 - w % 64)) }
    else
      let b := s.kv.dram.readBytes (hdmAddr s (64 * line)) 64
      s1.onBus fun x => { x with line := b, rdata := BitVec.ofNat 64 (le b (w % 64 / 8 * 8) 8) }

def execHdmAccess (write : Bool) (w : Nat) (data : List Byte) (keeps : Bool) (s : State) :
    Host.Outcome State Fault Refusal :=
  guarded (Instr.wf (.hdmAccess write w data keeps)) s (hdmAccess write w data keeps s)

/-- What a configuration request to the PF changes or reads once the module answers it (R332, R466, R469, R471, R473, R559; log 92). The
Register Locator's entry names BAR2, offset 0, as the component registers (log 146). -/
def configOp (op : CfgOp) (s : State) : State :=
  match op with
  | .other => s
  | .vfEnable on => s.onBoot fun k => { k with vfEnable := on }
  | .hdmRange base => s.onBus fun b => { b with hdmBase := base }
  | .hdmSize => s.onBus fun b => { b with rdata := BitVec.ofNat 64 (hdmBytes s) }
  | .registerLocator => s.onBus fun b => { b with rdata := 0x102 }
  | .portId id => s.onBus fun b => { b with portId := id % 4096 }
  | .aerStatus => s.onBus fun b => { b with rdata := b.aer.setWidth 64 }
  | .aerClear v => s.onBus fun b => { b with aer := b.aer &&& ~~~v }
  | .certificate slot => s.onBus fun b => { b with spdm := if slot = 0 then Config.certChain else [], spdmSig := [] }
  | .measurement i nonce => atEdge s [.measure i nonce]

/-- CONFIG_REQUEST: answered normally when ready (0), with retry status from step 3 (1), and not at all before or
in reset hold (2) (R543, R545). -/
def configRequest (fn : Nat) (op : CfgOp) (s : State) : State :=
  let r := if s.boot.ready then 0 else if s.boot.powered && decide (3 ≤ s.boot.step) && s.boot.hold == 0 then 1 else 2
  let s1 := s.onBus fun b => { b with resp := r }
  if s.boot.ready && fn == 0 then configOp op s1 else s1

def execConfigRequest (fn : Nat) (op : CfgOp) (s : State) : Host.Outcome State Fault Refusal :=
  guarded (Instr.wf (.configRequest fn op)) s (configRequest fn op s)

/-- CXL_ERROR: an uncorrectable error enters the AER status, and its record has the status at detection (R466, R499). -/
def cxlError (status : W32) (s : State) : State :=
  if s.boot.ready then
    let now := s.bus.aer ||| status
    faultRec (s.onBus fun b => { b with aer := now }) 0x0033 8 0 now.toNat
  else s

def execCxlError (status : W32) (s : State) : Host.Outcome State Fault Refusal :=
  guarded (Instr.wf (.cxlError status)) s (cxlError status s)

/-- IDE_STREAM_STATE (R548). -/
def ideStreamState (mem secure : Bool) (s : State) : State :=
  s.onBoot fun b => if mem then { b with ideMem := secure } else { b with ideIo := secure }

def execIdeStreamState (mem secure : Bool) (s : State) : Host.Outcome State Fault Refusal :=
  guarded (Instr.wf (.ideStreamState mem secure)) s (ideStreamState mem secure s)

/-! The host context of a check-value unit (R488, R489). -/

/-- An algorithm's number (R500). -/
def crcOfNat (n : Nat) : CrcAlg := if n = 1 then .crc64 else if n = 2 then .crc16 else .crc32c

/-- A context after reset. -/
def CvuCtx.init : CvuCtx where
  alg := 0
  value := 0
  inUse := false
  used := false

/-- A context for a stream of a unit: the first that no stream holds (R488). -/
def freeCtx (s : State) (u : Nat) : Option Nat :=
  (List.range 15).find? fun c => !((s.cvu.get Cvu.init u).ctxs.get CvuCtx.init c).inUse

/-- A stream of a unit runs from its start to its end within one step, so it holds a context only there and leaves its algorithm and
running value in it; one that finds no free context waits (R488; log 65). -/
def runStream (s : State) (u alg : Nat) (b : List Byte) : State :=
  match freeCtx s u with
  | none => s
  | some c => s.onCvu u fun x =>
      { x with ctxs := x.ctxs.set c { alg := alg, value := crcFeed (crcOfNat alg) (crcInit (crcOfNat alg)) b, inUse := false, used := true } }

/-- Context 15 of a unit, and a change of it. -/
def hostCtx (s : State) (u : Nat) : CvuCtx := (s.cvu.get Cvu.init u).ctxs.get CvuCtx.init 15
def onHostCtx (s : State) (u : Nat) (f : CvuCtx → CvuCtx) : State :=
  if s.boot.ready then s.onCvu u fun c => { c with ctxs := c.ctxs.upd CvuCtx.init 15 fun x => { f x with used := true } } else s

/-- CVU_HOST_POLY: a different algorithm loads its initial value; 3 is reserved (R9, R489). -/
def cvuHostPoly (u v : Nat) (s : State) : State :=
  onHostCtx s u fun c =>
    if v % 4 = 3 || v % 4 = c.alg then c else { c with alg := v % 4, value := crcInit (crcOfNat (v % 4)) }

def execCvuHostPoly (u v : Nat) (s : State) : Host.Outcome State Fault Refusal :=
  guarded (Instr.wf (.cvuHostPoly u v)) s (cvuHostPoly u v s)

/-- CVU_HOST_INIT: a write of 1 to INIT. -/
def cvuHostInit (u : Nat) (s : State) : State := onHostCtx s u fun c => { c with value := crcInit (crcOfNat c.alg) }

def execCvuHostInit (u : Nat) (s : State) : Host.Outcome State Fault Refusal :=
  guarded (Instr.wf (.cvuHostInit u)) s (cvuHostInit u s)

/-- A write to a 64-bit register of 4 or 8 bytes, naturally aligned at `off`, with the register at `base` (R11). -/
def write64 (base off size : Nat) (old v : W64) : W64 :=
  if size = 8 && off = base then v
  else if size = 4 && off = base then BitVec.ofNat 64 (old.toNat / 4294967296 * 4294967296 + v.toNat % 4294967296)
  else if size = 4 && off = base + 4 then BitVec.ofNat 64 (v.toNat % 4294967296 * 4294967296 + old.toNat % 4294967296)
  else old

/-- CVU_HOST_VALUE: bits above the algorithm's width are discarded (R489). -/
def cvuHostValueWrite (u off size : Nat) (v : W64) (s : State) : State :=
  onHostCtx s u fun c =>
    { c with value := BitVec.ofNat 64 ((write64 0x18 off size c.value v).toNat % 2 ^ crcWidth (crcOfNat c.alg)) }

def execCvuHostValueWrite (u off size : Nat) (v : W64) (s : State) : Host.Outcome State Fault Refusal :=
  guarded (Instr.wf (.cvuHostValueWrite u off size v)) s (cvuHostValueWrite u off size v s)

/-- CVU_HOST_DATA: 4 or 8 bytes are fed, low byte first (R489). -/
def cvuHostData (u size : Nat) (v : W64) (s : State) : State :=
  if size = 4 || size = 8 then
    onHostCtx s u fun c => { c with value := crcFeed (crcOfNat c.alg) c.value (toLe size v.toNat) }
  else s

def execCvuHostData (u size : Nat) (v : W64) (s : State) : Host.Outcome State Fault Refusal :=
  guarded (Instr.wf (.cvuHostData u size v)) s (cvuHostData u size v s)

/-- CVU_HOST_FINAL (R489); 0 from reset until the host context is first used (R500). -/
def cvuFinal (c : CvuCtx) : W64 := if c.used then c.value ^^^ crcXor (crcOfNat c.alg) else 0

/-! Channel arbiters (R490–R496). -/

/-- Whether the reel engine of a keel writes (R306). -/
def reelWriting (s : State) (k : Nat) : Bool := s.arr.tiles.any fun e => tileKeel e.1 == k && e.2.under.isSome

/-- The keel of the stage an entry is at; none where it is away. -/
def entryKeel (s : State) (e : Entry) : Option Nat :=
  if e.away then none else ((s.model e.model).stages[e.stage]?).map StageRec.keel

/-- The KV share that the packer uses on a keel (R306). -/
def kvShare (s : State) (k : Nat) : Nat :=
  if reelWriting s k && s.pipe.entries.any (fun e => entryKeel s e == some k) then
    min (opt s oKvShare) (64 - opt s oReelShare)
  else opt s oKvShare

/-- Whether a write belongs to a unit that is rewritten in BARRIER mode. -/
def barrierSrc (s : State) (x : TileSrc) : Bool :=
  match (s.model x.model).repl with
  | none => false
  | some r => x.epoch == r.newEpoch && ((r.units.find x.unit).map ReplUnit.barrier).getD false

/-- Whether the reel engine of a keel writes a unit in BARRIER mode (R495). -/
def barrierWriting (s : State) (k : Nat) : Bool :=
  s.arr.tiles.any fun e => tileKeel e.1 == k && e.2.under.any (barrierSrc s)

/-- Quotas of classes 1 and 2 (R494). -/
def walkerQuota (s : State) : Nat := opt s oArbWalkerQuota
def attnQuota (s : State) (k : Nat) : Nat := kvShare s k * 64 - walkerQuota s

/-- Whether a class is masked on a channel (R494, R495). -/
def classMasked (s : State) (k : Nat) (a : ArbChan) (raised : List ArbReq) (c : Nat) : Bool :=
  (c == 1 && decide (walkerQuota s ≤ a.grants1)) || (c == 2 && decide (attnQuota s k ≤ a.grants2)) ||
  (decide (c ≤ 5) && raised.any (fun r => r.cls == 6) && decide (4096 - opt s oArbHostReserve ≤ a.grants15) &&
    !barrierWriting s k)

/-- The winner: the lowest class, then the lowest index (R493). -/
def arbWinner (l : List ArbReq) : Option ArbReq :=
  l.foldl (fun w r => match w with
    | none => some r
    | some x => if r.cls < x.cls || (r.cls == x.cls && r.idx < x.idx) then some r else some x) none

/-- Grant a transfer: its beats count in this window (R494). -/
def arbGrant (a : ArbChan) (w : Option ArbReq) : ArbChan :=
  match w with
  | none => { a with cur := none }
  | some r =>
    { a with
      cur := some (r, r.beats)
      grants1 := if r.cls = 1 then a.grants1 + r.beats else a.grants1
      grants2 := if r.cls = 2 then a.grants2 + r.beats else a.grants2
      grants15 := if r.cls ≤ 5 then a.grants15 + r.beats else a.grants15 }

/-- A window of 4,096 beats that is over ends: the next starts with nothing granted (R494). -/
def rollWindow (a : ArbChan) : ArbChan :=
  if a.ended < a.beats / 4096 then
    { a with grants1 := 0, grants2 := 0, grants15 := 0, masked12 := false, hitReserve := false, ended := a.beats / 4096 }
  else a

/-- The requests raised: those that were, and those that now are; a requester has one wire (R491). -/
def raiseReqs (old new : List ArbReq) : List ArbReq :=
  old ++ new.filter fun r => !old.any fun x => x.cls == r.cls && x.idx == r.idx

/-- One beat boundary of a channel: `new` are the requests that are raised now. The current transfer's next beat starts, and the next
transfer is granted at its last beat, on an idle channel, or by revocation; a request stays raised until it is granted, and one revoked
stays raised to start again from its first beat (R490–R493, R496). -/
def dramArbitration (k ch : Nat) (new : List ArbReq) (s : State) : State :=
  let key := k * 96 + ch
  let a := rollWindow (s.arb.chans.get ArbChan.init key)
  let raised := raiseReqs a.raised new
  let w := arbWinner (raised.filter fun r => !classMasked s k a raised r.cls)
  let revoke := match a.cur, w with
    | some (r, n), some x => decide (1 < n) && decide (3 ≤ r.cls) && decide (x.cls ≤ 2)
    | _, _ => false
  let keep := match a.cur with
    | some (_, n) => !revoke && decide (1 < n)
    | none => false
  let b := match keep, a.cur with
    | true, some (r, n) => { a with cur := some (r, n - 1) }
    | _, _ => arbGrant a w
  let left := if keep then raised else raised.filter fun r => some r != w
  let again := match revoke, a.cur with
    | true, some (r, _) => raiseReqs left [r]
    | _, _ => left
  let host := raised.any fun r => r.cls == 6
  let m12 := decide (walkerQuota s ≤ b.grants1) || decide (attnQuota s k ≤ b.grants2)
  let hit := host && decide (4096 - opt s oArbHostReserve ≤ b.grants15) && !barrierWriting s k
  s.onArb fun x =>
    { x with
      chans := x.chans.set key
        { b with raised := again, masked12 := b.masked12 || m12, hitReserve := b.hitReserve || hit, beats := b.beats + 1 }
      revokes := if revoke then x.revokes.upd 0 k fun n => satAdd 32 n 1 else x.revokes
      masked := if m12 && !a.masked12 then x.masked.upd 0 k fun n => satAdd 32 n 1 else x.masked
      reserve := if hit && !a.hitReserve then x.reserve.upd 0 k fun n => satAdd 32 n 1 else x.reserve }

def execDramArbitration (k ch : Nat) (raised : List ArbReq) (s : State) : Host.Outcome State Fault Refusal :=
  guarded (Instr.wf (.dramArbitration k ch raised)) s (dramArbitration k ch raised s)

/-- ARB_WINDOW_END: a window whose 4,096 beats are over ends; one that is not over goes on (R494). -/
def arbWindowEnd (k ch : Nat) (s : State) : State :=
  s.onArb fun x => { x with chans := x.chans.upd ArbChan.init (k * 96 + ch) rollWindow }

def execArbWindowEnd (k ch : Nat) (s : State) : Host.Outcome State Fault Refusal :=
  guarded (Instr.wf (.arbWindowEnd k ch)) s (arbWindowEnd k ch s)

end Sys2Proof.Machine
end

