-- ==== Sys2Proof/Machine/Boot.lean ====
section
/-!
DEFINITION. Bring-up and reset hold (R89, R467, R535–R545, R550, R551).
-/
namespace Sys2Proof.Machine

/-- The keels among some failing dies as a mask; 8 stands for the service die. -/
def keelMask (l : List Nat) : Nat := ((List.range 8).filter l.contains).map (2 ^ ·) |>.sum

/-- RESET_CAUSE as step 2 forms it: power-on clears the bits and reads the NV cause word; every other source adds
its own (R536). -/
def formCause (s : State) : BitVec 9 :=
  let arr := s.boot.arriving
  let base := if arr.contains .powerOn then
      match s.nv.cause with
      | .none => 1#9
      | .brownout => 2#9
      | .thermalTrip => 0x40#9
    else s.boot.cause
  (arr.filter fun r => r != .powerOn).foldl (fun c r => c ||| BitVec.ofNat 9 (2 ^ r.bit)) base

/-- Enter reset hold: BIST_HOLD is set, link 0 stays idle, and nothing more happens (R545). -/
def enterHold (s : State) (code bist : Nat) (step : Nat) : State :=
  s.onBoot fun k => { k with hold := code, bistFail := bist, step := step, cause := k.cause ||| 0x80#9 }

/-- Steps 1 to 3: RESET_CAUSE and the straps (R536, R540). -/
def startBoot (s : State) (b : BringUp) : State :=
  let c := formCause s
  s.onBoot fun k =>
    { k with cause := c, arriving := [], trip := false, step := 3, strapBoot := b.bootSel, strapClk := b.clkSel,
             strapAddr := b.modAddr }

/-- Step 5: the image that BOOT_SEL selects (R540, R550, R551). The version floor of R550 shows only where R550 chooses. -/
def chooseImage (s : State) : State :=
  let (sa, sb, use, img) := chooseCopy s.nv (s.boot.strapBoot == 1)
  let st := fun (s : State) (a b : Nat) => s.onBoot fun k => { k with aStatus := a, bStatus := b }
  let own := fun (c : NvCopy) => (copyStatus s.nv.part c).1
  if s.boot.strapBoot = 3 then (st s 1 (own s.nv.copyB)).onBoot fun k => { k with step := 5, waitImage := true }
  else if s.boot.strapBoot = 2 then
    (loadImage (st s (own s.nv.copyA) (own s.nv.copyB)) 2 none).onBoot fun k => { k with step := 6 }
  else (loadImage (st s sa sb) use img).onBoot fun k => { k with step := 6 }

/-- The module becomes ready: READY, step 9, the NV cause word erased, link 0 at the width and rate it negotiates, the bridle
trained; the chain ports train with whatever neighbour they have (R466, R467, R536, R542, R543). -/
def becomeReady (s : State) (lanes rate : Nat) : State :=
  let up := fun (s : State) (l : Nat) => s.onLink l fun x =>
    { x with st := .up, lanes := lanesMax l, speed := linkSpeed l, working := allLanes l }
  let s1 := (s.onBoot fun k => { k with ready := true, step := 9 }).onNv fun n => { n with cause := .none }
  let s2 := ((List.range 12).map (16 + ·)).foldl up s1
  let s3 := s2.onLink 0 fun x => { x with st := upState 0 lanes, lanes := lanes, speed := rate, working := List.range lanes }
  [1, 2].foldl (fun s l => s.onLink l fun x => { x with st := .training }) s3

/-- Step 8: without CXL operation the module never becomes ready before the next reset, and link 0 shows LOST (R467). -/
def negotiate (s : State) (b : BringUp) : State :=
  if b.cxl then becomeReady s b.lanes b.rate
  else (s.onBoot fun k => { k with step := 8 }).onLink 0 fun x => { x with st := .lost }

/-- Steps 6 to 8 (R89, R542, R544, R545). -/
def finishBoot (s : State) (b : BringUp) : State :=
  let bad := distinct b.trimBad
  let s1 := s.onBoot fun k => { k with trimBad := bad.length, trimZero := bad }
  if !b.dramFail.isEmpty then enterHold s1 4 (keelMask b.dramFail) 7
  else negotiate (s1.onBoot fun k => { k with loadDone := true }) b

/-- BRING_UP (R542): one command runs bring-up as far as it goes: to ready, to reset hold, to the wait for a
host-loaded image, or to step 8 without CXL; none while a reset pin is low (R537). -/
def bringUp (b : BringUp) (s : State) : State :=
  if !s.boot.powered || s.boot.ready || s.boot.hold != 0 || s.boot.waitImage || !s.boot.pins.isEmpty then s
  else if s.boot.step = 6 then finishBoot s b
  else if s.boot.step = 8 then s
  else
    let s1 := startBoot s b
    if s1.boot.strapClk = 3 then enterHold s1 3 0 3
    else if !b.bistFail.isEmpty then enterHold s1 1 (keelMask b.bistFail) 4
    else if b.factoryBad then enterHold s1 2 0 4
    else
      let s2 := chooseImage s1
      if s2.boot.waitImage then s2 else finishBoot s2 b

def execBringUp (b : BringUp) (s : State) : Host.Outcome State Fault Refusal := guarded (Instr.wf (.bringUp b)) s (bringUp b s)

end Sys2Proof.Machine
end

