-- ==== Sys2Proof/Machine/Align.lean ====
section
/-!
DEFINITION. The tick master and its alignment across modules (R158–R169, R401): TICK_CONFIG, a change of period,
the follower's lock and holdover.
-/
namespace Sys2Proof.Machine

/-- Whether any stage map is placed (R169). -/
def anyPlaced (s : State) : Bool := s.models.any fun e => isPlaced e.2

/-- The refusal of a period: R195, then R121 with every pending allowance in force (R161, R401). -/
def periodRefusal (s : State) (p : Nat) : Option Nat :=
  if !allFit s p then some 0x0603 else if tailCapacity p < tailSumNext s then some 0x0608 else none

/-- Chain ports that have a neighbour and carry traffic. -/
def chainPorts (s : State) : List Nat := [1, 2].filter fun l => linkUp s l && (s.link l).neighbour.isSome

/-- Send a control frame on every chain port but one. -/
def broadcast (s : State) (but : Nat) (c : Ctrl) : State :=
  ((chainPorts s).filter (· != but)).foldl (fun s l => sendChain s l 0 (.ctrl c)) s

/-- TICK_CONFIG (R161, R167, R169, R401). -/
def runTickConfig (c : Cmd) (period : Nat) (ext : Option (Nat × Nat)) : State → State :=
  hostCommand (.tickConfig c period ext) c 0x05 (paramCheck (.tickConfig c period ext)) fun s =>
    let t := s.tick
    let roleMoves := match ext with
      | some (r, _) => r != t.role && anyPlaced s
      | none => false
    if t.pend.isSome || (t.role == 2 && period != t.period) || roleMoves then (s, .error 0x020B [])
    else
      match periodRefusal s period with
      | some k => (s, .error k [])
      | none =>
        let acts := match ext with
          | some (r, k) => [EdgeAct.tickCfg r k]
          | none => []
        if period = t.period then
          (atEdge s (acts ++ [.finish c.spool c.seq 0 (toLe 2 period)]), .accepted (toLe 8 (s.now + 1).toNat) .tick)
        else
          let at_ := s.now + 256
          let ports := if t.role = 1 then chainPorts s else []
          let s1 := (atEdge s acts).onTick fun t =>
            { t with pend := some { period := period, at_ := at_, cmd := some (c.spool, c.seq), edge := t.edges,
                                    waiting := ports } }
          let s2 := if t.role = 1 then broadcast s1 0 (.periodChange period at_) else s1
          (s2, .accepted (toLe 8 at_.toNat) .tick)

def execTickConfig (c : Cmd) (period : Nat) (ext : Option (Nat × Nat)) (s : State) :
    Host.Outcome State Fault Refusal :=
  guarded c.wf s (runTickConfig c period ext s)

/-- The pending period takes effect once TICK_COUNT has reached its count; the command that asked for it completes
(R161). -/
def applyPeriod (s : State) : State :=
  match s.tick.pend with
  | none => s
  | some p =>
    if s.now.toNat < p.at_.toNat then s
    else
      let s1 := (s.onTick fun t => { t with period := p.period, pend := none }).onOpts fun o =>
        { o with force := o.force.set oTickPeriod p.period }
      match p.cmd with
      | some (sp, q) => finish s1 sp q 0 (toLe 2 p.period)
      | none => s1

/-- PERIOD_CHANGE (R161). -/
def periodChange (s : State) : State := applyPeriod s
def execPeriodChange (s : State) : Host.Outcome State Fault Refusal := guarded (Instr.wf .periodChange) s (periodChange s)

/-- A pending change is cancelled: followers hear of it, and the command ends with REFUSE_CHAIN (R161, R167). -/
def cancelPeriod (s : State) : State :=
  match s.tick.pend with
  | none => s
  | some p =>
    let s1 := s.onTick fun t => { t with pend := none }
    match p.cmd with
    | some (sp, q) => finish (broadcast s1 0 .periodCancel) sp q 0x060B (toLe 2 s.tick.period)
    | none => s1

/-- FOLLOWER_ANSWER_TIMEOUT: on the master, an answer is missing 128 ticks after the change was sent (R167). -/
def followerAnswerTimeout (s : State) : State :=
  match s.tick.pend with
  | none => s
  | some p =>
    if p.cmd.isSome && !p.waiting.isEmpty && decide (p.edge + 128 ≤ s.tick.edges) then cancelPeriod s else s

def execFollowerAnswerTimeout (s : State) : Host.Outcome State Fault Refusal :=
  guarded (Instr.wf .followerAnswerTimeout) s (followerAnswerTimeout s)

/-- A follower hears of a period change on a port: it runs step 1 of R161, passes the change on, and answers on that port
once every follower beyond it has accepted (R167). -/
def periodHeard (s : State) (port period : Nat) (at_ : W64) : State :=
  if s.tick.role != 2 then s
  else if (periodRefusal s period).isSome then sendChain s port 0 (.ctrl (.periodAnswer false))
  else
    let beyond := (chainPorts s).filter (· != port)
    let s1 := broadcast (s.onTick fun t =>
      { t with pend := some { period := period, at_ := at_, cmd := none, edge := t.edges, waiting := beyond } }) port
        (.periodChange period at_)
    if beyond.isEmpty then sendChain s1 port 0 (.ctrl (.periodAnswer true)) else s1

/-- An answer comes in on a port: the master notes it, or cancels the change; a follower passes it towards the master
(R167). -/
def periodAnswered (s : State) (port : Nat) (ok : Bool) : State :=
  match s.tick.pend with
  | none => s
  | some p =>
    let up := if port = 1 then 2 else 1
    let left := p.waiting.filter fun l => !(l == port)
    let s1 := s.onTick fun t => { t with pend := some { p with waiting := left } }
    if p.cmd.isSome then (if ok then s1 else cancelPeriod s)
    else if !ok then sendChain s up 0 (.ctrl (.periodAnswer false))
    else if left.isEmpty && !p.waiting.isEmpty then sendChain s1 up 0 (.ctrl (.periodAnswer true))
    else s1

/-- Whether an edge of TICK_IN counts as arrived: a locked follower expects it within 1 µs of its own edge (R168); one that is
not locked expects it at no stated time. -/
def edgeArrived (t : Tick) (phase : Int) : Bool := !t.locked || decide (phase.natAbs ≤ 1000)

/-- Whether a follower that is not locked reaches lock: its edge lies within 25 ns and the master's count has come, which
it takes at the edge of its lock, or 1,024 edges of TICK_IN have passed (R164, R166). -/
def reachesLock (t : Tick) (phase : Int) : Bool :=
  !t.locked && ((decide (phase.natAbs ≤ 25) && t.master.isSome) || decide (1024 ≤ t.lockRun + 1))

/-- TICK_IN_EDGE: a follower notes its phase error and may reach lock (R164–R166, R168). -/
def tickInEdge (phase : Int) (s : State) : State :=
  if !s.boot.ready || s.tick.role != 2 then s
  else
    let lock := reachesLock s.tick phase
    s.onTick fun t =>
      { t with skew := phase, missed := if edgeArrived t phase then 0 else t.missed,
               lockRun := if t.locked || lock then 0 else t.lockRun + 1, locked := t.locked || lock,
               holdover := t.holdover && !lock, adopt := t.adopt || lock }

def execTickInEdge (phase : Int) (s : State) : Host.Outcome State Fault Refusal :=
  guarded (Instr.wf (.tickInEdge phase)) s (tickInEdge phase s)

/-- HOLDOVER: four ticks without a TICK_IN edge (R168). -/
def holdover (s : State) : State :=
  if s.tick.role == 2 && decide (4 ≤ s.tick.missed) && !s.tick.holdover then
    event0 (s.onTick fun t => { t with holdover := true, locked := false, lockRun := 0, adopt := false }) 0x0007 []
  else s

def execHoldover (s : State) : Host.Outcome State Fault Refusal := guarded (Instr.wf .holdover) s (holdover s)

/-- Step 1 of R171: TICK_COUNT is 0 at the first edge and increases by 1 at every other; the edge at which a follower
reaches lock takes the master's count and reports the step, which is 0 where no count has come (R160, R166). -/
def countEdge (s : State) : State :=
  let t := s.tick
  let up := if t.edges = 0 then t.count else t.count + 1
  let master := t.master.map (· + 1)
  match t.adopt, master with
  | true, some m =>
    event0 (s.onTick fun t => { t with count := m, master := master, adopt := false }) 0x0006 (toLe 8 (m - up).toNat)
  | true, none => event0 (s.onTick fun t => { t with count := up, adopt := false }) 0x0006 (zeros 8)
  | false, _ => s.onTick fun t => { t with count := up, master := master }

end Sys2Proof.Machine
end

