-- ==== Sys2Proof/Machine/Replace.lean ====
section
/-!
DEFINITION. Weight replacement as it proceeds (R310–R324): cut-over and its fates, the writing of shadow copies and
barrier units, the switch of a unit and the end of the replacement.
-/
namespace Sys2Proof.Machine

/-- The stage record that holds a unit. -/
def unitStage (m : Model) (u : Nat) : Option StageRec :=
  if u = 256 then m.stages.find? StageRec.embed
  else if u = 257 then m.stages.find? StageRec.head
  else layerStage m u

/-- The place of a stage along the path, told by its first layer (R179). -/
def stageRank (m : Model) (r : StageRec) : Nat := if r.layerCount = 0 then bLayers m.bytes else r.layerFirst

/-- Whether an entry is at or before a unit's stage. -/
def entryBefore (m : Model) (e : Entry) (u : Nat) : Bool :=
  match m.stages[e.stage]?, unitStage m u with
  | some r, some x => decide (stageRank m r ≤ stageRank m x)
  | _, _ => true

/-- Whether an entry of the old epoch is at or before a unit's stage (R319, R320). -/
def oldBefore (s : State) (mi : Nat) (r : Repl) (u : Nat) : Bool :=
  s.pipe.entries.any fun e => e.model == mi && e.epoch != r.newEpoch && entryBefore (s.model mi) e u

/-- Tiles of a unit's new copy. -/
def newTiles (s : State) (m : Model) (u : Nat) (x : ReplUnit) : List (Nat × Nat) :=
  match m.units.find u with
  | none => []
  | some pl => unitTiles s m.bytes u pl.keel x.first

/-- A unit's new copy is written and calibrated (R315, R320). -/
def unitReady (s : State) (m : Model) (r : Repl) (u : Nat) (x : ReplUnit) : Bool :=
  (newTiles s m u x).all fun t =>
    let tile := s.tileAt t.1
    let pan := s.panelAt (t.1 / 8)
    tile.under.isNone && (tile.holds.map TileSrc.epoch) == some r.newEpoch && pan.cal && !pan.fresh

/-- Units of the mask on a keel, in path order: EMBED, the layers, HEAD (R319). -/
def maskOn (m : Model) (r : Repl) (k : Nat) : List Nat :=
  ([256] ++ List.range (bLayers m.bytes) ++ [257]).filter fun u =>
    r.mask.contains u && (m.units.find u).map UnitPl.keel == some k

/-- The first unit of the mask on a keel that the reel engine has not taken, if it has finished those before. -/
def nextUnit (s : State) (m : Model) (r : Repl) (k : Nat) : Option Nat :=
  match (maskOn m r k).find? fun u => match r.units.find u with
      | none => true
      | some x => !unitReady s m r u x with
  | none => none
  | some u => if (r.units.find u).isNone then some u else none

/-- The shadow run of a unit: the lowest free run as long as its range that starts at a multiple of 4 and ends below
4 × m (R319). -/
def shadowRun (s : State) (m : Model) (u : Nat) : Option Nat :=
  match m.units.find u with
  | none => none
  | some pl =>
    let top := 4 * keelM s pl.keel
    ((List.range (top / 4 + 1)).map (4 * ·)).find? fun f =>
      decide (f + pl.count ≤ top) && (List.range pl.count).all fun i => slotFree s pl.keel (f + i)

/-! Cut-over (R315, R316). -/

/-- A model's open sessions bound to the old epoch. -/
def oldSessions (s : State) (mi : Nat) (r : Repl) : List Nat :=
  (s.sessions.filter fun e => e.2.st != .closed && e.2.model == modelHandle mi (s.model mi).gen && e.2.epoch != r.newEpoch).map
    Prod.fst

/-- The old-epoch delta adapter of a session that the DELTA_MAP does not map. -/
def unmapped (s : State) (m : Model) (r : Repl) (i : Nat) : Bool :=
  match (s.sess i).delta with
  | none => false
  | some h =>
    let base := match findAdapter s 0 h with
      | some (k, a) => (s.adapter (adapterKey k a)).base
      | none => 0
    base == m.epoch && !(r.pairs.any fun p => p.1 == h)

/-- PREWRITE's condition on every keel (R315). -/
def prewritten (s : State) (m : Model) (r : Repl) : Bool :=
  (List.range 8).all fun k =>
    (maskOn m r k).all (fun u => match r.units.find u with
      | none => true
      | some x => unitReady s m r u x) &&
    match nextUnit s m r k with
    | none => true
    | some u => u != 256 && (shadowRun s m u).isNone

/-- A session's fate at cut-over (R316). -/
def sessionFate (r : Repl) (s : State) (i : Nat) : State :=
  let mapped := fun (h : Option W32) => match h with
    | none => none
    | some h => match r.pairs.find? fun p => p.1 == h with
      | some p => optHandle p.2
      | none => some h
  let s1 := s.onSess i fun x => { x with epoch := r.newEpoch, delta := mapped x.delta }
  if r.fate = 2 then s1.onSess i fun x => { x with mixed := true }
  else
    let s2 := s1.onSess i fun x => { x with kvStale := true, run := x.run.map Run.cut }
    let s3 := unpark (s2.onPipe fun q =>
      { q with entries := q.entries.map fun e => if e.sess = i then { e with cutStop := true } else e }) i
    if inFlight s3 i then s3.onSess i fun x => { x with st := if x.st = .starved then .busy else x.st }
    else endRun s3 i 0 4

/-- Complete a replacement when every unit of its mask that this module holds has switched after cut-over (R179, R322): the
pending bundle is the committed one, but for the sections of unmasked units. -/
def settleReplace (s : State) (mi : Nat) : State :=
  let m := s.model mi
  match m.repl, m.pendB with
  | some r, some (b, ks) =>
    if r.cut && r.mask.all (fun u => (m.units.find u).isNone || (r.units.find u).map ReplUnit.switched == some true) then
      let keep := (unitsOf m.bytes).filter fun u => !r.mask.contains u
      let nb := keep.foldl (fun x u => match unitDir b u with
        | none => x
        | some i => overlay x (dirEntry b i).off ((unitSection m.bytes u).take (dirEntry b i).len)) b
      let s1 := s.onModel mi fun m =>
        { m with st := .committed, bytes := nb, keels := ks, pendB := none, repl := none, epoch := r.newEpoch,
                 lost := (m.lost.filter fun l => !r.mask.contains l.1) ++ m.pendLost.filter fun l => r.mask.contains l.1,
                 pendLost := [],
                 units := m.units.mapAll fun _ u => { u with epoch := r.newEpoch } }
      finish s1 r.spool r.seq 0 (toLe 2 r.newEpoch)
    else s
  | _, _ => s

/-- CUT_OVER (R315, R316): REPLACE_BLOCKED names each session that blocks it, once. -/
def cutOver (mi : Nat) (s : State) : State :=
  let m := s.model mi
  match m.repl with
  | none => s
  | some r =>
    let old := oldSessions s mi r
    let blocking := if r.fate = 0 then [] else old.filter (unmapped s m r)
    if r.cut || (r.fate == 0 && !old.isEmpty) then s
    else if !blocking.isEmpty then
      (blocking.filter fun i => !r.blocked.contains i).foldl
        (fun s i =>
          (event s r.spool 0x000B (modelHandle mi m.gen) (toLe 4 (handleOf s i).toNat)).onModel mi fun m =>
            { m with repl := m.repl.map fun r => { r with blocked := r.blocked ++ [i] } }) s
    else if r.prewrite && !prewritten s m r then s
    else
      let s1 := s.onModel mi fun m => { m with repl := m.repl.map fun r => { r with cut := true } }
      settleReplace (old.foldl (sessionFate r) s1) mi

def execCutOver (mi : Nat) (s : State) : Host.Outcome State Fault Refusal :=
  guarded (Instr.wf (.cutOver mi)) s (cutOver mi s)

/-! Writing and switching a unit (R319, R320). -/

/-- Queue a unit's new copy for writing. -/
def queueUnit (s : State) (mi u : Nat) (r : Repl) (l : List (Nat × Nat)) : State :=
  l.foldl (fun s t => queueWrite s t.1 { model := mi, unit := u, record := t.2, epoch := r.newEpoch }) s

/-- SHADOW_WRITE_START: the reel engine takes the next unit of the mask on its keel, in BARRIER mode where it may,
otherwise into a shadow run (R319). -/
def shadowWriteStart (mi u : Nat) (s : State) : State :=
  let m := s.model mi
  match m.repl, m.units.find u with
  | some r, some pl =>
    if nextUnit s m r pl.keel != some u then s
    else
      let barrier := u != 256 && r.cut && !oldBefore s mi r u
      let start := fun (first : Nat) =>
        let x : ReplUnit := { barrier := barrier, first := first, edge := s.tick.edges, switched := false }
        let s1 := s.onModel mi fun m => { m with repl := m.repl.map fun r => { r with units := r.units.set u x } }
        queueUnit s1 mi u r (newTiles s m u x)
      if barrier || u = 256 then start pl.first
      else
        match shadowRun s m u with
        | none => s
        | some f => start f
  | _, _ => s

def execShadowWriteStart (mi u : Nat) (s : State) : Host.Outcome State Fault Refusal :=
  guarded (Instr.wf (.shadowWriteStart mi u)) s (shadowWriteStart mi u s)

/-- LAYER_SWITCHED (R320, R322). -/
def layerSwitched (mi u : Nat) (s : State) : State :=
  let m := s.model mi
  match m.repl, m.units.find u with
  | some r, some pl =>
    match r.units.find u with
    | none => s
    | some x =>
      if x.switched || !r.cut || !unitReady s m r u x || oldBefore s mi r u then s
      else
        let old := if x.barrier || u = 256 then [] else unitTiles s m.bytes u pl.keel pl.first
        let s1 := old.foldl (fun s t => s.onTile t.1 Tile.emptied) s
        let s2 := s1.onModel mi fun m =>
          { m with units := m.units.set u { pl with first := x.first, epoch := r.newEpoch },
                   repl := m.repl.map fun r => { r with units := r.units.set u { x with switched := true } } }
        let s3 := event s2 r.spool 0x000C (modelHandle mi m.gen)
          (toLe 2 u ++ toLe 1 (b2n x.barrier) ++ zeros 1 ++ toLe 8 s.now.toNat)
        settleReplace s3 mi
  | _, _ => s

/-- Step 3 of R171: every replacement whose cut-over is due cuts over, every unit that may switch does, and every unit that the reel
engine may take is taken, in path order (R315, R319, R320). -/
def replaceEdge (s : State) : State :=
  s.models.foldl
    (fun s e =>
      match e.2.repl with
      | none => s
      | some r =>
        let us := ([256] ++ List.range (bLayers e.2.bytes) ++ [257]).filter r.mask.contains
        us.foldl (fun s u => shadowWriteStart e.1 u s) (us.foldl (fun s u => layerSwitched e.1 u s) (cutOver e.1 s))) s

def execLayerSwitched (mi u : Nat) (s : State) : Host.Outcome State Fault Refusal :=
  guarded (Instr.wf (.layerSwitched mi u)) s (layerSwitched mi u s)

end Sys2Proof.Machine
end

