-- ==== Sys2Proof/Machine/Regs.lean ====
section
/-!
DEFINITION. Register reads (R7–R12, R28, R29, R116, R157, R198, R333, R334, R343, R344, R371, R464, R500, R534, R563):
the value of every 4-byte word that a function or the sideband can read.
-/
namespace Sys2Proof.Machine

/-- A value in the field of `n` bits at bit `lo`. -/
def fld (v lo n : Nat) : Nat := v % 2 ^ n * 2 ^ lo

/-- The low or the high 4 bytes of a 64-bit value. -/
def half (v : Nat) (high : Bool) : Nat := if high then v / 4294967296 % 4294967296 else v % 4294967296

/-- A count that stops at the maximum of `n` bits. -/
def sat (n v : Nat) : Nat := min v (2 ^ n - 1)

/-! The reset, straps and option image range (R563). -/

def resetWord (s : State) (o : Nat) : Nat :=
  let b := s.boot
  match o with
  | 0x00 => b.cause.toNat
  | 0x04 => fld b.flrLast 0 7
  | 0x0C => fld b.strapAddr 4 4 + fld b.strapClk 2 2 + fld b.strapBoot 0 2
  | 0x10 => fld (b2n b.ready) 31 1 + fld (b2n b.loadDone) 30 1 + fld b.hold 24 3 + fld b.bistFail 16 8 + fld b.step 0 4
  | 0x14 => fld b.trimBad 0 16
  | 0x18 => fld b.inUse 8 2 + fld b.bStatus 4 4 + fld b.aStatus 0 4
  | 0x1C => imageVersion s
  | 0x20 => fld (b2n b.imageBusy) 1 1 + b2n b.nvFault
  | 0x24 => fld (policyFlags s / 4) 3 1 + fld (policyFlags s / 2) 2 1 + fld (policyFlags s) 1 1 + b2n s.nv.part.signedOnly
  | _ => 0

/-! Supplies, temperature and ADC (R534). -/

/-- The reading of a thermistor. -/
def thermWord (s : State) (i : Nat) : Nat := (s.thermal.therms.get Sensor.init i).temp.toNat

/-- Word `o` of a die's record. -/
def dieWord (s : State) (d o : Nat) : Nat :=
  if o = 0 then fld (thermWord s d) 16 16 + (s.thermal.diodes.get Sensor.init d).temp.toNat
  else if o = 4 then
    fld (b2n (bothBroken s d)) 7 1 + fld (b2n (thermBroken s d)) 6 1 + fld (b2n (diodeBroken s d)) 5 1 +
    fld (s.thermal.bands.get 0 d) 0 3
  else 0

/-- Word `o` of the supplies, thermal and ADC range; the registers of channels 61–63 are reserved (R523). -/
def supplyWord (s : State) (o : Nat) : Nat :=
  let u := s.supply
  let a := s.adc
  if 0x1000 ≤ o && o < 0x1148 then dieWord s ((o - 0x1000) / 8) ((o - 0x1000) % 8)
  else if 0x4000 ≤ o && o < 0x40F4 then
    let x := a.chans.get AdcChan.init ((o - 0x4000) / 4)
    fld (b2n x.valid) 31 1 + fld (b2n x.highHit) 30 1 + fld (b2n x.lowHit) 29 1 + fld (b2n x.opened) 28 1 + fld x.code 0 12
  else if 0x4100 ≤ o && o < 0x41F4 then
    let x := a.chans.get AdcChan.init ((o - 0x4100) / 4)
    fld x.high 16 12 + fld x.low 0 12
  else if 0x4200 ≤ o && o < 0x4280 then a.seqn.getD ((o - 0x4200) / 4) 0
  else
    match o with
    | 0x00 => fld (b2n u.backupOv) 5 1 + fld (b2n u.mainOv) 4 1 + fld (b2n u.timer.isSome) 3 1 + fld (b2n u.backupGood) 2 1 +
        fld (b2n u.mainGood) 1 1 + b2n u.backup
    | 0x04 => fld u.backupV 16 16 + fld u.mainV 0 16
    | 0x08 => fld u.pAvg 16 16 + fld u.pLast 0 16
    | 0x0C => u.switches
    | 0x10 => fld (b2n u.unmet) 16 1 + fld (binLimit s.nv.part oPowerCap (opt s oPowerCap)) 0 12
    | 0x14 => u.alert.toNat
    | 0x18 => u.enable.toNat
    | 0x1C => fld s.thermal.sensorStop 8 8 + fld s.thermal.tripStop 0 8
    | 0x20 => fld (thermWord s 65) 16 16 + thermWord s 64
    | 0x24 => fld (thermWord s 67) 16 16 + thermWord s 66
    | 0x28 => le s.thermal.block 0 4
    | 0x2C => fld (byteAt s.thermal.block 5) 8 8 + byteAt s.thermal.block 4
    | 0x3000 => fld a.missed 16 16 + fld a.trigger 12 2 + fld (b2n a.running) 11 1 + fld a.entry 0 5
    | 0x3004 => fld (b2n a.injectLost) 15 1
    | 0x3008 => a.scans
    | _ => 0

/-! Tick and pipeline (R157, R198). -/

/-- The keel clock of a cap step, MHz (R193). -/
def keelClock (st : Nat) : Nat := [1800, 1800, 1800, 1600, 1400, 1200, 1000, 800].getD st 800

/-- The stage record behind a module stage index (R565). -/
def stageAt (s : State) (i : Nat) : Option StageRec :=
  s.models.findSome? fun e => if isPlaced e.2 && decide (e.2.base ≤ i) then e.2.stages[i - e.2.base]? else none

/-- Word `o` of a stage's four. -/
def stageWord (s : State) (i o : Nat) : Nat :=
  let x := s.stage i
  match o with
  | 0x0 => (match stageAt s i with
    | none => 0
    | some r => fld 1 31 1 + fld r.keel 26 3 + fld r.slotFirst 13 13 + fld r.slotCount 0 13)
  | 0x4 => fld x.positions 9 14 + fld x.entries 0 9
  | 0x8 => fld (sat 9 x.dwelling) 16 9 + fld (sat 16 x.longest) 0 16
  | 0xC => fld x.overruns 16 16 + fld x.slipped 0 16
  | _ => 0

/-- Word `o` of a keel's pipeline counters. -/
def keelWord (s : State) (k o : Nat) : Nat :=
  let x := s.keelCtr k
  match o with
  | 0x00 => x.slipService
  | 0x04 => x.slipOverrun
  | 0x08 => x.slipHandoff
  | 0x0C => x.products
  | 0x10 => sat 32 x.kvBytes
  | 0x14 => fld x.masked 0 3
  | 0x18 => fld (sat 16 x.queuedPeak) 16 16 + sat 16 x.queuedDepth
  | 0x1C => x.slipTail
  | 0x20 => x.slipWide
  | _ => 0

/-- Word `o` of a keel's side-path counters. -/
def sideWord (s : State) (k o : Nat) : Nat :=
  let x := s.keelCtr k
  match o with
  | 0x00 => x.outlierRows
  | 0x04 => x.overflow
  | 0x08 => x.rescales
  | 0x0C => x.splits
  | 0x10 => x.wideBlocks
  | 0x14 => x.wideSlips
  | 0x18 => x.tailSlips
  | 0x1C => fld x.nanSteps 16 16 + fld x.infSteps 0 16
  | 0x20 => fld (sat 16 x.wqPeak) 16 16 + sat 16 x.wqDepth
  | 0x24 => fld (sat 20 x.tailLoad) 0 20
  | _ => 0

def tickWord (s : State) (o : Nat) : Nat :=
  let t := s.tick
  if 0x1000 ≤ o && o < 0x2000 then stageWord s ((o - 0x1000) / 16) ((o - 0x1000) % 16)
  else if 0x2000 ≤ o && o < 0x2200 then keelWord s ((o - 0x2000) / 64) ((o - 0x2000) % 64)
  else if 0x8000 ≤ o && o < 0x8800 then sideWord s ((o - 0x8000) / 256) ((o - 0x8000) % 256)
  else
    match o with
    | 0x00 => half t.count.toNat false
    | 0x04 => half t.count.toNat true
    | 0x08 => fld t.role 16 2 + fld (b2n t.locked) 15 1 + fld (b2n t.holdover) 14 1 + fld t.period 0 9
    | 0x0C => (match t.pend with
      | some p => fld 1 31 1 + fld p.period 0 9
      | none => 0)
    | 0x10 => half ((t.pend.map fun p => p.at_.toNat).getD 0) false
    | 0x14 => half ((t.pend.map fun p => p.at_.toNat).getD 0) true
    | 0x18 => signed16 t.skew
    | 0x1C => fld t.comp 0 8
    | 0x20 => fld t.capStep 16 3 + fld t.budget 0 10
    | 0x24 => keelClock t.capStep
    | 0x28 => t.overruns
    | _ => 0

/-! Faults, exposure and captures (R464). -/

/-- The panel that the exposure window shows, as of the last seal. -/
def seenPanel (s : State) : SeenPanel := s.chk.seen.get SeenPanel.init s.chk.expSel

/-- The stage of the selected panel as of the last seal (R464). -/
def seenStage (s : State) : Option Nat :=
  panelStage { s with models := s.chk.seenModels, arr := { s.arr with places := s.chk.seenPlaces } } s.chk.expSel

/-- Records that EXPOSURE_READ would have returned at the last seal. -/
def seenRecords (s : State) : Nat :=
  match seenStage s with
  | none => 0
  | some st => (s.pipe.expo.get [] st).countP fun r => decide ((seenPanel s).good.toNat < r.tick.toNat)

/-- Word `o` of the exposure window. -/
def expWord (s : State) (o : Nat) : Nat :=
  let x := seenPanel s
  match o with
  | 0x00 => s.chk.expSel
  | 0x08 => half x.good.toNat false
  | 0x0C => half x.good.toNat true
  | 0x10 => fld (if s.chk.shown then (seenStage s).getD 0xFF else 0) 24 8 + fld (b2n x.overflow) 3 1 + fld (b2n x.failed) 2 1 + fld x.policy 0 2
  | 0x14 => fld (seenRecords s) 0 13
  | 0x18 => ((List.range 8).map fun t => if s.chk.seenSuspect.contains (8 * s.chk.expSel + t) then 2 ^ t else 0).sum
  | _ => 0

/-- Word `o` of the capture window. -/
def capWord (s : State) (o : Nat) : Nat :=
  let c := s.chk.seenCaps.find s.chk.capSel
  if 0x400 ≤ o && o < 0x800 then
    match c with
    | none => 0
    | some x => le (captureBytes x) (o - 0x400) 4
  else
    match o with
    | 0x00 => s.chk.capSel
    | 0x04 => fld (b2n (s.chk.seenLost.contains s.chk.capSel)) 1 1 + b2n c.isSome
    | 0x08 => half ((c.map fun x => x.tick.toNat).getD 0) false
    | 0x0C => half ((c.map fun x => x.tick.toNat).getD 0) true
    | _ => 0

def faultWord (s : State) (o : Nat) : Nat :=
  let k := s.chk
  if 0x1000 ≤ o && o < 0x2000 then expWord s (o - 0x1000)
  else if 0x2000 ≤ o && o < 0x2800 then capWord s (o - 0x2000)
  else
    match o with
    | 0x00 => k.next
    | 0x04 => oldestFault s
    | 0x08 => k.fails
    | 0x0C => k.transients
    | 0x10 => k.replays
    | 0x14 => k.residue
    | 0x18 => fld k.dramPersistent 16 16 + fld k.dramTransient 0 16
    | 0x1C => k.sram
    | 0x20 => k.spots
    | 0x24 => k.spotFails
    | 0x28 => fld (s.arr.tiles.countP fun e => e.2.suspect) 0 20
    | 0x2C => fld k.testFails 16 16 + fld k.testRuns 0 16
    | 0x30 => sat 32 k.spotMaxAge
    | _ => 0

/-! Doorbell pages (R343, R344). -/

/-- Fetch or readiness waits for completion credits (R369). -/
def stalled (q : Spool) : Bool := q.cqStall || (q.st == .opened && q.sqHead != q.sqTail && decide (credits q < 2))

/-- STATE of a spool. -/
def spoolStateCode (q : Spool) : Nat :=
  match q.st with
  | .closed => 0
  | .opened => 1
  | .halted => 2
  | .orphaned => 3

/-- Word `o` of a spool's page. -/
def spoolWord (s : State) (p o : Nat) : Nat :=
  let q := s.spool p
  let z := p == 0
  let hide := z && ([0x00, 0x04, 0x18, 0x20].contains o || (decide (0x28 ≤ o) && decide (o ≤ 0x30)) ||
    (decide (0x38 ≤ o) && decide (o ≤ 0x44)) || (decide (0x50 ≤ o) && decide (o ≤ 0x5C)))
  if hide then 0
  else
    match o with
    | 0x00 => half q.sqBase false
    | 0x04 => half q.sqBase true
    | 0x08 => half q.cqBase false
    | 0x0C => half q.cqBase true
    | 0x10 => fld q.cqOrder 8 5 + (if z then 0 else fld q.sqOrder 0 5)
    | 0x18 => q.sqTail
    | 0x1C => q.cqHead
    | 0x20 => q.sqHead
    | 0x24 => fld (b2n q.phase) 16 1 + fld q.cqTail 0 16
    | 0x28 => q.nextSeq.toNat
    | 0x2C => q.resyncSeq.toNat
    | 0x30 => q.resyncHead
    | 0x34 =>
      if z then fld (b2n q.cqFault) 8 1 + spoolStateCode q
      else
        fld (spoolOwner s p) 24 8 + fld (b2n q.cqFault) 8 1 + fld (b2n q.fetchFault) 7 1 + fld (b2n q.openErr) 6 1 +
        fld (b2n q.doorbellErr) 5 1 + fld (b2n (stalled q)) 4 1 + fld (b2n (decide (256 ≤ outstanding s p))) 3 1 +
        spoolStateCode q
    | 0x38 => fld (outstanding s p) 16 9 + sat 16 (if q.st == .closed then 0 else credits q)
    | 0x3C => fld q.errCode 16 16 + fld q.errSlot 0 16
    | 0x40 => q.errSeq.toNat
    | 0x44 => if q.st == .closed then 0 else sat 32 (idleTime s p)
    | 0x48 => q.eventCount.toNat
    | 0x4C => q.eventsLost
    | 0x50 => fld (spoolSessions s p) 0 17
    | 0x54 => fld (sessQuota s p) 0 17
    | 0x58 => sat 32 (spoolFrames s p)
    | 0x5C => frameQuota s p
    | _ => 0

/-! Calibration windows (R116). -/

/-- Age in ns of a tile: it runs on from the previous refresh until the second half completes (R101, R102). -/
def tileAge (s : State) (t : Tile) : Nat := s.tick.time - t.refreshed

/-- What a window's TRIM page shows: the last snapshot's trims, and before the first, after the reset load, those of the panel
that the window selects after reset (R89, R116; log 106). -/
def snapTrims (s : State) (k : Nat) (w : CalWin) : List Nat :=
  if w.valid then w.snap.trims else if s.boot.loadDone then loadedTrims s (8192 * k) else []

/-- Word `o` of a keel's calibration window. -/
def calWord (s : State) (k o : Nat) : Nat :=
  let w := s.arr.wins.get CalWin.init k
  let two := fun (f : Nat → Nat) (i : Nat) => f i + 65536 * f (i + 1)
  let i := fun (base : Nat) => (o - base) / 2
  if 0x30 ≤ o && o < 0x40 then
    let d := 4 * k + (o - 0x30) / 4
    fld (Nat.log2 (s.dieAt d).divisor) 28 2 + fld (s.dieAt d).band 25 3 +
      sat 16 (s.arr.tiles.countP fun e => e.1 / 16384 == d && e.2.holds.isSome && e.2.refreshUrgent)
  else if 0x40 ≤ o && o < 0x50 then
    let d := 4 * k + (o - 0x40) / 4
    sat 32 ((((s.arr.tiles.filter fun e => e.1 / 16384 == d && e.2.holds.isSome).map fun e => tileAge s e.2).foldl max 0) / 1000)
  else if 0x1000 ≤ o && o < 0x1800 then two (fun c => (w.snap.o.getD c 0).toNat) (i 0x1000)
  else if 0x1800 ≤ o && o < 0x2000 then two (fun c => (w.snap.gc.getD c 0x3C00#16).toNat) (i 0x1800)
  else if 0x2000 ≤ o && o < 0x2010 then two (fun c => (w.snap.gt.getD c 0x3C00#16).toNat) (i 0x2000)
  else if 0x2010 ≤ o && o < 0x2030 then
    let d := w.snap.drifts.getD ((o - 0x2010) / 4) (0, 0)
    fld (signed16 d.1) 16 16 + signed16 d.2
  else if 0x3000 ≤ o && o < 0x3830 then two (fun n => (snapTrims s k w).getD n 0) (i 0x3000)
  else if 0x4000 ≤ o && o < 0x4100 then
    two (fun n => (w.snap.red.getD (n / 16) []).getD (n % 16) 0 % 36864) (i 0x4000)
  else
    match o with
    | 0x00 => fld w.position 11 2 + fld w.panel 0 11
    | 0x08 => fld (b2n w.valid) 1 1 + b2n w.busy.isSome
    | 0x10 => half w.tick.toNat false
    | 0x14 => half w.tick.toNat true
    | 0x18 => w.snap.state
    | 0x20 => half w.snap.last.toNat false
    | 0x24 => half w.snap.last.toNat true
    | 0x28 => w.snap.counts
    | 0x50 => w.scrubRows
    | 0x54 => w.scrubBits
    | _ => 0

/-! BAR2 (R500). -/

/-- STATE of a link. -/
def linkStateCode (x : Link) : Nat :=
  match x.st with
  | .down => 0
  | .training => 1
  | .up => 2
  | .degraded => 3
  | .lost => 4

/-- Bits of the lanes from `lo`, `n` of them, that a list names. -/
def laneBits (l : List Nat) (lo n : Nat) : Nat := ((List.range n).map fun i => if l.contains (lo + i) then 2 ^ i else 0).sum

/-- Word `o` of a link's record. -/
def linkWord (s : State) (l o : Nat) : Nat :=
  let x := s.link l
  if !linkOk l then 0
  else
    match o with
    | 0x00 => fld x.lanes 16 8 + fld (lanesMax l) 8 8 + fld x.speed 4 4 + linkStateCode x
    | 0x08 => fld (b2n x.orderErr) 5 1 + fld (b2n x.neighbour.isSome) 4 1 + fld (x.neighbour.getD 0) 0 4
    | 0x0C => x.crcErrors
    | 0x10 => x.replays
    | 0x14 => fld x.fecBad 16 16 + fld (x.fecGood / 65536) 0 16
    | 0x18 => fld x.degrades 16 16 + fld x.restores 0 16
    | 0x1C => laneBits x.working 0 32
    | 0x20 => if isBridle l then laneBits x.working 32 32 else 0
    | 0x24 => laneBits (x.working.drop (if x.lanes = 64 then 64 else 0)) 64 4
    | _ => 0

/-- The context that a unit shows (R488, R500; log 65). -/
def shownCtx (s : State) (u : Nat) : CvuCtx :=
  let c := s.cvu.get Cvu.init u
  c.ctxs.get CvuCtx.init c.sel

/-- Word `o` of a check-value unit. -/
def cvuWord (s : State) (u o : Nat) : Nat :=
  let c := s.cvu.get Cvu.init u
  let x := shownCtx s u
  let h := hostCtx s u
  match o with
  | 0x00 => c.sel
  | 0x04 => fld x.alg 8 2 + b2n x.inUse
  | 0x08 => half x.value.toNat false
  | 0x0C => half x.value.toNat true
  | 0x10 => h.alg
  | 0x18 => half h.value.toNat false
  | 0x1C => half h.value.toNat true
  | 0x28 => half (cvuFinal h).toNat false
  | 0x2C => half (cvuFinal h).toNat true
  | _ => 0

/-- Word `o` of a keel's arbiter counters. -/
def arbWord (s : State) (k o : Nat) : Nat :=
  match o with
  | 0x00 => s.arb.revokes.get 0 k
  | 0x04 => s.arb.masked.get 0 k
  | 0x08 => s.arb.reserve.get 0 k
  | 0x0C => fld (attnQuota s k) 16 16 + fld (walkerQuota s) 0 16
  | _ => 0

/-- The word at an offset of BAR2 (R469, R500). The component registers below 0x1_0000 have the layout of CXL 3.1, which the
manual does not give: what they read is a free value (log 94). -/
def bar2Word (s : State) (o : Nat) : Nat :=
  if o < 0x10000 then (Config.freeWord (s.free + o)).toNat
  else if 0x10000 ≤ o && o < 0x10800 then linkWord s ((o - 0x10000) / 64) ((o - 0x10000) % 64)
  else if 0x11000 ≤ o && o < 0x11900 then cvuWord s ((o - 0x11000) / 256) ((o - 0x11000) % 256)
  else if 0x12000 ≤ o && o < 0x12200 then arbWord s ((o - 0x12000) / 64) ((o - 0x12000) % 64)
  else 0

/-! Whole ranges. -/

/-- A sync counter's word. -/
def counterWord (s : State) (o : Nat) : Nat := half (s.counter (o / 8)).toNat (o % 8 == 4)

/-- The word at an offset of the PF's BAR0 (R28). -/
def bar0Word (s : State) (o : Nat) : Nat :=
  if o < 0x10000 then (if o < 0x40 then le (identityRegs s.nv) o 4 else 0)
  else if o < 0x20000 then resetWord s (o - 0x10000)
  else if o < 0x30000 then supplyWord s (o - 0x20000)
  else if o < 0x40000 then tickWord s (o - 0x30000)
  else if o < 0x50000 then faultWord s (o - 0x40000)
  else if 0x80000 ≤ o && o < 0x90000 then counterWord s (o - 0x80000)
  else if 0x100000 ≤ o && o < 0x200000 then spoolWord s ((o - 0x100000) / 256) ((o - 0x100000) % 256)
  else if 0x1000000 ≤ o && o < 0x2000000 then calWord s ((o - 0x1000000) / 0x200000) ((o - 0x1000000) % 0x200000)
  else 0

/-- Whether a function's BAR0 shows an offset (R333): the PF all, a VF identity, its counters and its pages. -/
def shown (s : State) (fn o : Nat) : Bool :=
  fn == 0 || decide (o < 0x10000) ||
  (decide (0x80000 ≤ o) && decide (o < 0x90000) && counterOwner s ((o - 0x80000) / 8) == fn) ||
  (decide (0x100000 ≤ o) && decide (o < 0x200000) && spoolOwner s ((o - 0x100000) / 256) == fn)

/-- The 4-byte word that a function reads (R10, R11, R28, R333, R469). -/
def readWord (s : State) (fn bar o : Nat) : Nat :=
  if o % 4 != 0 then 0
  else if bar = 0 then (if shown s fn o then bar0Word s o else 0)
  else if fn = 0 then bar2Word s o
  else 0

/-- Whether an offset is the low half of a 64-bit RO register or of a sync counter (R12). -/
def latched (bar o : Nat) : Bool :=
  if bar = 0 then
    [0x08, 0x30000, 0x30010, 0x41008, 0x42008].contains o || (decide (0x80000 ≤ o) && decide (o < 0x90000) && o % 8 == 0) ||
    (decide (0x1000000 ≤ o) && decide (o < 0x2000000) && [0x10, 0x20].contains (o % 0x200000))
  else decide (0x11000 ≤ o) && decide (o < 0x11900) && [0x08, 0x28].contains (o % 256)

/-- The key of a register's latch: function (65 the sideband), BAR and offset. -/
def latchKey (fn bar o : Nat) : Nat := (fn * 4 + bar) * 0x10000000 + o

/-- A 4-byte read of a low half latches the high half of that instant (R12). -/
def readLow (s : State) (fn bar o : Nat) : State :=
  let hi := BitVec.ofNat 32 (readWord s fn bar (o + 4))
  s.onBus fun b =>
    { b with rdata := BitVec.ofNat 64 (readWord s fn bar o),
             latch := if latched bar o then b.latch.set (latchKey fn bar o) hi else b.latch }

/-- A 4-byte read of a high half returns the latched value, if one is held, and releases it (R12). -/
def readHigh (s : State) (fn bar o : Nat) : State :=
  let key := latchKey fn bar (o - 4)
  match (if latched bar (o - 4) then s.bus.latch.find key else none) with
  | some v => s.onBus fun b => { b with rdata := BitVec.ofNat 64 v.toNat, latch := b.latch.del key }
  | none => s.onBus fun b => { b with rdata := BitVec.ofNat 64 (readWord s fn bar o) }

/-- After an access to a component register what those read is open again (log 94). -/
def afterComponent (bar o : Nat) (s : State) : State :=
  if bar != 0 && decide (o < 0x10000) then { s with free := s.free + 131072 } else s

/-- A 4-byte read: of a low half or of any other register, or of a high half (R12). -/
def readFour (s : State) (fn bar o : Nat) : State :=
  if latched bar (o - 4) && decide (4 ≤ o) then readHigh s fn bar o else readLow s fn bar o

/-- A naturally aligned 8-byte read: both halves of one instant, the latches as they were (R11, R12). -/
def readEight (s : State) (fn bar o : Nat) : State :=
  s.onBus fun b => { b with rdata := BitVec.ofNat 64 (readWord s fn bar o + 4294967296 * readWord s fn bar (o + 4)) }

/-- A read of any size: those of 4 and 8 bytes, naturally aligned, answer the register; any other reads 0 (R11). -/
def readAccess (s : State) (fn bar o size : Nat) : State :=
  if size = 4 && o % 4 = 0 then readFour s fn bar o
  else if size = 8 && o % 8 = 0 then readEight s fn bar o
  else s.onBus fun b => { b with rdata := 0 }

/-- LATCHED_LOW_READ, which stands for a register read of any size at any offset (log 97). -/
def latchedLowRead (fn bar : Nat) (r : ReadAt) (s : State) : State :=
  if s.boot.ready then afterComponent bar r.offset (readAccess s fn bar r.offset r.size) else s
def execLatchedLowRead (fn bar : Nat) (r : ReadAt) (s : State) : Host.Outcome State Fault Refusal :=
  guarded (Instr.wf (.latchedLowRead fn bar r)) s (latchedLowRead fn bar r s)

/-- LATCHED_HIGH_READ: `o` is the offset of the high half. -/
def latchedHighRead (fn bar o : Nat) (s : State) : State :=
  if s.boot.ready then afterComponent bar o (readAccess s fn bar o 4) else s
def execLatchedHighRead (fn bar o : Nat) (s : State) : Host.Outcome State Fault Refusal :=
  guarded (Instr.wf (.latchedHighRead fn bar o)) s (latchedHighRead fn bar o s)

end Sys2Proof.Machine
end

