-- ==== Sys2Proof/Machine/RegWrite.lean ====
section
/-!
DEFINITION. Register writes (R7–R11, R117, R333, R334, R339, R341, R343–R346, R361, R372, R384, R386, R464, R500, R527,
R534, R560–R563) and the sideband.
-/
namespace Sys2Proof.Machine

/-! Doorbell pages. -/

/-- Whether a function may write a spool's page (R333, R334). -/
def writesSpool (s : State) (fn p : Nat) : Bool := s.boot.ready && spoolOwner s p == fn

/-- SQ_TAIL: an index at or above the ring size is ignored and flagged; a CLOSED spool takes none (R343, R386). -/
def sqTailDoorbell (fn p v : Nat) (s : State) : State :=
  let q := s.spool p
  let i := v % 65536
  if !writesSpool s fn p || p == 0 || q.st == .closed then s
  else if i < 2 ^ q.useSqOrd then s.onSpool p fun q => { q with sqTail := i }
  else s.onSpool p fun q => { q with doorbellErr := true }

def execSqTailDoorbell (fn p v : Nat) (s : State) : Host.Outcome State Fault Refusal :=
  guarded (Instr.wf (.sqTailDoorbell fn p v)) s (sqTailDoorbell fn p v s)

/-- CQ_HEAD: the records up to the index are consumed; an index outside the span from CQ_HEAD to CQ_TAIL is ignored
and flagged (R341, R386). -/
def cqHeadWrite (fn p v : Nat) (s : State) : State :=
  let q := s.spool p
  let i := v % 65536
  let size := 2 ^ q.useCqOrd
  let n := (i + size - q.cqHead) % size
  if !writesSpool s fn p || q.st == .closed then s
  else if i < size && n ≤ (q.cqTail + size - q.cqHead) % size then
    s.onSpool p fun q => { q with cqHead := i, ring := q.ring.drop n }
  else s.onSpool p fun q => { q with doorbellErr := true }

def execCqHeadWrite (fn p v : Nat) (s : State) : Host.Outcome State Fault Refusal :=
  guarded (Instr.wf (.cqHeadWrite fn p v)) s (cqHeadWrite fn p v s)

/-- Whether the ring registers of a spool are in range; of spool 0 only the completion ring counts (R338, R346). -/
def ringsOk (p : Nat) (q : Spool) : Bool :=
  let sq := decide (4 ≤ q.sqOrder) && decide (q.sqOrder ≤ 16) && addrOk 4096 q.sqBase (64 * 2 ^ q.sqOrder)
  let cq := decide (6 ≤ q.cqOrder) && decide (q.cqOrder ≤ 16) && addrOk 4096 q.cqBase (32 * 2 ^ q.cqOrder)
  (p == 0 || sq) && cq

/-- SPOOL_CTRL_OPEN (R346). -/
def spoolCtrlOpen (fn p : Nat) (s : State) : State :=
  let q := s.spool p
  if !writesSpool s fn p || q.st != .closed then s
  else if ringsOk p q then
    s.onSpool p fun q => openSpool q q.sqBase q.cqBase q.sqOrder q.cqOrder q.resyncSeq (opt s oSpoolSessionQuota) (opt s oSpoolFrameQuota) s.tick.time
  else s.onSpool p fun q => { q with openErr := true }

def execSpoolCtrlOpen (fn p : Nat) (s : State) : Host.Outcome State Fault Refusal :=
  guarded (Instr.wf (.spoolCtrlOpen fn p)) s (spoolCtrlOpen fn p s)

/-- SPOOL_CTRL_RESYNC (R361, R384). -/
def spoolCtrlResync (fn p : Nat) (s : State) : State :=
  let q := s.spool p
  if !writesSpool s fn p then s
  else if p = 0 then (if q.st == .opened then resyncSpool0 s else s)
  else if q.st == .halted || q.st == .orphaned then resyncSpool s p
  else s

def execSpoolCtrlResync (fn p : Nat) (s : State) : Host.Outcome State Fault Refusal :=
  guarded (Instr.wf (.spoolCtrlResync fn p)) s (spoolCtrlResync fn p s)

/-- One half of a 64-bit value replaced. -/
def putHalf (old v : Nat) (high : Bool) : Nat :=
  if high then v * 4294967296 + old % 4294967296 else old / 4294967296 * 4294967296 + v

/-- A write of RING_ORDER: reserved encodings leave their field (R9); SQ_ORDER of spool 0 is reserved (R344). -/
def putOrders (p : Nat) (q : Spool) (v : Nat) : Spool :=
  let so := bitsOf v 0 5
  let co := bitsOf v 8 5
  { q with
    sqOrder := if p != 0 && 4 ≤ so && so ≤ 16 then so else q.sqOrder
    cqOrder := if 6 ≤ co && co ≤ 16 then co else q.cqOrder
    dirty := true }

/-- A word written to a doorbell page. -/
def writeSpoolWord (fn p o v : Nat) (s : State) : State :=
  let on := fun (f : Spool → Spool) => if writesSpool s fn p then s.onSpool p f else s
  match o with
  | 0x00 => on fun q => if p = 0 then q else { q with sqBase := putHalf q.sqBase (v / 4096 * 4096) false, dirty := true }
  | 0x04 => on fun q => if p = 0 then q else { q with sqBase := putHalf q.sqBase v true, dirty := true }
  | 0x08 => on fun q => { q with cqBase := putHalf q.cqBase (v / 4096 * 4096) false, dirty := true }
  | 0x0C => on fun q => { q with cqBase := putHalf q.cqBase v true, dirty := true }
  | 0x10 => on fun q => putOrders p q v
  | 0x14 =>
    let s1 := if bitOf v 0 then spoolCtrlOpen fn p s else s
    if bitOf v 1 then spoolCtrlResync fn p s1 else s1
  | 0x18 => sqTailDoorbell fn p v s
  | 0x1C => cqHeadWrite fn p v s
  | 0x2C => on fun q => if p = 0 then q else { q with resyncSeq := BitVec.ofNat 32 v }
  | 0x30 => on fun q => if p = 0 then q else { q with resyncHead := v % 65536 }
  | 0x34 => on fun q => if p = 0 then q else
      { q with openErr := q.openErr && !bitOf v 6, doorbellErr := q.doorbellErr && !bitOf v 5 }
  | _ => s

/-! Sync counters (R334, R372). -/

/-- SYNC_COUNTER_WRITE: an 8-byte write by the counter's owner. -/
def syncCounterWrite (fn n size : Nat) (v : W64) (s : State) : State :=
  if s.boot.ready && size = 8 && counterOwner s n == fn then updateCounter s (.put n v) else s

def execSyncCounterWrite (fn n size : Nat) (v : W64) (s : State) : Host.Outcome State Fault Refusal :=
  guarded (Instr.wf (.syncCounterWrite fn n size v)) s (syncCounterWrite fn n size v s)

/-! Calibration windows (R116, R117). -/

/-- The panel that a keel's window selects. -/
def winPanel (k : Nat) (w : CalWin) : Nat := (4 * k + w.position) * 2048 + w.panel

/-- CAL_SNAP: a capture at the next seal, ignored while one is pending. -/
def calSnap (k : Nat) (s : State) : State :=
  if s.boot.ready then s.onWin k fun w => if w.busy.isSome then w else { w with busy := some (winPanel k w) } else s

def execCalSnap (k : Nat) (s : State) : Host.Outcome State Fault Refusal :=
  guarded (Instr.wf (.calSnap k)) s (calSnap k s)

/-- A word written to a calibration window. -/
def writeCalWord (k o v : Nat) (s : State) : State :=
  match o with
  | 0x00 => s.onWin k fun w =>
      { w with position := bitsOf v 11 2, panel := if bitsOf v 0 11 < 1856 then bitsOf v 0 11 else w.panel }
  | 0x04 => if bitOf v 0 then calSnap k s else s
  | _ => s

/-! Supplies and ADC (R527, R528, R534). -/

/-- A write of ADC_INJECT: INJECT_LOST clears, GO injects a channel of 0–60. -/
def writeInject (v : Nat) (s : State) : State :=
  let s1 := if bitOf v 15 then s.onAdc fun a => { a with injectLost := false } else s
  if bitOf v 7 && bitsOf v 0 6 ≤ 60 then inject s1 (bitsOf v 0 6) else s1

/-- ADC_INJECT_GO. -/
def adcInjectGo (v : W32) (s : State) : State := if s.boot.ready then writeInject v.toNat s else s

def execAdcInjectGo (v : W32) (s : State) : Host.Outcome State Fault Refusal :=
  guarded (Instr.wf (.adcInjectGo v)) s (adcInjectGo v s)

/-- Change an ADC channel. -/
def onChan (s : State) (c : Nat) (f : AdcChan → AdcChan) : State :=
  s.onAdc fun a => { a with chans := a.chans.upd AdcChan.init c f }

/-- A word written to the supplies, thermal and ADC range; the registers of channels 61–63 take nothing (R523). -/
def writeSupplyWord (o v : Nat) (s : State) : State :=
  if 0x4000 ≤ o && o < 0x40F4 then
    onChan s ((o - 0x4000) / 4) fun x =>
      { x with highHit := x.highHit && !bitOf v 30, lowHit := x.lowHit && !bitOf v 29 }
  else if 0x4100 ≤ o && o < 0x41F4 then
    onChan s ((o - 0x4100) / 4) fun x => { x with high := bitsOf v 16 12, low := bitsOf v 0 12 }
  else
    match o with
    | 0x14 => s.onSupply fun u => { u with alert := u.alert &&& ~~~(BitVec.ofNat 9 v) }
    | 0x18 => s.onSupply fun u => { u with enable := BitVec.ofNat 9 v }
    | 0x3004 => writeInject v s
    | _ => s

/-! Reset range (R562, R563). -/

/-- A word written to the reset range. -/
def writeResetWord (o v : Nat) (s : State) : State :=
  match o with
  | 0x00 => s.onBoot fun b => { b with cause := b.cause &&& ~~~(BitVec.ofNat 9 v) }
  | 0x08 => resetCtrlWrite s v
  | 0x20 => if bitOf v 0 then s.onBoot fun b => { b with nvFault := false } else s
  | _ => s

/-! BAR2 (R482, R489, R500). -/

/-- A word written to BAR2. -/
def writeBar2Word (o v : Nat) (s : State) : State :=
  if o < 0x10000 then afterComponent 2 o s
  else if 0x10000 ≤ o && o < 0x10800 then
    let l := (o - 0x10000) / 64
    if (o - 0x10000) % 64 = 4 && bitOf v 0 && linkOk l then rewiden l s else s
  else if 0x11000 ≤ o && o < 0x11900 then
    let u := (o - 0x11000) / 256
    match (o - 0x11000) % 256 with
    | 0x00 => s.onCvu u fun c => { c with sel := v % 16 }
    | 0x10 => cvuHostPoly u v s
    | 0x14 => if bitOf v 0 then cvuHostInit u s else s
    | 0x18 => cvuHostValueWrite u 0x18 4 (BitVec.ofNat 64 v) s
    | 0x1C => cvuHostValueWrite u 0x1C 4 (BitVec.ofNat 64 v) s
    | 0x20 => cvuHostData u 4 (BitVec.ofNat 64 v) s
    | 0x24 => cvuHostData u 4 (BitVec.ofNat 64 v) s
    | _ => s
  else s

/-! Whole accesses. -/

/-- A word written to the PF's BAR0, or to the part of it that a VF sees. -/
def writeBar0Word (fn o v : Nat) (s : State) : State :=
  if 0x100000 ≤ o && o < 0x200000 then writeSpoolWord fn ((o - 0x100000) / 256) ((o - 0x100000) % 256) v s
  else if fn != 0 then s
  else if 0x10000 ≤ o && o < 0x20000 then writeResetWord (o - 0x10000) v s
  else if 0x20000 ≤ o && o < 0x30000 then writeSupplyWord (o - 0x20000) v s
  else if o = 0x41000 then s.onChk fun k => { k with expSel := v }
  else if o = 0x42000 then s.onChk fun k => { k with capSel := v % 524288 }
  else if 0x1000000 ≤ o && o < 0x2000000 then writeCalWord ((o - 0x1000000) / 0x200000) ((o - 0x1000000) % 0x200000) v s
  else s

/-- A 4-byte write. -/
def writeWord (fn bar o v : Nat) (s : State) : State :=
  if bar = 0 then writeBar0Word fn o v s else if fn = 0 then writeBar2Word o v s else s

/-- REGISTER_WRITE: naturally aligned accesses of 4 and 8 bytes (R11); an 8-byte access writes its low word, then its
high word, and a sync counter as a whole. -/
def registerWrite (fn bar o size : Nat) (v : W64) (s : State) : State :=
  let lo := v.toNat % 4294967296
  let hi := v.toNat / 4294967296
  if !s.boot.ready || o % size != 0 then s
  else if bar = 0 && 0x80000 ≤ o && o < 0x90000 then syncCounterWrite fn ((o - 0x80000) / 8) size v s
  else if size = 4 then writeWord fn bar o lo s
  else if size = 8 then writeWord fn bar (o + 4) hi (writeWord fn bar o lo s)
  else s

def execRegisterWrite (fn bar o size : Nat) (v : W64) (s : State) : Host.Outcome State Fault Refusal :=
  guarded (Instr.wf (.registerWrite fn bar o size v)) s (registerWrite fn bar o size v s)

/-! The sideband (R560). -/

/-- Whether the sideband answers: from the end of step 2. -/
def sidebandUp (s : State) : Bool := s.boot.powered && decide (3 ≤ s.boot.step)

/-- The static address of the I3C target (R560). -/
def staticAddress (s : State) : Nat := 0x50 + s.boot.strapAddr

/-- Whether a private transfer to an address reaches the module: at its dynamic address (R560). -/
def sidebandTo (s : State) (addr : Nat) : Bool := sidebandUp s && s.boot.sbAddr == some addr

/-- A word written over the sideband to a register. -/
def sidebandWord (o v : Nat) (s : State) : State :=
  if o = 0x10008 then (if sidebandControl s then resetCtrlWrite s v else s)
  else if 0x10000 ≤ o && o < 0x20000 then writeResetWord (o - 0x10000) v s
  else if 0x20000 ≤ o && o < 0x30000 then writeSupplyWord (o - 0x20000) v s
  else s

/-- Words written at consecutive offsets. -/
def sidebandWords (o : Nat) : List Nat → State → State
  | [], s => s
  | v :: r, s => sidebandWords (o + 4) r (sidebandWord o v s)

/-- A private write: the data goes to consecutive offsets in 4-byte units, and to the image buffer byte by byte. -/
def privateWrite (addr o : Nat) (data : List Byte) (s : State) : State :=
  if !sidebandTo s addr then s
  else
    let s1 := s.onBoot fun b => { b with sbOffset := o }
    if 0x80000000 ≤ o && o < 0x80010000 then
      if sidebandControl s then
        s1.onBoot fun b => { b with buffer := b.buffer.writeBytes (o - 0x80000000) (data.take (0x80010000 - o)) }
      else s1
    else if o = 0x80010000 then (if data.isEmpty then s1 else imageGo s1)
    else if o % 4 = 0 then sidebandWords o (words data (data.length / 4)) s1
    else s1

/-- SIDEBAND_WRITE: SETDASA gives the target named by its static address a dynamic address, once (log 150), or a private write. -/
def sidebandWrite (w : SbWrite) (s : State) : State :=
  match w with
  | .setdasa st d =>
    if sidebandUp s && s.boot.sbAddr.isNone && st == staticAddress s then s.onBoot fun b => { b with sbAddr := some d } else s
  | .priv addr o data => privateWrite addr o data s

def execSidebandWrite (w : SbWrite) (s : State) : Host.Outcome State Fault Refusal :=
  guarded (Instr.wf (.sidebandWrite w)) s (sidebandWrite w s)

/-- SIDEBAND_READ: 4 bytes from the offset last written, with the sideband's own latch (R12, R560). -/
def sidebandRead (addr : Nat) (s : State) : State :=
  let o := s.boot.sbOffset
  if !sidebandTo s addr then s
  else if 0x80000000 ≤ o && o < 0x80010000 then
    s.onBus fun b => { b with rdata := BitVec.ofNat 64 (le (s.boot.buffer.readBytes (o - 0x80000000) 4) 0 4) }
  else if 0x30000 ≤ o then s.onBus fun b => { b with rdata := 0 }
  else if latched 0 o then
    s.onBus fun b =>
      { b with rdata := BitVec.ofNat 64 (bar0Word s o),
               latch := b.latch.set (latchKey 65 0 o) (BitVec.ofNat 32 (bar0Word s (o + 4))) }
  else
    match (if latched 0 (o - 4) then s.bus.latch.find (latchKey 65 0 (o - 4)) else none) with
    | some v => s.onBus fun b => { b with rdata := BitVec.ofNat 64 v.toNat, latch := b.latch.del (latchKey 65 0 (o - 4)) }
    | none => s.onBus fun b => { b with rdata := BitVec.ofNat 64 (if o % 4 = 0 then bar0Word s o else 0) }

def execSidebandRead (addr : Nat) (s : State) : Host.Outcome State Fault Refusal :=
  guarded (Instr.wf (.sidebandRead addr)) s (sidebandRead addr s)

end Sys2Proof.Machine
end

