-- ==== Sys2Proof/Machine/Intake.lean ====
section
/-!
DEFINITION. Intake, the start of commands, the writing of records, and the host transfers of commands that move data
(R340–R342, R353–R370, R373–R375, R383–R386).
-/
namespace Sys2Proof.Machine

/-! Running a fetched command. -/

/-- The tests and effects of a host command at its start. -/
def runHost (i : Instr) (s : State) : State :=
  match i with
  | .nop c => runNop c s
  | .identify c addr => runIdentify c addr s
  | .getStatus c => runGetStatus c s
  | .setOption c option value => runSetOption c option value s
  | .getOption c option source => runGetOption c option source s
  | .tickConfig c period ext => runTickConfig c period ext s
  | .syncSignal c counter op value => runSyncSignal c counter op value s
  | .syncWait c counter rel timeout target => runSyncWait c counter rel timeout target s
  | .spoolOpen c sqBase cqBase sqOrder cqOrder firstSeq quotas => runSpoolOpen c sqBase cqBase sqOrder cqOrder firstSeq quotas s
  | .spoolClose c release => runSpoolClose c release s
  | .keepalive c => runKeepalive c s
  | .spoolAdopt c => runSpoolAdopt c s
  | .bundleStage c addr length mode first count keels => runBundleStage c addr length mode first count keels s
  | .modelPlace c stages formats => runModelPlace c stages formats s
  | .modelWrite c => runModelWrite c s
  | .modelCommit c => runModelCommit c s
  | .modelReplace c fate ext => runModelReplace c fate ext s
  | .modelUnload c pend => runModelUnload c pend s
  | .panelRetire c panel => runPanelRetire c panel s
  | .panelRemap c mode panel spare addr => runPanelRemap c mode panel spare addr s
  | .sessionOpen c maxContext steer delta ext => runSessionOpen c maxContext steer delta ext s
  | .sessionPrefill c addr count sample dropPending => runSessionPrefill c addr count sample dropPending s
  | .sessionStep c count => runSessionStep c count s
  | .sessionCancel c free => runSessionCancel c free s
  | .sessionRelease c => runSessionRelease c s
  | .sessionRebind c r => runSessionRebind c r s
  | .sessionFork c ext => runSessionFork c ext s
  | .sessionTruncate c length pend => runSessionTruncate c length pend s
  | .sessionRecompute c addr first count => runSessionRecompute c addr first count s
  | .sessionQuery c addr => runSessionQuery c addr s
  | .specVerify c k rejection list addr => runSpecVerify c k rejection list addr s
  | .adapterLoad c addr length replaces => runAdapterLoad c addr length replaces s
  | .adapterRetire c => runAdapterRetire c s
  | .adapterQuery c => runAdapterQuery c s
  | .steerBankLoad c addr first count => runSteerBankLoad c addr first count s
  | .frameQuota c sessions frames => runFrameQuota c sessions frames s
  | .frameQuery c addr => runFrameQuery c addr s
  | .kvExport c addr limit => runKvExport c addr limit s
  | .kvImport c addr length pend => runKvImport c addr length pend s
  | .calRun c panel keels => runCalRun c panel keels s
  | .calRead c panel addr => runCalRead c panel addr s
  | .calWrite c addr => runCalWrite c addr s
  | .trimRead c first count addr => runTrimRead c first count addr s
  | .trimWrite c addr count => runTrimWrite c addr count s
  | .redundancyLoad c addr count => runRedundancyLoad c addr count s
  | .refreshPolicy c dies divisor => runRefreshPolicy c dies divisor s
  | .testPanel c panel => runTestPanel c panel s
  | .testCore c core => runTestCore c core s
  | .bistRun c keels => runBistRun c keels s
  | .faultRead c addr first count => runFaultRead c addr first count s
  | .exposureRead c panel count addr => runExposureRead c panel count addr s
  | .captureRead c tile addr => runCaptureRead c tile addr s
  | .checkPolicy c panel policy => runCheckPolicy c panel policy s
  | .attest c addr limit nonce => runAttest c addr limit nonce s
  | .imageWrite c addr copy => runImageWrite c addr copy s
  | .keyInfo c addr => runKeyInfo c addr s
  | .adcSequence c addr => runAdcSequence c addr s
  | .adcRead c channels addr => runAdcRead c channels addr s
  | .thermalConfig c addr => runThermalConfig c addr s
  | .supplyStatus c => runSupplyStatus c s
  | _ => s

/-! PACKET_FETCH. -/

/-- Whether a spool has packets that intake may fetch (R361, R364, R369, R468, R548). -/
def fetchable (s : State) (p : Nat) : Bool :=
  let q := s.spool p
  intakeOpen s && p != 0 && q.st == .opened && q.sqHead != q.sqTail && decide (2 ≤ credits q) &&
  decide (outstanding s p < 256)

/-- The spool that intake serves next (R362): the one whose turn it is, for up to 8 packets, then the next in ascending order,
round robin, that has packets it may fetch (log 120). -/
def fetchNext (s : State) : Option Nat :=
  if s.bus.served < 8 && fetchable s s.bus.turn then some s.bus.turn
  else
    let ps := (s.spools.map Prod.fst).filter (fetchable s)
    (ps.find? fun p => decide (s.bus.turn < p)) <|> ps.head?

/-- Whether intake fetches from a spool now. -/
def canFetch (s : State) (p : Nat) : Bool := fetchable s p && fetchNext s == some p

/-- A packet counts in its spool's turn (R362). -/
def takeFetch (s : State) (p : Nat) : State :=
  (s.onSpool p fun q => { q with lastFetch := s.tick.time }).onBus fun b =>
    { b with turn := p, served := if b.turn = p && decide (b.served < 8) then b.served + 1 else 1 }

/-- An ERROR that leaves the duplicate store alone (R356, R359, R360). -/
def fetchError (s : State) (p op : Nat) (seq handle : W32) (code : Nat) : State :=
  let q := s.spool p
  let r : Rec := { opcode := op, cls := 4, code := code, seq := seq, handle := handle, tick := s.now,
                   results := errorResults q.nextSeq q.sqHead code [], dup := false }
  pushDue (s.onSpool p fun q => noteError q code q.sqHead seq) p r none none

/-- Move SQ_HEAD past the packet fetched (R340). -/
def passSlot (s : State) (p : Nat) : State :=
  s.onSpool p fun q => { q with sqHead := (q.sqHead + 1) % 2 ^ q.useSqOrd }

/-- A copy of a stored record; an ERROR among them is the spool's last (R343, R359). -/
def sendStored (s : State) (p : Nat) (f : Fetched) (r : Rec) : State :=
  let s1 := pushDue s p { r with dup := true } none none
  if r.cls = 4 then s1.onSpool p fun q => noteError q r.code q.sqHead f.seq else s1

/-- A duplicate is answered from the duplicate store (R359). -/
def answerDuplicate (s : State) (p : Nat) (f : Fetched) : State :=
  match (s.spool p).dup.find? fun d => d.seq == f.seq with
  | none => fetchError s p f.op f.seq f.handle 0x0202
  | some d =>
    if d.opcode != f.op then fetchError s p f.op f.seq f.handle 0x0204
    else
      match d.stored with
      | none => fetchError s p f.op f.seq f.handle 0x0202
      | some r => sendStored s p f r

/-- A new packet that passes its checks becomes outstanding, with its credits reserved; a MODE WAIT is evaluated
for the first time (R358, R364, R368, R375). -/
def acceptPacket (s : State) (p : Nat) (f : Fetched) (i : Instr) : State :=
  (makeRoom s p f.seq).onSpool p fun q =>
    let o := { fetchedCmd s f.seq q.sqHead f.op i with released := f.mode != 1 || s.counter f.counter != 0 }
    trimDup (storeDup { q with out := q.out ++ [o] } f.seq f.op none)

/-- The check at fetch that fails first: the extent that the model of HANDLE gives is part of check 6 (R363, R392). -/
def fetchCode (s : State) (f : Fetched) : Option Nat :=
  if f.code.getD 0x0403 = 0x0403 then f.instr.bind (bankExtent s) <|> f.code else f.code

/-- A new packet (R356, R357, R363, R373). -/
def newPacket (s : State) (p : Nat) (f : Fetched) : State :=
  let s1 := s.onSpool p fun q => { q with nextSeq := q.nextSeq + 1 }
  match fetchCode s f, f.instr with
  | none, some i => acceptPacket s1 p f i
  | code, _ =>
    let heard := !f.syncRsvd && f.mode == 2 && !f.sod && counterOwner s f.counter == spoolOwner s p
    refuseFetch s1 p (s.spool p).sqHead f.op f.seq f.handle (code.getD 0x0101) (if heard then some f.counter else none)

/-- PACKET_FETCH: one packet, `pkt` as read from its slot and `block` as read from its parameter block. -/
def packetFetch (p : Nat) (pkt block : Option (List Byte)) (s : State) : State :=
  if !canFetch s p then s
  else
    let s1 := takeFetch s p
    let q := s1.spool p
    match pkt with
    | none =>
      (fetchError s1 p 0xFF q.nextSeq noHandle 0x0501).onSpool p fun q => { q with fetchFault := true, st := .halted }
    | some b =>
      let own := spoolOwner s p
      let f := readPacket own (fun n => counterOwner s n == own) p q.sqHead ((b ++ zeros 64).take 64) block
      let d := (f.seq - q.nextSeq).toNat
      if d = 0 then passSlot (newPacket s1 p f) p
      else if d < 2 ^ 31 then
        (fetchError s1 p f.op f.seq f.handle 0x0201).onSpool p fun q => { q with st := .halted }
      else if d < 2 ^ 32 - 256 then passSlot (fetchError s1 p f.op f.seq f.handle 0x0203) p
      else passSlot (answerDuplicate s1 p f) p

def execPacketFetch (p : Nat) (pkt block : Option (List Byte)) (s : State) : Host.Outcome State Fault Refusal :=
  guarded (Instr.wf (.packetFetch p pkt block)) s (packetFetch p pkt block s)

/-! COMMAND_START. -/

/-- COMMAND_START: a fetched command starts; `io` is what its accesses to host memory meet. -/
def commandStart (p : Nat) (seq : W32) (io : Io) (s : State) : State :=
  match findOut s p seq with
  | none => s
  | some o =>
    if !myTurn s p o then s
    else
      match outCmd o with
      | none => s
      | some c =>
        let s1 := onOut s p seq fun o => { o with stale := false }
        onOut (runHost (o.instr.withCmd { c with seq := seq, io := io }) s1) p seq fun x => { x with stale := o.stale }

def execCommandStart (p : Nat) (seq : W32) (io : Io) (s : State) : Host.Outcome State Fault Refusal :=
  guarded (Instr.wf (.commandStart p seq io)) s (commandStart p seq io s)

/-! STATUS_RECORD_WRITE. -/

/-- Whether records of a spool are written (R360, R374, R377, R384, R468). -/
def writesRecords (s : State) (p : Nat) : Bool :=
  let q := s.spool p
  (q.st == .opened || q.st == .halted) && !q.cqFault && !s.bus.viral && decide (q.ring.length + 1 < 2 ^ q.useCqOrd)

/-- A closing record of another spool waits until that spool's records are written (R348). -/
def closeWaits (s : State) (p : Nat) (d : DueRec) : Bool :=
  match d.closes with
  | none => false
  | some t => t != p && !(s.spool t).due.isEmpty && writesRecords s t

/-- The write of a record to spool 0 failed: it and every record due there are discarded and counted, and closings
they would have brought take place (R384). -/
def discardSpool0 (s : State) : State :=
  let ds := (s.spool 0).due
  let late := ds.countP fun d => d.record.opcode != 0xFF
  let s1 := s.onSpool 0 fun q =>
    { q with due := [], cqFault := true, eventsLost := satAdd 32 q.eventsLost ds.length,
             eventCount := q.eventCount + BitVec.ofNat 32 late }
  (ds.filterMap DueRec.closes).foldl closeSpool s1

/-- A record is written at CQ_TAIL (R341, R342, R353); an ACCEPTED enters the duplicate store (R358). -/
def putRecord (s : State) (p : Nat) (d : DueRec) : State :=
  let q := s.spool p
  let s1 := hostWrite s (q.useCq + 32 * q.cqTail) (recordBytes d.record q.phase)
  s1.onSpool p fun q =>
    let last := q.cqTail + 1 == 2 ^ q.useCqOrd
    { q with
      due := q.due.drop 1
      ring := q.ring ++ [d.record]
      cqTail := if last then 0 else q.cqTail + 1
      phase := if last then !q.phase else q.phase
      dup := if d.record.cls = 1 && !d.record.dup then
          q.dup.map fun e => if e.seq == d.record.seq && e.stored.isNone then { e with stored := some d.record } else e
        else q.dup }

/-- STATUS_RECORD_WRITE: the oldest record due on a spool is written, or its write fails (R341, R372, R374, R384,
R386). -/
def statusRecordWrite (p : Nat) (ok : Bool) (s : State) : State :=
  match (s.spool p).due with
  | [] => s
  | d :: _ =>
    if !writesRecords s p || closeWaits s p d then s
    else if !ok then
      if p = 0 then discardSpool0 s
      else if (s.spool p).closing then closeSpool s p
      else s.onSpool p fun q => { q with cqFault := true, st := .halted }
    else
      let s1 := sendSignal (putRecord s p d) d.signal
      match d.closes with
      | some t => closeSpool s1 t
      | none => if (s1.spool p).closing && (s1.spool p).due.isEmpty then closeSpool s1 p else s1

def execStatusRecordWrite (p : Nat) (ok : Bool) (s : State) : Host.Outcome State Fault Refusal :=
  guarded (Instr.wf (.statusRecordWrite p ok)) s (statusRecordWrite p ok s)

/-! HOST_DMA_TRANSFER. -/

/-- A stream has arrived and been checked: frames are reserved and filled (R223, R235, R416). -/
def fillImport (s : State) (p : Nat) (seq : W32) (i : Nat) (b : List Byte) (pend : W32) : State :=
  let x := s.sess i
  let m := s.model (modelOf x)
  let len := le b 4 4
  let needs := needsOf s m x.runs 0 len
  let short := (List.range 8).any fun k => decide (freeFrames s k < needOn needs k)
  let idle := s.onSess i fun y => { y with importing := false }
  if short then finish idle p seq 0x0305 (sessResult x 0 0)
  else
    let s1 := reserveAll idle i x.epoch m x.runs needs
    let want := exportList m len
    let base := 64 + 8 * bLayers m.bytes
    let s2 := ((List.range want.length).zip want).foldl
      (fun s w => importFrame s m x.runs w.2 (slice b (base + 65616 * w.1) 65616)) s1
    let s3 := s2.onSess i fun y => { y with length := len, pend := (optHandle pend).map BitVec.toNat, history := [] }
    finish s3 p seq 0 (sessResult (s3.sess i) 0 0)

/-- The stream of a KV_IMPORT has arrived, or a read of it failed (R235, R386, R416). -/
def importArrived (s : State) (p : Nat) (seq : W32) (i : Nat) (b : List Byte) (pend : W32) (ok : Bool) : State :=
  let x := s.sess i
  let m := s.model (modelOf x)
  let idle := s.onSess i fun y => { y with importing := false }
  if !x.importing then finish s p seq 0x0401 []
  else if !ok then finish idle p seq 0x0501 (sessResult x 0 0)
  else
    match checkStream m x.maxCtx b with
    | some code => finish idle p seq code (sessResult x 0 0)
    | none => fillImport s p seq i b pend

/-- REPLACES of an ADAPTER_LOAD. -/
def replacesOf (i : Instr) : Option W32 :=
  match i with
  | .adapterLoad _ _ _ r => r
  | _ => none

/-- Whether the buffer of a data mover lies in the HDM range, so that no access to host memory can fail (R473). -/
def bufferHere (s : State) (o : OutCmd) : Bool :=
  match o.instr, o.job with
  | .bundleStage _ a n _ _ _ _, _ => (hdmOffset s a n).isSome
  | .kvImport _ a n _, _ => (hdmOffset s a n).isSome
  | .adapterLoad _ a n _, _ => (hdmOffset s a n).isSome
  | .steerBankLoad _ a _ _, .bankLoad _ _ b => (hdmOffset s a b.length).isSome
  | _, .output parts _ => parts.all fun w => (hdmOffset s w.1 w.2.length).isSome
  | _, .kvExport _ parts _ => parts.all fun w => (hdmOffset s w.1 w.2.length).isSome
  | _, _ => false

/-- The keel that holds a window offset (R470). -/
def hdmKeel (s : State) (w : Nat) : Nat := w / (opt s oHdmSize * 0x40000000)

/-- Parts of a buffer with the keel to which each belongs, as (offset, bytes, keel). -/
abbrev KeelParts := List (Nat × List Byte × Nat)

/-- The parts of a staged bundle: each section and its staging keel (R296, R299). -/
def bundleParts (s : State) (mi mode first count : Nat) (b : List Byte) (ks : List Nat) : KeelParts :=
  let d := if mode = 2 then (s.model mi).bytes else b
  let keels := if mode = 2 then (s.model mi).keels else ks
  ((List.range (bSections d)).filter fun i => mode != 2 || (decide (first ≤ i) && decide (i < first + count))).map fun i =>
    let e := dirEntry d i
    (e.off, slice b e.off e.len, keels.getD i 0)

/-- The frame records of a stream and the keels of their layers (R234). -/
def streamParts (m : Model) (len : Nat) (b : List Byte) : KeelParts :=
  let at_ := fun n => 64 + 8 * bLayers m.bytes + 65616 * n
  ((exportList m len).zipIdx).map fun x => (at_ x.2, slice b (at_ x.2) 65616, x.1.1.2)

/-- The parts of an adapter image: of a delta adapter each section, of a steering adapter each layer's (R272, R275). -/
def adapterParts (m : Model) (b : List Byte) : KeelParts :=
  if byteAt b 2 = 0 then (layersHere m).map fun lk => (32 + 516 * lk.1, slice b (32 + 516 * lk.1) 516, lk.2)
  else (deltaSecs b).filterMap fun d =>
    (layerStage m d.layer).map fun r => (d.off, slice b d.off (deltaSecLen d), r.keel)

/-- The data that a mover's buffer in the window exchanges with other keels crosses the bridle in the bulk class: in towards the
parts' keels, or out from them (R25, R473; log 112). -/
def windowTraffic (s : State) (a n : Nat) (out : Bool) (parts : KeelParts) : State :=
  match hdmOffset s a n with
  | none => s
  | some w => parts.foldl (fun s x =>
      let k := hdmKeel s (w + x.1)
      if out then sendBulk s x.2.2 k x.2.1 else sendBulk s k x.2.2 x.2.1) s

/-- The bulk traffic of a data mover whose buffer lies in the window. -/
def moverTraffic (s : State) (o : OutCmd) : State :=
  match o.instr, o.job with
  | .bundleStage _ a n _ _ _ _, .stage mi mode first count b ks => windowTraffic s a n false (bundleParts s mi mode first count b ks)
  | .kvImport _ a n _, .kvImport i b _ =>
    windowTraffic s a n false (streamParts (s.model (modelOf (s.sess i))) (le b 4 4) b)
  | .adapterLoad c a n _, .adapterLoad _ _ b => windowTraffic s a n false (adapterParts (s.model (c.handle.toNat % 256)) b)
  | .kvExport c _ _, .kvExport _ ((a, b) :: _) _ =>
    windowTraffic s a b.length true (streamParts (s.model (modelOf (s.sess (handleIndex c.handle)))) (le b 4 4) b)
  | _, _ => s

/-- HOST_DMA_TRANSFER: the transfers of a started command are complete, or one failed (R386). -/
def hostDmaTransfer (p : Nat) (seq : W32) (ok : Bool) (s : State) : State :=
  if s.bus.viral then s
  else
    match findOut s p seq with
    | none => s
    | some o =>
      let ok := ok || bufferHere s o
      let s := moverTraffic s o
      match o.job with
      | .stage mi mode first count b ks => bundleArrived s p seq mi mode first count b ks ok
      | .output parts res =>
        if ok then finish (parts.foldl (fun s w => bufWrite s (outIo o) w.1 w.2) s) p seq 0 res else finish s p seq 0x0501 []
      | .kvExport fs parts res =>
        let s1 := fs.foldl dropRef s
        if ok then finish (parts.foldl (fun s w => bufWrite s (outIo o) w.1 w.2) s1) p seq 0 res else finish s1 p seq 0x0501 []
      | .kvImport i b pend => importArrived s p seq i b pend ok
      | .adapterLoad kind i _ => adapterArrived s p seq kind i (replacesOf o.instr) ok
      | .bankLoad mi first b => bankArrived s p seq mi first b ok
      | _ => s

def execHostDmaTransfer (p : Nat) (seq : W32) (ok : Bool) (s : State) : Host.Outcome State Fault Refusal :=
  guarded (Instr.wf (.hostDmaTransfer p seq ok)) s (hostDmaTransfer p seq ok s)

end Sys2Proof.Machine
end

