-- ==== Sys2Proof/Machine/Quant.lean ====
section
/-!
DEFINITION. The arithmetic of the digital side on lists: the canonical tree, block quantisation, converter codes and
their fold, the tile checksum, handoff encoding, stochastic rounding and key-value codes (R51–R56, R123–R125, R141–R144,
R153, R154, R203–R206, R428, R443).
-/
namespace Sys2Proof.Machine

/-! The canonical tree (R144). -/

/-- A node of two children, either of which may be absent. -/
def joinNode (a b : Option F32) : Option F32 :=
  match a, b with
  | some x, some y => some (fadd x y)
  | some x, none => some x
  | none, y => y

/-- One level of the tree; the leaves past the end are absent. -/
def pairUp : List (Option F32) → List (Option F32)
  | a :: b :: r => joinNode a b :: pairUp r
  | l => l

/-- Levels up to the root, at most `n` of them. -/
def treeUp : Nat → List (Option F32) → Option F32
  | 0, l => l.headD none
  | n + 1, l => match l with
    | a :: b :: r => treeUp n (pairUp (a :: b :: r))
    | _ => l.headD none

/-- The root of the canonical tree over leaves some of which may be absent. -/
def tree (l : List (Option F32)) : Option F32 := treeUp l.length l

/-- The canonical sum of a list; 0 of an empty one. -/
def treeSum (l : List F32) : F32 := (tree (l.map some)).getD 0

/-! ARITH_FLAGS (R150). -/

def flNan : W16 := 1#16
def flInf : W16 := 2#16
def flClipped : W16 := 4#16
def flRescaled : W16 := 8#16
def flSplit : W16 := 16#16
def flWide : W16 := 32#16
def flTailSlip : W16 := 64#16
def flWideSlip : W16 := 128#16

/-- The NAN and INF bits of the values of a list. -/
def flagsOf (l : List F32) : W16 :=
  (if l.any fIsNaN then flNan else 0) ||| (if l.any fIsInf then flInf else 0)

/-- The NAN and INF bits of every node of a canonical tree (R144, R150). -/
def treeFlags : Nat → List (Option F32) → W16
  | 0, l => flagsOf (l.filterMap id)
  | n + 1, l => flagsOf (l.filterMap id) ||| match l with
    | a :: b :: r => treeFlags n (pairUp (a :: b :: r))
    | _ => 0

/-- The bits of a canonical sum and of everything added on the way. -/
def sumFlags (l : List F32) : W16 := treeFlags l.length (l.map some)

/-! A reduction split across vector cores (R147, R148). -/

/-- Consecutive parts of a list, of the sizes given; what they leave forms the last part. -/
def partsOf {α : Type} : List Nat → List α → List (List α)
  | [], l => [l]
  | n :: r, l => l.take n :: partsOf r (l.drop n)

/-- The sum of leaves that are split into parts: each part's root, absent or not, then the canonical tree over part index. -/
def splitTree (sizes : List Nat) (l : List (Option F32)) : Option F32 := tree ((partsOf sizes l).map tree)

/-- The NAN and INF bits that it raises. -/
def splitFlags (sizes : List Nat) (l : List (Option F32)) : W16 :=
  let ps := partsOf sizes l
  ps.foldl (fun f p => f ||| treeFlags p.length p) (treeFlags ps.length (ps.map tree))

/-! Block quantisation (R123–R125). -/

/-- A block of an input vector: elements 1,024b to 1,024b + 1,023, padded with 0 (R36, R153). -/
def inputBlock (v : List F32) (b : Nat) : List F32 :=
  let l := (v.drop (1024 * b)).take 1024
  l ++ List.replicate (1024 - l.length) 0

/-- TAIL_RATIO × rms, the ratio in 1/16. -/
def candBound (ratio : Nat) (xs : List F32) : F32 :=
  fmul (f32OfInt ratio (-4) false) (fsqrt (fdiv (treeSum (xs.map fun x => fmul x x)) 0x44800000#32))

/-- The NAN and INF bits that forming it raises (R150). -/
def boundFlags (xs : List F32) : W16 :=
  let sq := xs.map fun x => fmul x x
  sumFlags sq ||| flagsOf [fdiv (treeSum sq) 0x44800000#32]

/-- Indices of the candidates of a block (R123 step 2). -/
def candidates (ratio : Nat) (xs : List F32) : List Nat :=
  let bound := candBound ratio xs
  if ratio = 0 then []
  else (List.range xs.length).filter fun i =>
    let x := xs.getD i 0
    !fIsFin x || flt bound (fabs x)

/-- The rank of a candidate (R124): NaN, infinity, larger magnitude, lower block, lower element. -/
def candKey (x : F32) (block i : Nat) : List Nat :=
  [if fIsNaN x then 0 else if fIsInf x then 1 else 2, if fIsFin x then 2 ^ 32 - (fabs x).toNat else 0, block, i]

/-- The slots of a quantisation point: of each block its 8 highest candidates compete for the slots left (R124).
Pairs (block, element). -/
def allocSlots (cands : List (Nat × List (Nat × F32))) (left : Nat) : List (Nat × Nat) :=
  let before := fun (a b : Nat × Nat × F32) => lexLt (candKey a.2.2 a.1 a.2.1) (candKey b.2.2 b.1 b.2.1)
  let each := cands.flatMap fun c => (sortBy before (c.2.map fun p => (c.1, p))).take 8
  ((sortBy before each).take left).map fun p => (p.1, p.2.1)

/-- The largest magnitude of a list; NaN if any is NaN. -/
def maxMag (l : List F32) : F32 := l.foldl (fun m x => fmax m (fabs x)) 0

/-- The scale of a largest magnitude (R123 step 4). -/
def scaleOf (m : F32) : F32 := if fabs m = 0 then 0x3F800000#32 else fdiv m 0x42FE0000#32

/-- The code of an element (R123 step 5): a quotient past the range is limited, NaN gives 0. -/
def codeOf (x sa : F32) : Int :=
  let y := fdiv x sa
  if fIsNaN y then 0
  else if fIsInf y then (if fSign y then -127 else 127)
  else max (-127) (min 127 (fToInt y))

/-- The codes of a block with a scale: slotted rows 0, clipped rows ±127. -/
def blockCodes (xs : List F32) (sa : F32) (slots clip : List Nat) : List Int :=
  (List.range 1024).map fun i =>
    let x := xs.getD i 0
    if slots.contains i then 0
    else if clip.contains i then (if fSign x then -127 else 127)
    else codeOf x sa

/-- The no-clip scale of a block (R125, R130): over all unslotted elements. -/
def noClipScale (xs : List F32) (slots : List Nat) : F32 :=
  scaleOf (maxMag (((List.range xs.length).filter fun i => !slots.contains i).map fun i => xs.getD i 0))

/-- The scale of R123 step 4: over the elements that are no candidates. -/
def firstScale (xs : List F32) (cand : List Nat) : F32 := noClipScale xs cand

/-! Converters and the fold (R51–R56). -/

/-- The code of a charge in 1/256 unit, and OVR (R51; a charge half-way between two codes, log 13). -/
def convCode (q : Nat) : Nat × Bool :=
  let r := q % 256
  let up := decide (128 < r) || (r == 128 && Config.tieUp q)
  (min (q / 256 + b2n up) 511, decide (130944 < q))

/-- Bit `k` of an A8 code. -/
def planeBit (c : Int) (k : Nat) : Bool := (BitVec.ofInt 8 c).getLsbD k

/-- S(k) (R44). -/
def bitSum (codes : List Int) (k : Nat) : Nat := codes.countP fun c => planeBit c k

/-- The plane gain g(k): 2^k, and −128 for plane 7. -/
def planeGain (k : Nat) : Int := if k = 7 then -128 else 2 ^ k

/-- The plane term of a format (R54): 0 W2, 1 W1.58, 2 W1. -/
def planeTerm (fmt : Nat) (c1 c0 sk : Int) : Int :=
  match fmt with
  | 0 => 4 * c1 + 2 * c0 - 3 * sk
  | 1 => c1 - c0
  | _ => 2 * c1 - sk

/-- W of R428. -/
def formatW (fmt : Nat) : Nat := if fmt = 0 then 6 else 2

/-- I of R54, from the terms of the planes for one column. -/
def foldBlock (terms : List Int) : Int := ((List.range 8).map fun k => planeGain k * terms.getD k 0).sum

/-- The block value of R56. -/
def blockValue (i : Int) (o gc gt sw : F16) (sa : F32) : F32 :=
  fmul (fmul (fmul (fmul (fsub (f32OfI i) (f16ToF32 o)) (f16ToF32 gc)) (f16ToF32 gt)) (f16ToF32 sw)) sa

/-- The results of its five operations (R150). -/
def blockSteps (i : Int) (o gc gt sw : F16) (sa : F32) : List F32 :=
  let a := fsub (f32OfI i) (f16ToF32 o)
  let b := fmul a (f16ToF32 gc)
  let c := fmul b (f16ToF32 gt)
  let d := fmul c (f16ToF32 sw)
  [a, b, c, d, fmul d sa]

/-- D(k) of R428: the terms of a plane over all columns, the corrections, and E(k). -/
def planeDiff (terms : List Int) (o gc : Nat → F16) (gt : F16) (e : Int) : F32 :=
  let a := treeSum ((List.range 1024).map fun c =>
    fmul (f16ToF32 (gc c)) (fadd (f32OfI (terms.getD c 0)) (f16ToF32 (o c))))
  fsub (fmul a (f16ToF32 gt)) (f32OfI e)

/-- p_c(k) of R443. -/
def spotTerm (t : Int) (o gc gt : F16) : F32 :=
  fmul (f16ToF32 gt) (fmul (f16ToF32 gc) (fadd (f32OfI t) (f16ToF32 o)))

/-! Stage handoffs (R153, R154). -/

/-- An A8 or E4M3 block of a handoff: its scale, its codes as bytes, and CLIPPED for an infinite element. Where a subnormal m gives
a scale of 0, R154 states no code for a zero element, 0 / 0: the model codes it as it codes NaN (log 124). -/
def encodeBlock (e4m3 : Bool) (xs : List F32) : F32 × List Byte × W16 :=
  let m := maxMag (xs.filter fIsFin)
  let s := if fabs m = 0 then 0x3F800000#32 else fdiv m (if e4m3 then 0x43E00000#32 else 0x42FE0000#32)
  let one := fun (x : F32) =>
    if e4m3 then
      (if fIsNaN x then 0x7F#8
       else if fIsInf x then (if fSign x then 0xFE#8 else 0x7E#8)
       else BitVec.ofNat 8 (f32ToE4m3 (fdiv x s)))
    else if fIsInf x then (if fSign x then BitVec.ofInt 8 (-127) else 127#8)
    else BitVec.ofInt 8 (if fIsNaN x then 0 else codeOf x s)
  (s, xs.map one, if xs.any fIsInf then flClipped else 0)

/-- Decode a block (R154): code × s. -/
def decodeBlock (e4m3 : Bool) (s : F32) (codes : List Byte) : List F32 :=
  codes.map fun c => fmul (if e4m3 then e4m3ToF32 c.toNat else f32OfI c.toInt) s

/-- The 1,028-byte record of a block (R153). -/
def handoffRecord (e4m3 : Bool) (xs : List F32) : List Byte × W16 :=
  let (s, c, f) := encodeBlock e4m3 xs
  (toLe 4 s.toNat ++ c, f)

/-- The records of a vector, blocks ascending, and the flags they set. -/
def handoffData (e4m3 : Bool) (v : List F32) : List (List Byte × W16) :=
  (List.range (ceilDiv v.length 1024)).map fun b => handoffRecord e4m3 (inputBlock v b)

/-- The vector of `h` elements that handoff records hold. -/
def handoffVector (e4m3 : Bool) (h : Nat) (b : List Byte) : List F32 :=
  ((List.range (ceilDiv h 1024)).flatMap fun i =>
    decodeBlock e4m3 (BitVec.ofNat 32 (le b (1028 * i) 4)) (slice b (1028 * i + 4) 1024)).take h

/-! Stochastic rounding (R141–R143). -/

/-- Output `n` of the generator of R142 for a seed. -/
def smOut (seed : W64) (n : Nat) : W64 :=
  let st := seed + BitVec.ofNat 64 (n + 1) * 0x9E3779B97F4A7C15#64
  let a := (st ^^^ (st >>> 30)) * 0xBF58476D1CE4E5B9#64
  let b := (a ^^^ (a >>> 27)) * 0x94D049BB133111EB#64
  b ^^^ (b >>> 31)

/-- The seed of a rounding job (R141); SESSION is bits [23:0] of the handle. -/
def srSeed (stream layer : Nat) (handle : W32) (pos : Nat) : W64 :=
  BitVec.ofNat 64 (stream % 16 * 2 ^ 52 + layer % 256 * 2 ^ 44 + handle.toNat % 2 ^ 24 * 2 ^ 20 + pos % 2 ^ 20)

/-- Draw `e` of a job (R142). -/
def srDraw (seed : W64) (e : Nat) : Nat := (smOut seed (e / 4)).toNat / 2 ^ (16 * (e % 4)) % 65536

/-- Whether a value between two neighbours rounds to the higher (R143). -/
def srHigh (y lo hi : F32) (r : Nat) : Bool :=
  decide ((r : Int) < fToInt (fmul (fdiv (fsub y lo) (fsub hi lo)) 0x47800000#32))

/-- The integer at or below a finite value, and whether the value is that integer. -/
def fFloor (y : F32) : Int × Bool :=
  match fv y with
  | .fin s m e =>
    if 0 ≤ e then (sgn s (m * 2 ^ e.toNat), true)
    else (sgn s m / (2 ^ (-e).toNat : Nat), m % 2 ^ (-e).toNat == 0)
  | _ => (0, true)

/-- A finite value rounded to an integer by a draw, limited to ±`lim`; whether it was limited. -/
def srInt (y : F32) (lim r : Nat) : Int × Bool :=
  if flt (f32OfI lim) y then (lim, true)
  else if flt y (f32OfI (-(lim : Int))) then (-(lim : Int), true)
  else
    let (lo, exact) := fFloor y
    if exact then (lo, false)
    else (if srHigh y (f32OfI lo) (f32OfI (lo + 1)) r then lo + 1 else lo, false)

/-- A finite value rounded to E4M3 by a draw, limited to ±448; whether it was limited. -/
def srE4m3 (y : F32) (r : Nat) : Nat × Bool :=
  let s := fSign y
  let sb := 128 * b2n s
  if flt 0x43E00000#32 (fabs y) then (sb + 0x7E, true)
  else
    match fv y with
    | .fin _ m e =>
      let (c, exact) := e4m3Floor m e
      if exact then (sb + c, false)
      else
        let near := e4m3ToF32 (sb + c)
        let far := e4m3ToF32 (sb + c + 1)
        let high := if s then srHigh y far near r else srHigh y near far r
        (if high != s then sb + c + 1 else sb + c, false)
    | _ => (sb + 0x7F, false)

/-- A value rounded to BF16 by a draw (R143, R277). -/
def srBf16 (y : F32) (r : Nat) : W16 :=
  let c := y.toNat / 65536
  if !fIsFin y then f32ToBf16 y
  else if y.toNat % 65536 = 0 then BitVec.ofNat 16 c
  else
    let near := bf16ToF32 (BitVec.ofNat 16 c)
    let far := bf16ToF32 (BitVec.ofNat 16 (c + 1))
    let high := if fSign y then srHigh y far near r else srHigh y near far r
    BitVec.ofNat 16 (if high != fSign y then c + 1 else c)

/-! Key-value codes (R203–R206). -/

/-- A magnitude times num / den, rounded to FP16 upward and limited to 65,504. -/
def f16UpQuot (a : F32) (num den : Nat) : F16 :=
  match fv a with
  | .fin _ m e =>
    let n := m * num * 2 ^ 64
    BitVec.ofNat 16 (min (packMag 5 10 (n / den) (e - 64) (n % den != 0) true) 0x7BFF)
  | _ => 0x7BFF#16

/-- Largest code of a format, and the code of an element as a number below 256 or 16, with its flags (R205). -/
def kvMax (fmt : Nat) : Nat := match fmt with | 0 => 448 | 1 => 127 | _ => 7

def kvCode (fmt : Nat) (x : F32) (s : F16) (r : Nat) : Nat × W16 :=
  let w := if fmt = 2 then 4 else 8
  let int := fun (i : Int) => (BitVec.ofInt w i).toNat
  if fIsNaN x then (if fmt = 0 then 0x7F else 0, flNan)
  else if fIsInf x then
    (if fmt = 0 then (if fSign x then 0xFE else 0x7E) else int (if fSign x then -(kvMax fmt : Int) else kvMax fmt),
     flClipped ||| flInf)
  else if s = 0 then (0, 0)
  else
    let y := fdiv x (f16ToF32 s)
    let (c, lim) := if fmt = 0 then srE4m3 y r else ((int (srInt y (kvMax fmt) r).1), (srInt y (kvMax fmt) r).2)
    (c, (if lim then flClipped else 0) ||| flagsOf [y])

/-- The value of a code (R206). -/
def kvValue (fmt c : Nat) (s : F16) : F32 :=
  let v := if fmt = 0 then e4m3ToF32 c else f32OfI (BitVec.ofNat (if fmt = 2 then 4 else 8) c).toInt
  fmul v (f16ToF32 s)

/-- The scale of the finite elements of a head (R203) or of a group (R204); headroom in 1/4. -/
def kvScale (fmt headroom : Nat) (xs : List F32) : F16 :=
  let m := maxMag (xs.filter fIsFin)
  if fmt = 2 then f16UpQuot m 1 7 else f16UpQuot m headroom (4 * kvMax fmt)

end Sys2Proof.Machine
end

