-- ==== Sys2Proof/Machine/Work.lean ====
section
/-!
DEFINITION. The work of a position at its stage (R36, R123–R145, R153, R174, R175, R181, R311): its context, its open
item, the quantisation of each input vector, and the handoff of its output.
-/
namespace Sys2Proof.Machine

/-! Contexts and entries. -/

/-- An entry slips in this tick with cause OVERRUN, unless service has held it back already (R188). -/
def lateEntry (s : State) (id : Nat) : State := s.onEntry id fun e => { e with late := max e.late 1 }

/-- The key of a position's context. -/
def ctxKey (id pos : Nat) : Nat := id * 2097152 + pos

def State.ctxAt (s : State) (id pos : Nat) : PosCtx := s.pipe.ctx.get PosCtx.init (ctxKey id pos)
def State.onCtx (s : State) (id pos : Nat) (f : PosCtx → PosCtx) : State :=
  s.onPipe fun q => { q with ctx := q.ctx.upd PosCtx.init (ctxKey id pos) f }

/-- Set bits of an entry's ARITH_FLAGS (R150). -/
def onArith (s : State) (id : Nat) (f : W16) : State := s.onEntry id fun e => { e with arith := e.arith ||| f }

/-- The stage an entry is at; none where it is away. -/
def entryStage (s : State) (e : Entry) : Option StageRec :=
  if e.away then none else (s.model e.model).stages[e.stage]?

/-- The module stage index of an entry's stage (R565). -/
def entryStageIndex (s : State) (e : Entry) : Nat := (s.model e.model).base + e.stage

/-- The number by which work names the HEAD unit, as MASK numbers it (R405). -/
def headUnit : Nat := 257

/-- The bundle that holds a unit for an entry: of its epoch (R311). -/
def entryBundle (s : State) (e : Entry) (u : Nat) : List Byte := unitBundle (s.model e.model) e.epoch u

/-- A unit's section for an entry. -/
def entrySection (s : State) (e : Entry) (u : Nat) : List Byte := unitSection (entryBundle s e u) u

/-- Hidden width of an entry's model. -/
def entryHidden (s : State) (e : Entry) : Nat := bHidden (s.model e.model).bytes

/-- An entry here, on a stack that is not stopped (R519). -/
def liveEntry (s : State) (id : Nat) : Option (Entry × StageRec) :=
  match s.entry id with
  | none => none
  | some e =>
    match entryStage s e with
    | none => none
    | some r => if stackStopped s r.keel then none else some (e, r)

/-- Whether the seal decision of a keel has been taken in this tick: its compute and service windows are closed, and what its
vector cores have not finished by then is carried (R170, R173, R174). -/
def keelClosed (s : State) (k : Nat) : Bool := s.pipe.decided.contains k

/-- An entry whose work may run and whose results count: live, not masked, on a keel that has not yet decided (R173, R267). -/
def workEntry (s : State) (id : Nat) : Option (Entry × StageRec) :=
  match liveEntry s id with
  | none => none
  | some w => if w.1.masked || keelClosed s w.2.keel then none else some w

/-- Work of a position whose three attempts have failed in this tick is carried to the next (R438): that of its vector cores,
and that of its tail path. -/
def coreStuck (s : State) (id pos : Nat) : Bool := (s.ctxAt id pos).stuckCore == some s.tick.edges
def tailStuck (s : State) (id pos : Nat) : Bool := (s.ctxAt id pos).stuckTail == some s.tick.edges

/-- Whether work waits for a failed line of a region that a test selects (R440). -/
def lineWaits (s : State) (f : DramRegion → Bool) : Bool :=
  s.chk.badReads.any fun b => s.chk.badLines.contains (b.1, b.2.1) && f b.2.2

/-- The embedding row or vectors of a unit that an entry reads cannot be read (R440). -/
def vectorsBad (s : State) (e : Entry) (u : Nat) : Bool :=
  lineWaits s fun r => match r with
    | .embedVectors id sect => id == e.id && sectUnit (entryBundle s e u) sect == u
    | _ => false

/-- The adapter section or steering vector that an entry reads cannot be read (R440). -/
def adapterBad (s : State) (e : Entry) : Bool :=
  lineWaits s fun r => match r with
    | .adapter id => id == e.id
    | _ => false

/-- The frame-table entries or the page list of a session's layer cannot be read (R440). -/
def tableBad (s : State) (i l : Nat) : Bool :=
  lineWaits s fun r => match r with
    | .frameTable j k => j == i && k == l
    | _ => false

/-- A position's open item: the first not done, if it is admitted in this tick. -/
def openItem (e : Entry) (pos : Nat) : Option Item :=
  match e.items.find? fun i => i.pos == pos && !i.done with
  | none => none
  | some i => if i.now then some i else none

/-- Whether an item of a kind holds the products of a matrix (R181). -/
def ItemKind.covers (k : ItemKind) (role : Nat) : Bool :=
  match k with
  | .layer => decide (role < 7)
  | .pre => decide (role < 3)
  | .post => decide (3 ≤ role) && decide (role < 7)
  | .head => role == 7
  | _ => false

/-- Whether a position's open item is work of a layer that covers a matrix. -/
def openFor (e : Entry) (pos l role : Nat) : Bool :=
  match openItem e pos with
  | none => false
  | some i => i.layer == l && i.kind.covers role

/-! Vectors of a layer (R292). Key 16 × layer + ROLE; ROLE 8 stands for the attention output. -/

/-- A drained vector, if it has been drained. -/
def drained (c : PosCtx) (l role : Nat) : Option (List F32) := c.vecs.find (16 * l + role)

/-- The quantisation point at which a matrix takes its input: 0 attention input or head, 1 attention output, 2 MLP input,
3 down projection (R124). -/
def rolePoint (role : Nat) : Nat :=
  if role ≤ 2 then 0 else if role = 3 then 1 else if role ≤ 5 then 2 else if role = 6 then 3 else 0

/-- The matrices that a point feeds. -/
def pointRoles (l pt : Nat) : List Nat :=
  if l = headUnit then [7]
  else match pt with
  | 0 => [0, 1, 2]
  | 1 => [3]
  | 2 => [4, 5]
  | _ => [6]

/-- The input vector of a point, once what it reads is there (R292; the ARCH 1 functions are log 12). -/
def pointInput (x : List Byte) (h : Nat) (c : PosCtx) (l pt : Nat) : Option (List F32) :=
  match pt with
  | 0 => some (Config.rmsNorm (sEps x) (sectVec x 0 h) c.hidden)
  | 1 => drained c l 8
  | 2 => (drained c l 3).map fun _ => Config.rmsNorm (sEps x) (sectVec x h h) c.hidden
  | _ =>
    match drained c l 4, drained c l 5 with
    | some g, some u => some (List.zipWith (fun a b => fmul (Config.act (sAct x) a) b) g u)
    | _, _ => none

/-- The quantised block of a point. -/
def findQBlock (c : PosCtx) (l pt b : Nat) : Option QBlock :=
  c.qblocks.find? fun q => q.layer == l && q.point == pt && q.block == b

/-- Whether a point has been quantised. -/
def pointDone (c : PosCtx) (l pt : Nat) : Bool := c.qblocks.any fun q => q.layer == l && q.point == pt

/-! Blocks (R36, R84, R451). -/

/-- The module tile number of a tile of a matrix, in the unit range in force. -/
def blockTile (s : State) (e : Entry) (l role k : Nat) : Option Nat :=
  match (s.model e.model).units.find l with
  | none => none
  | some pl => unitTile s (entrySection s e l) pl.keel pl.first (if l = headUnit then 0 else role) k

/-- Whether every block of a panel goes to wide mode at rank 5: FORCE_WIDE or uncalibrated (R84, R134). -/
def panelForced (s : State) (p : Nat) : Bool := (s.panelAt p).policy == 1 || !(s.panelAt p).cal

/-- The blocks of a matrix at a quantised point, with the outlier rows each must have. -/
def newBlocks (s : State) (e : Entry) (l role : Nat) (qs : List QBlock) : List BlockWork :=
  let x := entrySection s e l
  let d := roleDesc x role
  (List.range (matTiles d)).map fun k =>
    let slots := match qs.find? fun q => q.block == k % max 1 d.rowB with
      | some q => q.slots
      | none => []
    let t := (blockTile s e l role k).getD 0
    { layer := l, role := role, tile := k, phys := t, src := none,
      st := if panelForced s (t / 8) then .wide 5 else .fresh, codes := [], sa := 0, terms := [], vals := [],
      rows := slots, outl := none, rowEdge := s.tick.edges, edge := s.tick.edges, spotNo := 0, wide := false, flags := 0 }

/-- Quantise one block (R123, R125): the block, its unslotted candidates, and whether it took the no-clip scale. -/
def quantBlock (limit l pt b : Nat) (xs : List F32) (cand slots : List Nat) : QBlock × Nat × Bool :=
  let rest := cand.filter fun i => !slots.contains i
  let hard := rest.any (fun i => !fIsFin (xs.getD i 0)) || decide (limit < rest.length)
  let noClip := noClipScale xs slots
  let sa := if hard then noClip else firstScale xs cand
  let clip := if hard then [] else rest
  ({ layer := l, point := pt, block := b, codes := blockCodes xs sa slots clip, sa := sa, noClip := noClip,
     slots := sortBy (fun a b => decide (a < b)) slots, clip := !clip.isEmpty, resc := hard,
     charged := [] }, rest.length, hard)

/-- The NAN and INF bits that quantising a block raises: its bound, its scale and the quotients of what is neither slotted nor
clipped (R123, R125, R150). -/
def quantFlags (xs : List F32) (cand : List Nat) (q : QBlock) : W16 :=
  let apart := fun i => q.slots.contains i || (!q.resc && cand.contains i)
  boundFlags xs ||| flagsOf (q.sa :: ((List.range xs.length).filter fun i => !apart i).map fun i => fdiv (xs.getD i 0) q.sa)

/-- Quantise every block of a point of a position and make the blocks of the matrices it feeds (R123–R125, R157). R124 limits the
slotted elements of one layer; the head's point belongs to no layer, and the model gives it, as unit 257, a limit of 64 of its
own (log 111). -/
def quantisePoint (s : State) (e : Entry) (k pos l pt : Nat) (v : List F32) : State :=
  let c := s.ctxAt e.id pos
  let ratio := opt s oTailRatio
  let blks := (List.range (ceilDiv v.length 1024)).map fun b => (b, inputBlock v b)
  let cands := blks.map fun p => (p.1, (candidates ratio p.2).map fun i => (i, p.2.getD i 0))
  let slots := allocSlots cands (64 - c.slots.get 0 l)
  let qs := blks.map fun p =>
    quantBlock (opt s oCheckTailLimit) l pt p.1 p.2 (candidates ratio p.2)
      ((slots.filter fun w => w.1 == p.1).map Prod.snd)
  let blocks := qs.map Prod.fst
  let overs := (qs.map fun q => q.2.1).sum
  let resc := qs.countP fun q => q.2.2
  let s1 := s.onCtx e.id pos fun c =>
    { c with qblocks := c.qblocks ++ blocks, slots := c.slots.set l (c.slots.get 0 l + slots.length),
             blocks := c.blocks ++ (pointRoles l pt).flatMap fun role => newBlocks s e l role blocks }
  let s2 := s1.onKeel k fun x => { x with overflow := satAdd 32 x.overflow overs, rescales := satAdd 32 x.rescales resc }
  let fl := (blks.zip blocks).foldl (fun f p => f ||| quantFlags p.1.2 (candidates ratio p.1.2) p.2) (flagsOf v)
  onArith s2 e.id (fl ||| (if resc = 0 then 0 else flRescaled))

/-- The points that the open item of a position may quantise. -/
def itemPoints (i : Item) : List Nat :=
  match i.kind with
  | .layer => [0, 1, 2, 3]
  | .pre => [0]
  | .post => [1, 2, 3]
  | .head => [0]
  | _ => []

/-- Quantise what the open item of a position can quantise now. -/
def prepare (s : State) (id pos : Nat) : State :=
  match workEntry s id with
  | none => s
  | some (e, r) =>
    match openItem e pos with
    | none => s
    | some i =>
      (itemPoints i).foldl
        (fun s pt =>
          let c := s.ctxAt id pos
          if pointDone c i.layer pt || vectorsBad s e i.layer then s
          else
            match pointInput (entrySection s e i.layer) (entryHidden s e) c i.layer pt with
            | none => s
            | some v => quantisePoint s e r.keel pos i.layer pt v) s

/-! Items as they complete. -/

/-- The image of the adapter of a kind that an entry's snapshot names, if it is one of the model that the entry runs on: a draft
entry runs on the draft model, whose layers the session's adapters do not fit (R280). -/
def adapterImage (s : State) (e : Entry) (kind : Nat) (h : Option W32) : Option (List Byte) :=
  match h.bind (findAdapter s 0) with
  | none => none
  | some (k, i) =>
    let a := s.adapter (adapterKey k i)
    if k = kind && a.model = modelHandle e.model (s.model e.model).gen then some a.bytes else none

/-- The section of a delta adapter that an entry's snapshot gives a matrix (R275). -/
def deltaFor (s : State) (e : Entry) (l matrix : Nat) : Option (List Byte × DeltaSec) :=
  match adapterImage s e 1 e.delta with
  | none => none
  | some b => ((deltaSecs b).find? fun d => d.layer == l && d.matrix == matrix).map fun d => (b, d)

/-- A layer record of the steering adapter that an entry's snapshot names, unless it leaves the layer as it is
(R272, R274). -/
def steerFor (s : State) (e : Entry) (l : Nat) : Option (List Byte) :=
  match adapterImage s e 0 e.steer with
  | none => none
  | some b =>
    let r := slice b (32 + 516 * l) 516
    if (List.range 256).all (fun g => le r (2 * g) 2 == 0x3C00) && le r 512 2 % 0x8000 == 0 then none else some r

/-- Whether a position's open item has completed. -/
def itemComplete (s : State) (e : Entry) (pos : Nat) (i : Item) : Bool :=
  let c := s.ctxAt e.id pos
  let shard := fun (n : Nat) (f : Shard → Bool) => c.shards.any fun x => x.layer == i.layer && x.n == n && f x
  match i.kind with
  | .embed => !c.hidden.isEmpty
  | .pre => (drained c i.layer 0).isSome && c.kvDone.contains i.layer
  | .passA n => shard n Shard.passA
  | .passB n => shard n Shard.passB
  | .passC n => shard n Shard.passC
  | .attn => shard 0 Shard.passC
  | .layer => (drained c i.layer 6).isSome && ((steerFor s e i.layer).isNone || c.steered.contains i.layer)
  | .post => (drained c i.layer 6).isSome && ((steerFor s e i.layer).isNone || c.steered.contains i.layer)
  | .head => !c.logits.isEmpty
  | .sampling => e.token.isSome || e.noLogit

/-- Mark the first undone item of a position done. -/
def markDone (pos : Nat) : List Item → List Item
  | [] => []
  | i :: r => if i.pos = pos && !i.done then { i with done := true } :: r else i :: markDone pos r

/-- Whether every item of a position is done. -/
def posDone (e : Entry) (pos : Nat) : Bool := e.items.all fun i => !(i.pos == pos) || i.done

/-- The pipeline frames of a position's output: one record per block (R153, R175, R478). -/
def outputFrames (s : State) (e : Entry) (r : StageRec) (pos : Nat) : List Payload :=
  (handoffData r.outE4m3 (s.ctxAt e.id pos).hidden).map fun d =>
    .handoff e.handle e.epoch r.nextStage pos 1 (e.arith ||| d.2) e.dwell e.slip r.outE4m3 d.1

/-- A position's output leaves its stage once it has been drained and checked (R175). After the last position of an entry
for another module follow its reservation and its seal mark (R176, R227, R479). -/
def sendOutput (s : State) (id pos : Nat) : State :=
  match workEntry s id with
  | none => s
  | some (e, r) =>
    if r.sample || !posDone e pos || e.handed.contains pos then s
    else
      let s1 := onArith s id (((handoffData r.outE4m3 (s.ctxAt id pos).hidden).map Prod.snd).foldl (· ||| ·) 0)
      let hand := fun (s : State) => s.onEntry id fun e => { e with handed := e.handed ++ [pos] }
      let fs := outputFrames s1 e r pos
      if r.remote then
        let s2 := hand (fs.foldl (fun s p => sendModule s r.keel r.nextModule 1 p) s1)
        if e.handed.length + 1 < e.count then s2
        else
          sendModule (sendModule s2 r.keel r.nextModule 0 (.ctrl (.reserve e.handle e.first e.count))) r.keel r.nextModule 0
            (.ctrl (.sealMark e.handle r.nextStage))
      else
        match (s.model e.model).stages[r.nextStage]? with
        | none => s1
        | some n =>
          if n.keel = r.keel then hand s1 else fs.foldl (fun s p => sendBridle s r.keel n.keel 1 p) s1

/-- The embedding lookup of a position, widened to FP32 (R291). -/
def embedPos (s : State) (e : Entry) (pos : Nat) : State :=
  s.onCtx e.id pos fun c => { c with hidden := embedRow (entryBundle s e 256) (e.tokens.getD (pos - e.first) 0) }

/-- Go on with a position: complete its open item if that has completed, look up an embedding, quantise what can be
quantised, and hand the output on after the last item. -/
def advanceBy : Nat → State → Nat → Nat → State
  | 0, s, id, pos => sendOutput (prepare s id pos) id pos
  | n + 1, s, id, pos =>
    match workEntry s id with
    | none => s
    | some (e, _) =>
      match openItem e pos with
      | none => sendOutput s id pos
      | some i =>
        let s1 := if i.kind = .embed && !vectorsBad s e 256 then embedPos s e pos else s
        if itemComplete s1 e pos i then
          advanceBy n ((s1.onEntry id fun e => { e with items := markDone pos e.items }).onCtx id pos fun c =>
            { c with start := c.hidden }) id pos
        else prepare s1 id pos

/-- An embedding may be followed by one item that begins at once. -/
def advance (s : State) (id pos : Nat) : State := advanceBy 3 s id pos

/-! One block at work. -/

/-- What a product, replay or tail-path job of a block works on. -/
structure Blk where
  entry : Entry
  keel : Nat
  key : BlockKey
  sect : List Byte
  desc : MatDesc
  b : BlockWork
  q : QBlock
  deriving DecidableEq, Repr

/-- The block a key names, if its item has started. That of a masked entry runs to its end, too: its products and their
checks, whose results are discarded (R137, R267). -/
def findBlk (s : State) (k : BlockKey) : Option Blk :=
  match liveEntry s k.entry with
  | none => none
  | some (e, r) =>
    let c := s.ctxAt k.entry k.pos
    let x := entrySection s e k.layer
    let d := roleDesc x k.role
    match c.blocks.find? (fun b => b.layer == k.layer && b.role == k.role && b.tile == k.tile),
          findQBlock c k.layer (rolePoint k.role) (k.tile % max 1 d.rowB) with
    | some b, some q =>
      if openFor e k.pos k.layer k.role then
        some { entry := e, keel := r.keel, key := k, sect := x, desc := d, b := b, q := q }
      else none
    | _, _ => none

/-- Change a block. -/
def onBlock (s : State) (k : BlockKey) (f : BlockWork → BlockWork) : State :=
  s.onCtx k.entry k.pos fun c =>
    { c with blocks := c.blocks.map fun b =>
        if b.layer = k.layer && b.role = k.role && b.tile = k.tile then f b else b }

/-- The tile record of a block in the master copy, and the format of its weights. -/
def blkRecord (w : Blk) : List Byte := tileRecord w.sect (w.desc.first + w.key.tile)
def blkFormat (w : Blk) : Nat := tileFormat w.sect w.desc w.key.tile

/-- The FP32 input elements of a block. -/
def blkInput (s : State) (w : Blk) : List F32 :=
  match pointInput w.sect (entryHidden s w.entry) (s.ctxAt w.key.entry w.key.pos) w.key.layer (rolePoint w.key.role) with
  | none => []
  | some v => inputBlock v w.q.block

/-- The handle and first position of an entry, as fault records name them; `recovered` where the module replaces or rebuilds the
data (R461; log 132). -/
def entryRecord (s : State) (e : Entry) (kind source : Nat) (recovered : Bool) (loc detail : Nat) : State :=
  faultRecord s kind source recovered loc e.handle (BitVec.ofNat 32 e.first) detail

end Sys2Proof.Machine
end

