-- ==== Sys2Proof/Machine/Product.lean ====
section
/-!
DEFINITION. Tile products, repeats and split replays: codes, the fold, the checks and what follows from each (R46–R56,
R71–R75, R129–R133, R428–R436).
-/
namespace Sys2Proof.Machine

/-! Codes and terms. -/

/-- The physical column whose code stands for a weight column, with a tile's substitutions applied (R35, R95). -/
def subColumn (red : List Nat) (p : Nat) : Nat :=
  match leastBelow 16 fun i => redValid (red.getD i 0) && redColumn (red.getD i 0) == p with
  | some i => 2080 + i
  | none => p

/-- The charge that each physical column integrates in each plane, in 1/256 of a unit charge. -/
abbrev Integrated := List (List Nat)

/-- The reference pattern of R70: ladder column j in row r, and zero columns. -/
def refPattern (p r : Nat) : Nat := if p % 2 = 0 && decide (r % 64 ≤ p - 2048) then 1 else 0

/-- What a physical weight column stores in a row: the image's bit, but 0 in the unused columns of a W1 tile (R38–R42). -/
def storedBit (fmt : Nat) (row : List Byte) (p : Nat) : Nat := if fmt = 2 && p % 2 = 1 then 0 else b2n (rowBit row p)

/-- The cells of a row of a written tile (R34, R70, R98): weight columns, reference columns, and spares, which hold the
column that each replaces. -/
def rowCells (fmt : Nat) (red : List Nat) (rec_ : List Byte) (r : Nat) : List Nat :=
  let row := imageRow rec_ r
  ((List.range 2048).map (storedBit fmt row)) ++ ((List.range 32).map fun j => refPattern (2048 + j) r) ++
  (List.range 16).map fun i => if redValid (red.getD i 0) then storedBit fmt row (redColumn (red.getD i 0)) else 0

/-- Of each physical column, the gated rows whose cell stores 1 (R32): the rows whose bit in the plane is 1. -/
def gatedCells (fmt : Nat) (red : List Nat) (rec_ : List Byte) (codes : List Int) (k : Nat) : List Nat :=
  ((List.range 1024).filter fun r => planeBit (codes.getD r 0) k).foldl
    (fun n r => List.zipWith (· + ·) n (rowCells fmt red rec_ r)) (List.replicate 2096 0)

/-- The pedestal that a converter adds to a physical column (R71). -/
def pedestal (p : Nat) : Nat := if decide (2048 ≤ p) && decide (p < 2080) && p % 2 = 1 then 8 else 0

/-- A count of unit charges with what the column's charge differs by, in 1/256 unit; a charge is not negative. -/
def chargeOf (n : Nat) (dev : Int) : Nat := (256 * (n : Int) + dev).toNat

/-- The charges that the columns of a tile integrate in the planes of a product (R32, R71). -/
def integrated (fmt : Nat) (red : List Nat) (rec_ : List Byte) (codes : List Int) (dev : Charges) : Integrated :=
  (List.range 8).map fun k =>
    let d := dev.getD k []
    (gatedCells fmt red rec_ codes k).zipIdx.map fun x => chargeOf (x.1 + pedestal x.2) (d.getD x.2 0)

/-- The conversion of a physical column in a plane. -/
def planeCode (ch : Integrated) (k p : Nat) : Nat × Bool := convCode ((ch.getD k []).getD p 0)

/-- The terms of a plane, from the codes as folded (R53, R54). -/
def planeTerms (fmt : Nat) (red : List Nat) (codes : List Int) (ch : Integrated) (k : Nat) : List Int :=
  let sk := bitSum codes k
  (List.range 1024).map fun c =>
    planeTerm fmt (planeCode ch k (subColumn red (2 * c))).1 (planeCode ch k (subColumn red (2 * c + 1))).1 sk

/-- The terms of all eight planes. -/
def productTerms (fmt : Nat) (red : List Nat) (codes : List Int) (ch : Integrated) : List (List Int) :=
  (List.range 8).map (planeTerms fmt red codes ch)

/-- OVR bits of the weight columns (R52): a W1 tile uses the even ones only. -/
def ovrCount (fmt : Nat) (red : List Nat) (ch : Integrated) : Nat :=
  ((List.range 8).map fun k =>
    (List.range 2048).countP fun p => (fmt != 2 || p % 2 == 0) && (planeCode ch k (subColumn red p)).2).sum

/-- E(k): the exact sum of ROW_SUM over the rows whose bit is 1 (R427). -/
def checkAdder (rec_ : List Byte) (codes : List Int) (k : Nat) : Int :=
  ((List.range 1024).map fun r => if planeBit (codes.getD r 0) k then tileRowSum rec_ r else 0).sum

/-- |D(k)| of every plane (R428). -/
def checkDiffs (p : Panel) (t : Nat) (rec_ : List Byte) (codes : List Int) (terms : List (List Int)) : List F32 :=
  (List.range 8).map fun k =>
    fabs (planeDiff (terms.getD k []) (panelO p) (panelGc p) (panelGt p (t % 8)) (checkAdder rec_ codes k))

/-- Whether a product passes its checksum. -/
def checkPasses (tol fmt : Nat) (ds : List F32) : Bool := ds.all fun d => fle d (f32OfI (tol * formatW fmt : Nat))

/-- A magnitude as an integer of a record's DETAIL, saturating (R462). -/
def detailInt (top : Nat) (d : F32) : Nat := if fIsFin d then min (fToInt d).natAbs top else top

/-- The plane of the largest |D(k)|, and that value as an integer, saturating at 2^24 − 1 (R462). Magnitudes compare as their
encodings do, with infinity and NaN above every number. -/
def worstPlane (ds : List F32) : Nat × Nat :=
  let w := (List.range 8).foldl (fun (w : Nat × F32) k => if w.2.toNat < (ds.getD k 0).toNat then (k, ds.getD k 0) else w) (0, 0)
  (w.1, detailInt 0xFFFFFF w.2)

/-- The block values of a product's integer results (R56). -/
def blockValues (p : Panel) (t : Nat) (rec_ : List Byte) (is : List Int) (sa : F32) : List F32 :=
  (List.range 1024).map fun c =>
    blockValue (is.getD c 0) (panelO p c) (panelGc p c) (panelGt p (t % 8)) (tileScale rec_ c) sa

/-- The NAN and INF bits that forming them raises, by what the operations receive or give (R58, R150). -/
def blockFlags (p : Panel) (t : Nat) (rec_ : List Byte) (is : List Int) (sa : F32) : W16 :=
  flagsOf (sa :: f16ToF32 (panelGt p (t % 8)) :: (List.range 1024).flatMap fun c =>
    [f16ToF32 (panelO p c), f16ToF32 (panelGc p c), f16ToF32 (tileScale rec_ c)] ++
      blockSteps (is.getD c 0) (panelO p c) (panelGc p c) (panelGt p (t % 8)) (tileScale rec_ c) sa)

/-- The integer results of a product. -/
def foldAll (terms : List (List Int)) : List Int :=
  (List.range 1024).map fun c => foldBlock (terms.map fun t => t.getD c 0)

/-! The reference columns (R70–R75). -/

/-- Rows of a plane that gate ladder column `j`: its expected count (R70, R72). -/
def ladderExpect (codes : List Int) (k j : Nat) : Nat :=
  (List.range 1024).countP fun r => decide (r % 64 ≤ 2 * j) && planeBit (codes.getD r 0) k

/-- One reference conversion: plane, physical column, code, OVR, expected count; zero columns lose their pedestal. -/
structure RefConv where
  col : Nat
  code : Int
  ovr : Bool
  expect : Nat
  zeroOff : Int
  deriving DecidableEq, Repr

/-- The ladder conversions of a product, and its zero-column conversions. -/
def ladderConvs (codes : List Int) (ch : Integrated) : List RefConv :=
  (List.range 8).flatMap fun k => (List.range 16).map fun j =>
    let c := planeCode ch k (2048 + 2 * j)
    { col := 2048 + 2 * j, code := c.1, ovr := c.2, expect := ladderExpect codes k j,
      zeroOff := ((planeCode ch k (2049 + 2 * j)).1 : Int) - 8 }

def zeroConvs (ch : Integrated) : List RefConv :=
  (List.range 8).flatMap fun k => (List.range 16).map fun j =>
    let c := planeCode ch k (2049 + 2 * j)
    { col := 2049 + 2 * j, code := (c.1 : Int) - 8, ovr := c.2, expect := 0, zeroOff := 0 }

/-- The last 256 elements of a list. -/
def last256 {α : Type} (l : List α) : List α := l.drop (l.length - 256)

/-- A quotient rounded to the nearest integer and limited to 16 bits signed (log 36). -/
def figure (num den : Int) : Int :=
  if den = 0 then 0 else max (-32768) (min 32767 ((2 * num + den) / (2 * den)))

/-- GAIN_DRIFT and OFFSET_DRIFT of a tile (R73), in 1/256 LSB. -/
def gainFigure (x : Tile) : Int :=
  let sums := x.ladder.foldl (fun (a : Int × Int) p => (a.1 + p.1, a.2 + p.2)) (0, 0)
  if x.ladder.isEmpty then 0
  else figure (511 * 256 * (sums.1 * x.ladderRef.2 - x.ladderRef.1 * sums.2)) (sums.2 * x.ladderRef.2)

def offsetFigure (x : Tile) : Int :=
  if x.zero.isEmpty then 0
  else figure (256 * (x.zero.sum * x.zeroRef.2 - x.zeroRef.1 * x.zero.length)) (x.zero.length * x.zeroRef.2)

/-- A panel goes to the head of its die's recalibration order (R74). -/
def orderHead (s : State) (p : Nat) : State :=
  s.onDie (panelDie p) fun d => { d with order := p :: d.order.filter fun x => !(x == p) }

/-- The drift monitor whenever a tile's figures change: the figures, DRIFT with its one event, and the head of the order
(R73, R74). -/
def driftCheck (s : State) (t : Nat) : State :=
  let x := s.tileAt t
  let g := gainFigure x
  let o := offsetFigure x
  let s1 := s.onTile t fun x => { x with gainDrift := g, offDrift := o }
  let lim := 16 * opt s oDriftLimit
  if decide (lim < g.natAbs) || decide (lim < o.natAbs) then
    let s2 := if (s.panelAt (t / 8)).drift then s1
      else event0 (s1.onPanel (t / 8) fun p => { p with drift := true }) 0x0001
        (toLe 4 (t / 8) ++ toLe 1 (t % 8) ++ zeros 1 ++ toLe 2 (signed16 g) ++ toLe 2 (signed16 o))
    orderHead s2 (t / 8)
  else s1

/-- Reference faults: conversions with OVR, and ladder codes more than 16 LSB from their expected counts (R75). -/
def refFaults (s : State) (keel t : Nat) (ls zs : List RefConv) : State :=
  let bad := (ls.filter fun c => c.ovr || decide (16 < (c.code - c.expect).natAbs)) ++ zs.filter RefConv.ovr
  bad.foldl (fun s c => faultRec s 0x0001 keel t (c.col + 65536 * b2n c.ovr)) s

/-- The reference conversions of a product: faults, drift figures (R71–R75). -/
def noteRefs (s : State) (keel t : Nat) (codes : List Int) (ch : Integrated) : State :=
  let ls := ladderConvs codes ch
  let zs := zeroConvs ch
  let s1 := refFaults s keel t ls zs
  driftCheck (s1.onTile t fun x =>
    { x with ladder := last256 (x.ladder ++ (ls.filter fun c => decide (64 ≤ c.expect)).map fun c => (c.code - c.zeroOff, c.expect)),
             zero := last256 (x.zero ++ zs.map RefConv.code) }) t

/-! Running a product. -/

/-- Whether a block asks for wide mode. -/
def BlockSt.asksWide : BlockSt → Bool
  | .wide _ => true
  | _ => false

/-- Whether a block waits for a spot check. -/
def BlockSt.waits : BlockSt → Bool
  | .spot _ => true
  | _ => false

/-- Whether service of this tick holds a tile or its panel's converter bank (R172). -/
def serviceHolds (s : State) (t : Nat) : Bool :=
  s.pipe.plan.any fun v => v.panel == t / 8 && (v.bank || v.tile == some t || v.tile.isNone)

/-- Block-accumulator sets of a panel that hold values not yet taken by the tree (R60): those of passed products that wait for
a spot check. Values that pass are taken at once, and values that fail a check never are (R59; log 98). -/
def setsHeld (s : State) (p : Nat) : Nat :=
  (s.pipe.ctx.map fun c => c.2.blocks.countP fun b => b.phys / 8 == p && b.st.waits).sum +
  s.pipe.spots.countP fun h => h.phys / 8 == p

/-! Panel time (R47, R170, R182, R432). -/

/-- Product time of a band (R47, R170), and N of a die. -/
def productNs (s : State) (d : Nat) : Nat :=
  match (s.dieAt d).band with
  | 0 => 96
  | 1 => 96
  | 2 => 104
  | _ => 112
def productsPer (s : State) (d : Nat) : Nat := (tickNs s - 1900) / productNs s d

/-- The panel time of an operation that holds the converter bank, in products: 256 cycles of a scrub unit, 208 of a
recalibration, eight to a product. -/
def bankProducts (v : Service) : Nat := if !v.bank then 0 else if v.rank = 2 then 32 else 26

/-- Product time of a die: B × N less the bank time of service placed before packing; and of a panel (R182). -/
def dieTime (s : State) (d : Nat) : Nat :=
  s.tick.budget * productsPer s d - ((s.pipe.plan.filter fun v => panelDie v.panel == d).map bankProducts).sum
def panelRoom (s : State) (p : Nat) : Nat :=
  if s.pipe.plan.any fun v => v.panel == p && v.bank then 0 else productsPer s (panelDie p)

/-- Product time of a die that the packer may give out: all but REPEAT_RESERVE (R182). -/
def dieRoom (s : State) (d : Nat) : Nat := dieTime s d - opt s oRepeatReserve

/-- Whether a tile finds panel time for `n` products more in this tick: from REPEAT_RESERVE, then what the packer left unused,
within B × N of the die and N of the panel (R132, R432). -/
def repeatRoom (s : State) (t n : Nat) : Bool :=
  decide (s.pipe.panelUsed.get 0 (t / 8) + n ≤ panelRoom s (t / 8)) &&
  decide (s.pipe.dieUsed.get 0 (t / 16384) + n ≤ dieTime s (t / 16384))

/-- A repeat or a half of a split replay takes the time of a product. -/
def takeTime (s : State) (t : Nat) : State :=
  s.onPipe fun q => { q with panelUsed := q.panelUsed.upd 0 (t / 8) (· + 1), dieUsed := q.dieUsed.upd 0 (t / 16384) (· + 1) }

/-- Whether a tile may run a product now: it holds verified weights with sound scales on a calibrated panel that nothing holds
and that has a block-accumulator set free, before the compute cut-off (R60, R84, R106, R172, R173, R298, R305, R441, R451). -/
def tileRuns (s : State) (t : Nat) : Bool :=
  let x := s.tileAt t
  let p := s.panelAt (t / 8)
  x.holds.isSome && !x.unverified && !x.scaleBad && !keelClosed s (tileKeel t) && x.half.isNone && !panelForced s (t / 8) && !p.corrBad && !serviceHolds s t &&
    decide (setsHeld s (t / 8) < 2)

/-- What every product does besides its result: the counters, and the reference conversions. -/
def countProduct (s : State) (w : Blk) (codes : List Int) (ch : Integrated) : State :=
  let s1 := s.onKeel w.keel fun x => { x with productsNow := satAdd 32 x.productsNow 1 }
  let s2 := s1.onPipe fun q => { q with ran := if q.ran.contains w.b.phys then q.ran else q.ran ++ [w.b.phys] }
  noteRefs s2 w.keel w.b.phys codes ch

/-- Check-store words that fail in a product: the store is bad until it is rewritten, and the first failure writes a
record (R430). -/
def noteWords (s : State) (w : Blk) (bad : List Nat) : State :=
  let t := w.b.phys
  let x := s.tileAt t
  if bad.isEmpty then s
  else
    let s1 := s.onTile t fun x =>
      { x with csBad := distinct (x.csBad ++ bad), csRecord := true, csDue := some (x.csDue.getD s.tick.edges) }
    if x.csRecord then s1 else entryRecord s1 w.entry 0x0012 w.keel false t (bad.foldl min (bad.headD 0))

/-- Whether 4,096 ticks have passed without what an event of a stage reports (R139, R189). -/
def quietLong (s : State) (last : Option Nat) : Bool :=
  match last with
  | none => true
  | some l => decide (l + 4096 < s.tick.edges)

/-- A stage has a wide-mode slip in this tick (R139). -/
def stageWideSlip (s : State) (st k : Nat) : State :=
  let x := s.stage st
  let s1 := s.onStage st fun x => { x with lastWide := some s.tick.edges }
  if quietLong s x.lastWide then event0 s1 0x0004 (toLe 1 st ++ toLe 1 k) else s1

/-- A request that arises after the seal decision of its tick is carried, too: the decision could not count it (R135, R170). -/
def noteLateRequest (s : State) (id : Nat) : State :=
  match s.entry id with
  | none => s
  | some e =>
    match entryKeel s e with
    | none => s
    | some k =>
      if e.masked || !keelClosed s k then s
      else
        stageWideSlip ((onArith s id flWideSlip).onKeel k fun x => { x with wideSlips := satAdd 32 x.wideSlips 1 })
          (entryStageIndex s e) k

/-- A request for wide mode at a rank (R134); a block of a masked entry makes none, since it belongs to no live entry (R137,
R444). -/
def askWide (s : State) (k : BlockKey) (rank : Nat) : State :=
  let live := (s.entry k.entry).any fun e => !e.masked
  onBlock (noteLateRequest s k.entry) k fun b => { b with st := if live then .wide rank else .done, edge := s.tick.edges }

/-- Whether a panel's product that passes is the one that its due check takes (R445). -/
def duePending (s : State) (p : Nat) : Bool :=
  (s.panelAt p).spotDue &&
  !(s.pipe.ctx.any fun c => c.2.blocks.any fun b => b.phys / 8 == p && b.st == .spot 0)

/-- The spot check that a passing product must wait for, if any (R430, R436, R442, R445, R451). -/
def spotClass (s : State) (t : Nat) (words : Bool) : Option Nat :=
  if words then some 1
  else if s.chk.spotPanels.contains (t / 8) || duePending s (t / 8) then some 0
  else if (s.tileAt t).suspect then some 1
  else if (s.panelAt (t / 8)).policy == 2 then some 2
  else none

/-- A product has passed: its values enter, or wait for a spot check. `flags` are those that its values bring once they enter
the reduction, `work` those that forming them raised (R150). -/
def acceptProduct (s : State) (w : Blk) (codes : List Int) (terms : List (List Int)) (vals : List F32) (sa : F32)
    (flags work : W16) (words : Bool) : State :=
  let t := w.b.phys
  let cls := spotClass s t words
  let s1 := onBlock s w.key fun b =>
    { b with st := match cls with
               | some c => .spot c
               | none => .done,
             src := (s.tileAt t).holds, codes := codes, sa := sa, terms := terms, vals := vals, flags := flags,
             edge := s.tick.edges, spotNo := s.pipe.nextSpot }
  let s2 := s1.onPipe fun q => { q with nextSpot := q.nextSpot + b2n cls.isSome }
  let s3 := if cls = some 0 then s2.onChk fun k => { k with spotPanels := k.spotPanels.filter fun p => !(p == t / 8) } else s2
  onArith s3 w.entry.id work

/-- A failed checksum counts (R464). -/
def countFail (s : State) : State := s.onChk fun k => { k with fails := satAdd 32 k.fails 1 }

/-- Mark a tile pattern-suspect after a failed repeat, and raise the event once until the mark is cleared (R434). -/
def suspect (s : State) (t : Nat) : State :=
  let s1 := s.onTile t fun x => { x with suspect := true, raised := true }
  if (s.tileAt t).raised then s1 else event0 s1 0x0010 (toLe 4 t)

/-- A repeat has failed (R434): wide mode at rank 2, the mark, the capture, the record. -/
def failRepeat (s : State) (w : Blk) (codes : List Int) (ds : List F32) : State :=
  let t := w.b.phys
  let pv := worstPlane ds
  let s1 := askWide (s.onChk fun k => { k with replays := satAdd 32 k.replays 1 }) w.key 2
  let s2 := entryRecord (capture s1 t codes) w.entry 0x0011 w.keel (!w.entry.masked) t (pv.1 * 2 ^ 29 + pv.2)
  suspect s2 t

/-- A repeat has passed (R433): a transient, recorded at most once per panel in 4,096 ticks. -/
def passRepeat (s : State) (w : Blk) : State :=
  let p := w.b.phys / 8
  let x := s.panelAt p
  let s1 := s.onChk fun k => { k with transients := satAdd 32 k.transients 1 }
  let due := match x.transEdge with
    | none => true
    | some e => decide (e + 4096 ≤ s.tick.edges)
  if due then
    entryRecord (s1.onPanel p fun x => { x with trans := 0, transEdge := some s.tick.edges }) w.entry 0x0010 w.keel true
      w.b.phys (x.trans + 1)
  else s1.onPanel p fun x => { x with trans := x.trans + 1 }

/-- TILE_PRODUCT (R46, R52–R56, R428–R431, R436). -/
def tileProduct (k : BlockKey) (dev : Charges) (bad : List Nat) (s : State) : State :=
  match findBlk s k with
  | none => s
  | some w =>
    if w.b.st != .fresh || !tileRuns s w.b.phys then s
    else
      let fmt := blkFormat w
      let x := s.tileAt w.b.phys
      let p := s.panelAt (w.b.phys / 8)
      let rec_ := blkRecord w
      let ch := integrated fmt x.red rec_ w.q.codes dev
      let terms := productTerms fmt x.red w.q.codes ch
      let s1 := countProduct s w w.q.codes ch
      let s2 := noteWords s1 w bad
      let words := !bad.isEmpty || x.csRecord
      let ds := checkDiffs p w.b.phys rec_ w.q.codes terms
      if opt s oCheckSatLimit < ovrCount fmt x.red ch then
        onBlock s2 k fun b => { b with st := .needSplit false, edge := s.tick.edges }
      else if words || checkPasses (opt s oTileCheckTol) fmt ds then
        acceptProduct s2 w w.q.codes terms (blockValues p w.b.phys rec_ (foldAll terms) w.q.sa) w.q.sa
          (if w.q.clip then flClipped else 0) (blockFlags p w.b.phys rec_ (foldAll terms) w.q.sa) words
      else if x.suspect then
        askWide (countFail (s2.onChk fun c => { c with replays := satAdd 32 c.replays 1 })) k 2
      else onBlock (countFail s2) k fun b => { b with st := .needRepeat, edge := s.tick.edges }

def execTileProduct (k : BlockKey) (ch : Charges) (bad : List Nat) (s : State) : Host.Outcome State Fault Refusal :=
  guarded (Instr.wf (.tileProduct k ch bad)) s (tileProduct k ch bad s)

/-- The codes of a block with the no-clip scale (R130). -/
def replayCodes (s : State) (w : Blk) : List Int := blockCodes (blkInput s w) w.q.noClip w.q.slots []

/-- A block takes the no-clip scale (R130, R157); one that has it already is not counted again. -/
def takeNoClip (s : State) (w : Blk) : State :=
  let s1 := onArith s w.entry.id flRescaled
  if w.q.resc then s1
  else
    (s1.onKeel w.keel fun x => { x with rescales := satAdd 32 x.rescales 1 }).onCtx w.entry.id w.key.pos fun c =>
      { c with qblocks := c.qblocks.map fun q =>
          if q.layer = w.q.layer && q.point = w.q.point && q.block = w.q.block then { q with resc := true } else q }

/-- PRODUCT_REPEAT, in the panel time of R432 (R130, R132, R431–R434). -/
def productRepeat (k : BlockKey) (dev : Charges) (bad : List Nat) (s : State) : State :=
  match findBlk s k with
  | none => s
  | some w =>
    if w.b.st != .needRepeat || !tileRuns s w.b.phys || !repeatRoom s w.b.phys 1 then s
    else
      let fmt := blkFormat w
      let x := s.tileAt w.b.phys
      let p := s.panelAt (w.b.phys / 8)
      let rec_ := blkRecord w
      let codes := replayCodes s w
      let ch := integrated fmt x.red rec_ codes dev
      let terms := productTerms fmt x.red codes ch
      let s1 := noteWords (countProduct (takeNoClip (takeTime s w.b.phys) w) w codes ch) w bad
      let words := !bad.isEmpty || x.csRecord
      let ds := checkDiffs p w.b.phys rec_ codes terms
      if opt s oCheckSatLimit < ovrCount fmt x.red ch then onBlock s1 k fun b => { b with st := .needSplit true }
      else if words || checkPasses (opt s oTileCheckTol) fmt ds then
        acceptProduct (if words then s1 else passRepeat s1 w) w codes terms
          (blockValues p w.b.phys rec_ (foldAll terms) w.q.noClip) w.q.noClip 0
          (blockFlags p w.b.phys rec_ (foldAll terms) w.q.noClip) words
      else failRepeat (countFail s1) w codes ds

def execProductRepeat (k : BlockKey) (ch : Charges) (bad : List Nat) (s : State) : Host.Outcome State Fault Refusal :=
  guarded (Instr.wf (.productRepeat k ch bad)) s (productRepeat k ch bad s)

/-- The codes of a half of the rows, the others 0 (R131). -/
def halfCodes (codes : List Int) (high : Bool) : List Int :=
  if high then List.replicate 512 0 ++ codes.drop 512 else codes.take 512 ++ List.replicate 512 0

/-- Terms of two products added plane by plane. -/
def addTerms (a b : List (List Int)) : List (List Int) := List.zipWith (List.zipWith (· + ·)) a b

/-- The first product of a split replay fails its checksum (R131): no further product of the block runs on the tile. -/
def splitFails (s : State) (w : Blk) (standIn : Bool) (codes : List Int) (ds : List F32) : State :=
  let s1 := countFail s
  if standIn then failRepeat s1 w codes ds else askWide s1 w.key 2

/-- SPLIT_REPLAY (R131): two products with half the rows each, folded apart and added. `words` of each: a check-store word that
it reads is bad (R430), which leaves its checksum aside as saturation does. Where the first product saturates and the second
fails its checksum, R131 gives both ranks and no precedence: the model runs the second product and takes rank 2 (log 123). -/
def splitReplay (k : BlockKey) (lo hi : Charges) (bad : List Nat) (s : State) : State :=
  match findBlk s k with
  | none => s
  | some w =>
    match w.b.st with
    | .needSplit standIn =>
      if !tileRuns s w.b.phys || !repeatRoom s w.b.phys 2 then s
      else
        let fmt := blkFormat w
        let x := s.tileAt w.b.phys
        let p := s.panelAt (w.b.phys / 8)
        let rec_ := blkRecord w
        let tol := opt s oTileCheckTol
        let lim := opt s oCheckSatLimit
        let codes := replayCodes s w
        let cl := halfCodes codes false
        let low := integrated fmt x.red rec_ cl lo
        let tl := productTerms fmt x.red cl low
        let dl := checkDiffs p w.b.phys rec_ cl tl
        let sl := decide (lim < ovrCount fmt x.red low)
        let wl := x.csRecord || bad.any fun r => decide (r < 512)
        let s0 := (takeTime (if standIn then s else takeNoClip s w) w.b.phys).onKeel w.keel fun x => { x with splits := satAdd 32 x.splits 1 }
        let s1 := countProduct s0 w cl low
        if !wl && !sl && !checkPasses tol fmt dl then splitFails s1 w standIn codes dl
        else
          let ch := halfCodes codes true
          let high := integrated fmt x.red rec_ ch hi
          let th := productTerms fmt x.red ch high
          let dh := checkDiffs p w.b.phys rec_ ch th
          let sh := decide (lim < ovrCount fmt x.red high)
          let words := x.csRecord || !bad.isEmpty
          let s2 := noteWords (countProduct (takeTime s1 w.b.phys) w ch high) w bad
          if !words && !sh && !checkPasses tol fmt dh then splitFails s2 w standIn codes dh
          else if sl || sh then askWide s2 k 3
          else
            let sum := List.zipWith (· + ·) (foldAll tl) (foldAll th)
            acceptProduct (if standIn && !words then passRepeat s2 w else s2) w codes (addTerms tl th)
              (blockValues p w.b.phys rec_ sum w.q.noClip) w.q.noClip flSplit
              (blockFlags p w.b.phys rec_ sum w.q.noClip) words
    | _ => s

def execSplitReplay (k : BlockKey) (lo hi : Charges) (bad : List Nat) (s : State) : Host.Outcome State Fault Refusal :=
  guarded (Instr.wf (.splitReplay k lo hi bad)) s (splitReplay k lo hi bad s)

end Sys2Proof.Machine
end

