-- ==== Sys2Proof/Machine/Tail.lean ====
section
/-!
DEFINITION. The tail path and the drain (R62–R64, R118–R137, R145, R277, R278, R438, R442–R446): wide mode, outlier rows,
delta sections, spot checks, residue reruns, and the reduction of a matrix.
-/
namespace Sys2Proof.Machine

/-! Order of service. -/

/-- The order of entries in a flight, which is the order in which the packer takes them (R184; log 37). -/
def flightKey (e : Entry) : List Nat := [e.cls, e.readyEdge, e.sess]

/-- Whether the tail path can serve a block in this tick: its item is admitted, its record in the master copy may be used, and no
work of its position has failed three times (R184, R298, R438). -/
def servable (s : State) (e : Entry) (pos : Nat) (b : BlockWork) : Bool :=
  openFor e pos b.layer b.role && !tailStuck s e.id pos &&
  !recordLost (s.model e.model) e.epoch b.layer ((roleDesc (entrySection s e b.layer) b.role).first + b.tile)

/-- Every block of a keel that the tail path can serve now, with its entry and position. -/
def keelBlocks (s : State) (k : Nat) : List (Entry × Nat × BlockWork) :=
  s.pipe.ctx.flatMap fun c =>
    match s.entry (c.1 / 2097152) with
    | none => []
    | some e =>
      if entryKeel s e = some k && !e.masked then
        (c.2.blocks.filter (servable s e (c.1 % 2097152))).map fun b => (e, c.1 % 2097152, b)
      else []

/-- The rank at which a block asks for wide mode: a repeat or replay asks at 4 once it finds no panel time (R132, R134, R432). -/
def wideRank (s : State) (b : BlockWork) : Option Nat :=
  match b.st with
  | .wide r => some r
  | .needRepeat => if repeatRoom s b.phys 1 then none else some 4
  | .needSplit _ => if repeatRoom s b.phys 2 then none else some 4
  | _ => none

/-- The order of wide-mode requests (R134): carried ones first, oldest first; then rank, stage, flight, position, column
block, row block. Between matrices of a position that these leave equal the order is the layer's (log 37). -/
def wideKey (s : State) (e : Entry) (pos : Nat) (b : BlockWork) : List Nat :=
  let d := roleDesc (entrySection s e b.layer) b.role
  let rb := max 1 d.rowB
  (if b.edge < s.tick.edges then [1, b.edge] else [(wideRank s b).getD 9, 0]) ++ [entryStageIndex s e] ++ flightKey e ++
    [pos, b.tile / rb, b.tile % rb, b.layer, b.role]

/-- Whether a request is the next that its keel serves: no request that can be served goes before it. -/
def wideFirst (s : State) (w : Blk) : Bool :=
  let key := wideKey s w.entry w.key.pos w.b
  (keelBlocks s w.keel).all fun x => (wideRank s x.2.2).isNone || !lexLt (wideKey s x.1 x.2.1 x.2.2) key

/-- The order of outlier rows (R128): carried ones first, oldest first; then flight, position, quantisation point. -/
def rowKey (s : State) (e : Entry) (pos : Nat) (b : BlockWork) : List Nat :=
  [min b.rowEdge s.tick.edges] ++ flightKey e ++ [pos, b.layer, rolePoint b.role]

/-- The segments a slotted row costs: one per column block that its input block feeds (R127). -/
def rowCost (sect : List Byte) (l pt : Nat) : Nat := ((pointRoles l pt).map fun role => (roleDesc sect role).colB).sum

/-- Whether the row a block waits for can be served in this tick: it is charged already, or finds room for all it costs. -/
def rowRoom (s : State) (k : Nat) (e : Entry) (pos : Nat) (b : BlockWork) : Bool :=
  let sect := entrySection s e b.layer
  let pt := rolePoint b.role
  (match findQBlock (s.ctxAt e.id pos) b.layer pt (b.tile % max 1 (roleDesc sect b.role).rowB), b.rows with
    | some q, r :: _ => q.charged.contains r
    | _, _ => false) ||
  decide ((s.keelCtr k).tailUsed + rowCost sect b.layer pt ≤ opt s oTailBudget)

/-- Whether no outlier row of the keel that can be served goes before those of a block. -/
def rowFirst (s : State) (w : Blk) : Bool :=
  let key := rowKey s w.entry w.key.pos w.b
  (keelBlocks s w.keel).all fun x =>
    x.2.2.rows.isEmpty || !lexLt (rowKey s x.1 x.2.1 x.2.2) key || !rowRoom s w.keel x.1 x.2.1 x.2.2

/-- Charge a slotted row when its first terms are formed (R127, R157). -/
def chargeRow (s : State) (w : Blk) (r : Nat) : State :=
  if w.q.charged.contains r then s
  else
    let s1 := s.onCtx w.entry.id w.key.pos fun c =>
      { c with qblocks := c.qblocks.map fun q =>
          if q.layer = w.q.layer && q.point = w.q.point && q.block = w.q.block then { q with charged := q.charged ++ [r] }
          else q }
    s1.onKeel w.keel fun x =>
      { x with tailUsed := x.tailUsed + rowCost w.sect w.key.layer (rolePoint w.key.role),
               outlierRows := satAdd 32 x.outlierRows 1 }

/-! Wide mode (R133). -/

/-- The weights of column `c` of a tile record, by row. -/
def recordColumn (fmt : Nat) (rec_ : List Byte) (c : Nat) : List Int :=
  (List.range 1024).map fun r => rowWeight fmt (imageRow rec_ r) c

/-- The wide-mode values of a block: BF16 inputs, exact products, the canonical tree over rows, the weight scale. -/
def wideValues (fmt : Nat) (rec_ : List Byte) (xs : List F32) : List F32 :=
  let bs := xs.map fun x => bf16ToF32 (f32ToBf16 x)
  (List.range 1024).map fun c =>
    fmul (treeSum (List.zipWith (fun x w => fmul x (f32OfI w)) bs (recordColumn fmt rec_ c))) (f16ToF32 (tileScale rec_ c))

/-- The NAN and INF bits that forming them raises (R150). -/
def wideFlags (fmt : Nat) (rec_ : List Byte) (xs : List F32) : W16 :=
  let bs := xs.map fun x => bf16ToF32 (f32ToBf16 x)
  (List.range 1024).foldl
    (fun f c => f ||| sumFlags (List.zipWith (fun x w => fmul x (f32OfI w)) bs (recordColumn fmt rec_ c)))
    (flagsOf bs ||| flagsOf (wideValues fmt rec_ xs))

/-- Whether a block's tile record in the master copy may be used (R298). -/
def masterOk (s : State) (w : Blk) : Bool :=
  !recordLost (s.model w.entry.model) w.entry.epoch w.key.layer (w.desc.first + w.key.tile)

/-- WIDE_MODE_BLOCK (R132–R134, R157). -/
def wideModeBlock (k : BlockKey) (s : State) : State :=
  match findBlk s k with
  | none => s
  | some w =>
    if w.entry.masked || (wideRank s w.b).isNone || opt s oWideBudget ≤ (s.keelCtr w.keel).wideUsed ||
        !servable s w.entry w.key.pos w.b || !wideFirst s w then s
    else
      let vals := wideValues (blkFormat w) (blkRecord w) (blkInput s w)
      let s1 := onBlock s k fun b => { b with st := .done, wide := true, vals := vals, rows := [], outl := none, flags := flWide }
      let s2 := s1.onKeel w.keel fun x => { x with wideUsed := x.wideUsed + 1, wideBlocks := satAdd 32 x.wideBlocks 1 }
      onArith s2 w.entry.id (wideFlags (blkFormat w) (blkRecord w) (blkInput s w))

def execWideModeBlock (k : BlockKey) (s : State) : Host.Outcome State Fault Refusal :=
  guarded (Instr.wf (.wideModeBlock k)) s (wideModeBlock k s)

/-! Outlier rows (R126–R128). -/

/-- OUTLIER_ROW: the next slotted row of a tile, in ascending row order; after the last the sums take the weight scale.
The row is charged and counted once, whichever of the tiles it feeds comes first. -/
def outlierRow (k : BlockKey) (row : Nat) (s : State) : State :=
  match findBlk s k with
  | none => s
  | some w =>
    match w.b.rows with
    | [] => s
    | r :: rest =>
      if w.entry.masked || r ≠ row || !rowRoom s w.keel w.entry w.key.pos w.b || !servable s w.entry w.key.pos w.b ||
          !rowFirst s w then s
      else
        let rec_ := blkRecord w
        let x := (blkInput s w).getD r 0
        let fmt := blkFormat w
        let line := imageRow rec_ r
        let terms := (List.range 1024).map fun c => fmul x (f32OfI (rowWeight fmt line c))
        let sums := match w.b.outl with
          | none => terms
          | some l => List.zipWith fadd l terms
        let out := if rest.isEmpty then
            (List.range 1024).map fun c => fmul (sums.getD c 0) (f16ToF32 (tileScale rec_ c))
          else sums
        let s1 := onBlock s k fun b => { b with rows := rest, outl := some out }
        onArith (chargeRow s1 w r) w.entry.id (flagsOf terms ||| flagsOf sums ||| flagsOf out)

def execOutlierRow (k : BlockKey) (row : Nat) (s : State) : Host.Outcome State Fault Refusal :=
  guarded (Instr.wf (.outlierRow k row)) s (outlierRow k row s)

/-! Delta sections (R275, R277, R278). -/

/-- The non-zeros of a section in image order: input row, row scale, output column, delta. -/
def deltaEntries (b : List Byte) (d : DeltaSec) : List (Nat × F16 × Nat × Int) :=
  let row := fun i => slice b (d.off + 12 * i) 12
  let ns := (List.range d.rows).map fun i => le (row i) 4 4
  (List.range d.rows).flatMap fun i =>
    (List.range (ns.getD i 0)).map fun j =>
      let nz := le b (d.off + 12 * d.rows + 4 * ((ns.take i).sum + j)) 4
      (le (row i) 0 4 % 16777216, BitVec.ofNat 16 (le (row i) 8 2), nz % 16777216, toSigned 8 (nz / 16777216))

/-- The BF16 accumulators of a section (R277): one draw per addition, in order. -/
def deltaAccum (seed : W64) (xs : List F32) (width : Nat) (l : List (Nat × F16 × Nat × Int)) : List W16 :=
  (l.foldl
    (fun (st : Nat × List W16) n =>
      let w := fmul (f32OfI n.2.2.2) (f16ToF32 n.2.1)
      let y := fadd (bf16ToF32 (st.2.getD n.2.2.1 0)) (fmul (xs.getD n.1 0) w)
      (st.1 + 1, setAt st.2 n.2.2.1 (srBf16 y (srDraw seed st.1))))
    (0, List.replicate width 0)).2

/-- The NAN and INF bits that forming them raises (R150). -/
def deltaFlags (seed : W64) (xs : List F32) (width : Nat) (l : List (Nat × F16 × Nat × Int)) : W16 :=
  (l.foldl
    (fun (st : Nat × List W16 × W16) n =>
      let w := fmul (f32OfI n.2.2.2) (f16ToF32 n.2.1)
      let p := fmul (xs.getD n.1 0) w
      let y := fadd (bf16ToF32 (st.2.1.getD n.2.2.1 0)) p
      let z := srBf16 y (srDraw seed st.1)
      (st.1 + 1, setAt st.2.1 n.2.2.1 z, st.2.2 ||| flagsOf [w, p, y, bf16ToF32 z]))
    (0, List.replicate width 0, 0)).2.2

/-- Whether an entry's delta section of a matrix waits and can be served: it has one, which can be read, its input is there, and
it has not been served (R278, R438, R440). -/
def deltaWaits (s : State) (e : Entry) (pos : Nat) (c : PosCtx) (l m : Nat) : Bool :=
  openFor e pos l m && !adapterBad s e && !tailStuck s e.id pos && pointDone c l (rolePoint m) && (deltaFor s e l m).isSome && (c.deltas.find (8 * l + m)).isNone

/-- The segments of a delta section (R278). -/
def deltaCost (d : DeltaSec) : Nat := ceilDiv d.count 1024

/-- The order of delta sections: those carried from an earlier tick first, oldest first (R278); then as outlier rows are
served, and by matrix within a layer (log 37). -/
def deltaKey (s : State) (e : Entry) (pos : Nat) (c : PosCtx) (l m : Nat) : List Nat :=
  let arose := ((c.blocks.find? fun b => b.layer == l && b.role == m).map BlockWork.rowEdge).getD s.tick.edges
  [arose] ++ flightKey e ++ [pos, l, m]

/-- Every delta section of a keel that waits, with its key and cost. -/
def waitingDeltas (s : State) (k : Nat) : List (List Nat × Nat) :=
  s.pipe.ctx.flatMap fun c =>
    match s.entry (c.1 / 2097152) with
    | none => []
    | some e =>
      if entryKeel s e = some k && !e.masked then
        match openItem e (c.1 % 2097152) with
        | none => []
        | some i => (List.range 7).filterMap fun m =>
            if deltaWaits s e (c.1 % 2097152) c.2 i.layer m then
              (deltaFor s e i.layer m).map fun d => (deltaKey s e (c.1 % 2097152) c.2 i.layer m, deltaCost d.2)
            else none
      else []

/-- Whether a section that DELTA_BUDGET has room for may be served: none carried from an earlier tick that has room goes before
it (R278). -/
def deltaFirst (s : State) (k : Nat) (key : List Nat) : Bool :=
  (waitingDeltas s k).all fun w =>
    !lexLt w.1 key || decide (opt s oDeltaBudget < (s.keelCtr k).deltaUsed + w.2)

/-- DELTA_SECTION. -/
def deltaSection (id pos l m : Nat) (s : State) : State :=
  match (liveEntry s id).filter fun w => !w.1.masked with
  | none => s
  | some (e, r) =>
    let c := s.ctxAt id pos
    let x := entrySection s e l
    match deltaFor s e l m, pointInput x (entryHidden s e) c l (rolePoint m) with
    | some (b, d), some v =>
      let seg := deltaCost d
      let seed := srSeed (2 + m) l e.handle pos
      if !deltaWaits s e pos c l m || opt s oDeltaBudget < (s.keelCtr r.keel).deltaUsed + seg ||
          !deltaFirst s r.keel (deltaKey s e pos c l m) then s
      else
        let acc := deltaAccum seed v (roleDesc x m).outW (deltaEntries b d)
        let s1 := s.onCtx id pos fun c => { c with deltas := c.deltas.set (8 * l + m) acc }
        onArith (s1.onKeel r.keel fun k => { k with deltaUsed := k.deltaUsed + seg }) id
          (deltaFlags seed v (roleDesc x m).outW (deltaEntries b d))
    | _, _ => s

def execDeltaSection (id pos l m : Nat) (s : State) : Host.Outcome State Fault Refusal :=
  guarded (Instr.wf (.deltaSection id pos l m)) s (deltaSection id pos l m s)

/-! Spot checks (R442–R447). -/

/-- Exact plane terms of a plane (R443): the sum of the weights of the rows whose bit is 1. -/
def exactTerms (fmt : Nat) (rec_ : List Byte) (codes : List Int) (k : Nat) : List Int :=
  (List.range 1024).map fun c =>
    ((List.range 1024).map fun r => if planeBit (codes.getD r 0) k then rowWeight fmt (imageRow rec_ r) c else 0).sum

/-- The differences of a spot check: plane, column, magnitude. -/
def spotDiffs (p : Panel) (t fmt : Nat) (rec_ : List Byte) (codes : List Int) (terms : List (List Int)) :
    List (Nat × Nat × F32) :=
  (List.range 8).flatMap fun k =>
    let ex := exactTerms fmt rec_ codes k
    (List.range 1024).map fun c =>
      (k, c, fabs (fsub (spotTerm ((terms.getD k []).getD c 0) (panelO p c) (panelGc p c) (panelGt p (t % 8)))
        (f32OfI (ex.getD c 0))))

/-- The largest difference, as DETAIL of a SPOT_FAIL record names it (R462). -/
def worstSpot (l : List (Nat × Nat × F32)) : Nat :=
  let w := l.foldl (fun (b : Nat × Nat × F32) x => if b.2.2.toNat < x.2.2.toNat then x else b) (0, 0, 0)
  w.1 * 2 ^ 29 + w.2.1 * 65536 + detailInt 65535 w.2.2

/-- Capacity left after the four allowances (R120, R446), in segments. -/
def extraCapacity (s : State) : Nat :=
  tailCapacity s.tick.period - tailSum (opt s oWideBudget) (opt s oTailBudget) (opt s oDeltaBudget)

/-- The allowance on which a check of a class can run now: fixed (true) or extra (false) (R442, R445, R446). -/
def spotRoom (s : State) (k cls : Nat) : Option Bool :=
  let x := s.keelCtr k
  if cls = 0 && x.spotUsed + 1024 ≤ 2048 then some true
  else if x.extraUsed + 1024 ≤ extraCapacity s then some false
  else none

/-- Charge a spot check. -/
def spotCharge (s : State) (k : Nat) (fixed : Bool) : State :=
  s.onKeel k fun x => if fixed then { x with spotUsed := x.spotUsed + 1024 } else { x with extraUsed := x.extraUsed + 1024 }

/-- A spot check passes: the panel is good from the edge that seals the tick (R444). -/
def spotGood (s : State) (p : Nat) : State :=
  s.onPanel p fun x => { x with good := s.now + 1, goodEdge := s.tick.edges + 1, failed := false, overflow := false,
                                fullRaised := false, spotDue := false }

/-- A spot check fails: mark, capture, record and event (R444). -/
def spotBad (s : State) (keel t : Nat) (handle first : W32) (codes : List Int) (detail : Nat) : State :=
  let p := t / 8
  let s1 := s.onChk fun k => { k with spotFails := satAdd 32 k.spotFails 1 }
  let s2 := capture (markSuspect (s1.onPanel p fun x => { x with failed := true }) t) t codes
  let s3 := faultRecord s2 0x0013 keel false t handle first detail
  event0 s3 0x0011 (toLe 4 p ++ toLe 4 (exposureOf s3 p).length)

/-- The check itself: passed, and the detail of its largest difference. -/
def spotResult (s : State) (t fmt : Nat) (rec_ : List Byte) (codes : List Int) (terms : List (List Int)) : Bool × Nat :=
  let ds := spotDiffs (s.panelAt (t / 8)) t fmt rec_ codes terms
  (ds.all fun d => fle d.2.2 (f32OfI (opt s oSpotTol * formatW fmt : Nat)), worstSpot ds)

/-- The order of spot checks on the capacity of R446: those carried from an earlier tick first, then products under R430 and of
pattern-suspect tiles, then those of SPOT_ALL panels, each in the order in which they completed. A due panel's (R445) goes with
the carried ones (log 101). -/
def spotKey (s : State) (cls edge no : Nat) : List Nat := [if edge < s.tick.edges then 0 else cls, no]

/-- Every check of a keel that waits and can be made (R137, R298, R446): of products at work, and of those whose entry has
gone. -/
def waitingSpots (s : State) (k : Nat) : List (List Nat) :=
  (s.pipe.ctx.flatMap fun c => c.2.blocks.filterMap fun b => match b.st, b.src with
    | .spot cls, some src => if tileKeel b.phys = k && !sourceLost s src then some (spotKey s cls b.edge b.spotNo) else none
    | _, _ => none) ++
  (s.pipe.spots.filter fun h => tileKeel h.phys == k && !sourceLost s h.src).map fun h => spotKey s h.cls h.edge h.no

/-- Whether a check may be made: on the fixed allowance always, otherwise in the order of R446. -/
def spotTurn (s : State) (k : Nat) (fixed : Bool) (key : List Nat) : Bool :=
  fixed || (waitingSpots s k).all fun x => !lexLt x key

/-- The check of a product whose entry has gone (R137, R444). -/
def heldSpot (s : State) (h : HeldSpot) : State :=
  let k := tileKeel h.phys
  match spotRoom s k h.cls with
  | none => s
  | some f =>
    if !spotTurn s k f (spotKey s h.cls h.edge h.no) || sourceLost s h.src then s
    else
      let r := spotResult s h.phys (srcFormat s h.src) (srcRecord s h.src) h.codes h.terms
      let s1 := spotCharge (s.onPipe fun q => { q with spots := q.spots.filter fun x => x.key != h.key }) k f
      let s2 := s1.onChk fun c => { c with spots := satAdd 32 c.spots 1 }
      if r.1 then spotGood s2 (h.phys / 8) else spotBad s2 k h.phys noHandle noHandle h.codes r.2

/-- A failed spot check sends a block of a live entry to wide mode; that of a pattern-suspect tile counts in CHECK_REPLAYS
(R436, R444, R464). -/
def spotToWide (s : State) (w : Blk) : State :=
  let s1 := if (s.tileAt w.b.phys).suspect && !w.entry.masked then s.onChk fun c => { c with replays := satAdd 32 c.replays 1 } else s
  askWide s1 w.key 2

/-- SPOT_CHECK (R137, R443–R446); of a masked entry's product too, which then asks for no wide-mode value. -/
def spotCheck (k : BlockKey) (s : State) : State :=
  match s.pipe.spots.find? fun h => h.key == k with
  | some h => heldSpot s h
  | none =>
    match findBlk s k with
    | none => s
    | some w =>
      match w.b.st with
      | .spot cls =>
        match spotRoom s w.keel cls with
        | none => s
        | some f =>
          if !spotTurn s w.keel f (spotKey s cls w.b.edge w.b.spotNo) || !masterOk s w || tailStuck s w.entry.id w.key.pos then s
          else
            let r := spotResult s w.b.phys (blkFormat w) (blkRecord w) w.b.codes w.b.terms
            let s1 := (spotCharge s w.keel f).onChk fun c => { c with spots := satAdd 32 c.spots 1 }
            if r.1 then onBlock (spotGood s1 (w.b.phys / 8)) k fun b => { b with st := .done }
            else
              spotBad (spotToWide s1 w) w.keel w.b.phys (if w.entry.masked then noHandle else w.entry.handle)
                (if w.entry.masked then noHandle else BitVec.ofNat 32 w.entry.first) w.b.codes r.2
      | _ => s

def execSpotCheck (k : BlockKey) (s : State) : Host.Outcome State Fault Refusal :=
  guarded (Instr.wf (.spotCheck k)) s (spotCheck k s)

/-- SPOT_CHECK_DUE: SPOT_PERIOD − 2 ticks since the panel's last good spot check (R445). -/
def spotCheckDue (p : Nat) (s : State) : State :=
  if panelHolds s p && decide ((s.panelAt p).goodEdge + opt s oSpotPeriod - 2 ≤ s.tick.edges) then
    s.onPanel p fun x => { x with spotDue := true }
  else s

def execSpotCheckDue (p : Nat) (s : State) : Host.Outcome State Fault Refusal :=
  guarded (Instr.wf (.spotCheckDue p)) s (spotCheckDue p s)

/-! Residue checks and reruns (R437, R438). -/

/-- The residue of a value (R437). -/
def residue (x : Int) : Int := x % 15

/-- The residue that a unit predicts for its result from those of its operands. -/
def predicted (t : ResidueTry) : Int :=
  if t.mul then (residue t.x * residue t.y) % 15 else (residue t.x + residue t.y) % 15

/-- Whether the result of an attempt passes its residue check. -/
def tryPasses (t : ResidueTry) : Bool := residue t.result == predicted t

/-- The attempts at a piece of work, up to the first that passes and at most three; each takes a unit that has not failed it. Which
unit becomes free first is the keel's affair (R438; log 130). -/
def failedTries : Nat → List Nat → List ResidueTry → List ResidueTry
  | 0, _, _ => []
  | _, _, [] => []
  | n + 1, used, t :: r =>
    if used.contains t.unit then failedTries (n + 1) used r
    else if tryPasses t then []
    else t :: failedTries n (t.unit :: used) r

/-- The module number of a vector core, or the number that records give a tail unit (R462). -/
def unitNumber (k : Nat) (tail : Bool) (n : Nat) : Nat := if tail then 0x10000 + 32 * k + n % 32 else 1024 * k + n % 1024

/-- RESIDUE_RERUN: each attempt that failed writes a record. After three, the work of the position is carried to the next tick, its
entry slips, and the failing cores are tested next; a tail unit has no field test (R438, R452, R453). -/
def residueRerun (k : Nat) (tail : Bool) (tries : List ResidueTry) (id pos : Nat) (s : State) : State :=
  match s.entry id with
  | none => s
  | some e =>
    let bad := failedTries 3 [] tries
    let s1 := (bad.zipIdx).foldl
      (fun s u => entryRecord s e 0x0014 k (decide (bad.length < 3)) (unitNumber k tail u.1.unit) (u.2 + 1)) s
    let s2 := s1.onChk fun c => { c with residue := satAdd 32 c.residue bad.length }
    if bad.length < 3 then s2
    else
      let s3 := lateEntry s2 id
      if tail then s3.onCtx id pos fun c => { c with stuckTail := some s.tick.edges }
      else
        (s3.onCtx id pos fun c => { c with stuckCore := some s.tick.edges }).onChk fun c =>
          { c with failing := distinct (c.failing ++ bad.map fun t => unitNumber k false t.unit) }

def execResidueRerun (k : Nat) (tail : Bool) (tries : List ResidueTry) (id pos : Nat) (s : State) :
    Host.Outcome State Fault Refusal :=
  guarded (Instr.wf (.residueRerun k tail tries id pos)) s (residueRerun k tail tries id pos s)

/-! The drain (R62–R64, R145). -/

/-- Whether every product and outlier row of a matrix has left its tree. -/
def matrixReady (c : PosCtx) (l role n : Nat) : Bool :=
  let bs := c.blocks.filter fun b => b.layer == l && b.role == role
  bs.length == n && bs.all fun b => b.st == .done && b.rows.isEmpty

/-- D of R145: delta plus outlier root where both exist. -/
def joinD (delta outl : Option F32) : Option F32 := joinNode delta outl

/-- One element of a reduction (R145): `prior` for ACC_MODE ADD. -/
def reduceOne (prior : Option F32) (d : Option F32) (root : F32) : F32 :=
  match prior, d with
  | none, none => root
  | none, some x => fadd x root
  | some a, none => fadd a root
  | some a, some x => fadd (fadd a x) root

/-- The results of its operations (R150). -/
def reduceSteps (prior : Option F32) (delta outl : Option F32) (root : F32) : List F32 :=
  let d := joinD delta outl
  let ad := match prior, d with
    | some a, some x => [fadd a x]
    | _, _ => []
  d.toList ++ ad ++ [reduceOne prior d root]

/-- The parts into which a reduction over `n` row blocks is split across the vector cores of its keel: their sizes, which the
manual leaves open (R147; log 99). -/
def coreParts (n : Nat) : List Nat := if n ≤ 1 then [] else Config.coreSplit n

/-- The leaves of both trees of an output element: the block values, and the outlier terms where a block has some. -/
def matrixLeaves (c : PosCtx) (l role rb i : Nat) : List (Option F32) × List (Option F32) :=
  let bs := (List.range rb).map fun b => c.blocks.find? fun w => w.layer == l && w.role == role && w.tile == i / 1024 * rb + b
  (bs.map fun w => w.map fun w => w.vals.getD (i % 1024) 0,
   bs.map fun w => (w.bind BlockWork.outl).map fun o => o.getD (i % 1024) 0)

/-- The drained vector of a matrix (R145, R147): both trees over row blocks, split into parts whose roots are added over part
index, then D and the accumulator. -/
def reduceMatrix (c : PosCtx) (l role : Nat) (d : MatDesc) (prior : Option (List F32)) (delta : Option (List W16)) :
    List F32 :=
  let rb := max 1 d.rowB
  (List.range d.outW).map fun i =>
    let t := matrixLeaves c l role rb i
    reduceOne (prior.map fun p => p.getD i 0)
      (joinD (delta.map fun a => bf16ToF32 (a.getD i 0)) (splitTree (coreParts rb) t.2))
      ((splitTree (coreParts rb) t.1).getD 0)

/-- The NAN and INF bits that the reduction raises, and what its blocks' values bring (R150). -/
def reduceFlags (c : PosCtx) (l role : Nat) (d : MatDesc) (prior : Option (List F32)) (delta : Option (List W16)) : W16 :=
  let rb := max 1 d.rowB
  let brought := (c.blocks.filter fun b => b.layer == l && b.role == role).foldl (fun f b => f ||| b.flags) 0
  (List.range d.outW).foldl
    (fun f i =>
      let t := matrixLeaves c l role rb i
      f ||| splitFlags (coreParts rb) t.1 ||| splitFlags (coreParts rb) t.2 |||
        flagsOf (reduceSteps (prior.map fun p => p.getD i 0) (delta.map fun a => bf16ToF32 (a.getD i 0))
          (splitTree (coreParts rb) t.2) ((splitTree (coreParts rb) t.1).getD 0))) brought

/-- A vector of heads with the rotary positions applied (R292; log 12). -/
def rotate (base : F32) (dh pos : Nat) (v : List F32) : List F32 :=
  (List.range (v.length / max 1 dh)).flatMap fun h => Config.rope base dh pos ((v.drop (h * dh)).take dh)

/-- DRAIN: the accumulator of a matrix is complete (R62–R64). No field of a stage record or of a matrix descriptor holds
ACC_MODE (R178, R292): the model's choice is ADD for the two residual connections, roles O and DOWN, whose accumulator register
is the residual vector, and OVERWRITE for every other matrix (log 100). -/
def drain (id pos l role : Nat) (s : State) : State :=
  match workEntry s id with
  | none => s
  | some (e, _) =>
    let c := s.ctxAt id pos
    let x := entrySection s e l
    let d := roleDesc x role
    let delta := c.deltas.find (8 * l + role)
    if !openFor e pos l role || (drained c l role).isSome || coreStuck s id pos || !matrixReady c l role (matTiles d) ||
        ((deltaFor s e l role).isSome && delta.isNone) then s
    else
      let add := role == 3 || role == 6
      let prior := if add then some c.hidden else none
      let v := reduceMatrix c l role d prior delta
      let out := if role = 0 || role = 1 then rotate (sRope x) (sDh x) pos v else v
      let s1 := s.onCtx id pos fun c =>
        if add then { c with hidden := out, vecs := c.vecs.set (16 * l + role) [] }
        else if role = 7 then { c with logits := out, vecs := c.vecs.set (16 * l + role) [] }
        else { c with vecs := c.vecs.set (16 * l + role) out }
      advance (onArith s1 id (reduceFlags c l role d prior delta ||| flagsOf out)) id pos

def execDrain (id pos l role : Nat) (s : State) : Host.Outcome State Fault Refusal :=
  guarded (Instr.wf (.drain id pos l role)) s (drain id pos l role s)

/-- STEERING_UPDATE, after a layer's last residual addition (R274). -/
def steeringUpdate (id pos l : Nat) (s : State) : State :=
  match workEntry s id with
  | none => s
  | some (e, _) =>
    let c := s.ctxAt id pos
    match steerFor s e l with
    | none => s
    | some rec_ =>
      if !openFor e pos l 6 || (drained c l 6).isNone || c.steered.contains l || adapterBad s e || coreStuck s id pos then s
      else
        let h := c.hidden.length
        let coef := f16ToF32 (BitVec.ofNat 16 (le rec_ 512 2))
        let v := (s.model e.model).bank.get [] (le rec_ 514 2 % 4096)
        let out := (List.range h).map fun i =>
          let g := f16ToF32 (BitVec.ofNat 16 (le rec_ (2 * (i * 256 / h)) 2))
          fadd (fmul (c.hidden.getD i 0) g) (fmul coef (bf16ToF32 (BitVec.ofNat 16 (le v (2 * i) 2))))
        let steps := (List.range h).flatMap fun i =>
          [fmul (c.hidden.getD i 0) (f16ToF32 (BitVec.ofNat 16 (le rec_ (2 * (i * 256 / h)) 2))),
           fmul coef (bf16ToF32 (BitVec.ofNat 16 (le v (2 * i) 2)))]
        let s1 := s.onCtx id pos fun c => { c with hidden := out, steered := c.steered ++ [l] }
        advance (onArith s1 id (flagsOf steps ||| flagsOf out)) id pos

def execSteeringUpdate (id pos l : Nat) (s : State) : Host.Outcome State Fault Refusal :=
  guarded (Instr.wf (.steeringUpdate id pos l)) s (steeringUpdate id pos l s)

end Sys2Proof.Machine
end

