-- ==== Sys2Proof/Machine/Attn.lean ====
section
/-!
DEFINITION. Attention at work (R202–R213, R231, R566): copies of shared frames, the writing of keys and values, and the
three passes over them.
-/
namespace Sys2Proof.Machine

/-- The page-list runs that an entry's model uses in its session. -/
def entryRuns (s : State) (e : Entry) : Tbl (Nat × Nat) :=
  let x := s.sess e.sess
  if e.kind = .draft then x.druns else x.runs

/-- The page-list entry of a position at a layer: its key, and the slot. -/
def kvPage (s : State) (e : Entry) (r : StageRec) (l pos : Nat) : Nat × Nat :=
  let ppf := layerPpf (s.model e.model) l
  (pageAt (entryRuns s e) (l, r.keel) (pos / ppf), pos % ppf)

/-- The frame key that a page-list entry names. -/
def pageFrame (s : State) (r : StageRec) (key : Nat) : Nat := frameKey r.keel (s.page key).frame

/-- Whether a DRAM line of a frame now fails (R440). -/
def frameBad (s : State) (key : Nat) : Bool :=
  let a := frameAddr key % 274877906944 / 64
  s.chk.badLines.any fun b => b.1 == key / 2097152 && decide (a ≤ b.2) && decide (b.2 < a + 1024)

/-- Whether what a pending copy reads, the page-list entry or the old frame, fails a line (R440). -/
def copyHeld (s : State) (i l idx : Nat) (draft : Bool) : Bool :=
  let x := s.sess i
  let m := s.model (if draft then (draftOf x).getD 0 else modelOf x)
  tableBad s i l || match layerStage m l with
    | none => false
    | some r => frameBad s (frameKey r.keel (s.page (pageAt (if draft then x.druns else x.runs) (l, r.keel) idx)).old)

/-- FRAME_COPY (R231); it waits while a line that it reads fails (R440). -/
def frameCopy (i l idx : Nat) (draft : Bool) (s : State) : State := if copyHeld s i l idx draft then s else doCopy s i draft l idx

def execFrameCopy (i l idx : Nat) (draft : Bool) (s : State) : Host.Outcome State Fault Refusal :=
  guarded (Instr.wf (.frameCopy i l idx draft)) s (frameCopy i l idx draft s)

/-! Writing a position (R202–R205). -/

/-- The sections of a layer's frames: key codes, value codes, key scales, value scales (R202). -/
def layerSections (m : Model) (l : Nat) : List (Nat × Nat) :=
  frameSections (kvFmt m l) (kvShape m l).1 (kvShape m l).2 (layerPpf m l)

/-- Pack the codes of a position into bytes: one a byte, or two nibbles, low first. -/
def packCodes (fmt : Nat) (cs : List Nat) : List Byte :=
  if fmt = 2 then (List.range (cs.length / 2)).map fun i => BitVec.ofNat 8 (cs.getD (2 * i) 0 + 16 * cs.getD (2 * i + 1) 0)
  else cs.map (BitVec.ofNat 8)

/-- The scale of element `i` of a vector: per head (R203), or per 16 elements (R204). -/
def elemScale (fmt dh headroom : Nat) (heads : List F16) (v : List F32) (i : Nat) : F16 :=
  if fmt = 2 then kvScale 2 headroom ((v.drop (i / 16 * 16)).take 16) else heads.getD (i / dh) 0

/-- The head scales of a frame after a position: a head whose scale is unset takes it from the position (R203). -/
def headScales (fmt dh hkv headroom set : Nat) (old : List F16) (v : List F32) : Nat × List F16 :=
  let fresh := fun h =>
    let sc := kvScale fmt headroom ((v.drop (h * dh)).take dh)
    if bitOf set h || sc = 0 then none else some sc
  let l := (List.range 16).map fun h => if h < hkv then (fresh h).getD (old.getD h 0) else old.getD h 0
  (((List.range hkv).foldl (fun b h => if (fresh h).isSome then setBit b h else b) set), l)

/-- Codes of one vector of a position, and their flags. -/
def vectorCodes (fmt dh headroom : Nat) (heads : List F16) (seed : W64) (v : List F32) : List Nat × W16 :=
  let cs := (List.range v.length).map fun i =>
    kvCode fmt (v.getD i 0) (elemScale fmt dh headroom heads v i) (srDraw seed i)
  (cs.map Prod.fst, (cs.map Prod.snd).foldl (· ||| ·) 0)

/-- Write one vector (0 keys, 1 values) into its slot. -/
def writeVector (s : State) (m : Model) (l key slot which : Nat) (fmt : Nat) (codes : List Nat) (groups : List F16) : State :=
  let secs := layerSections m l
  let at_ := fun i => frameAddr key + (secs.getD i (0, 0)).1 + slot * (secs.getD i (0, 0)).2
  s.onKv fun k =>
    let d := k.dram.writeBytes (at_ which) (packCodes fmt codes)
    { k with dram := if fmt = 2 then d.writeBytes (at_ (2 + which)) (groups.flatMap fun g => toLe 2 g.toNat) else d }

/-- KV_WRITE: the position's keys and values enter their slot, in position order within an entry, after any pending copy
(R203–R205, R231, R566; log 38). -/
def kvWrite (id pos l : Nat) (s : State) : State :=
  match workEntry s id with
  | none => s
  | some (e, r) =>
    let c := s.ctxAt id pos
    let m := s.model e.model
    let pg := kvPage s e r l pos
    let page := s.page pg.1
    let earlier := (List.range (pos - e.first)).all fun i => (s.ctxAt id (e.first + i)).kvDone.contains l
    match drained c l 1, drained c l 2 with
    | some ks, some vs =>
      if !openFor e pos l 1 || c.kvDone.contains l || page.copy || !page.valid || !earlier || coreStuck s id pos ||
          tableBad s e.sess l || frameBad s (pageFrame s r pg.1) then s
      else
        let fmt := kvFmt m l
        let hkv := (kvShape m l).1
        let dh := max 1 (kvShape m l).2
        let hr := opt s oKvHeadroom
        let key := pageFrame s r pg.1
        let f := s.frame key
        let kk := if fmt = 2 then (f.kSet, f.ks) else headScales fmt dh hkv hr f.kSet f.ks ks
        let vv := if fmt = 2 then (f.vSet, f.vs) else headScales fmt dh hkv hr f.vSet f.vs vs
        let groups := fun (v : List F32) => (List.range (v.length / 16)).map fun g => elemScale 2 dh hr [] v (16 * g)
        let kc := vectorCodes fmt dh hr kk.2 (srSeed 0 l e.handle pos) ks
        let vc := vectorCodes fmt dh hr vv.2 (srSeed 1 l e.handle pos) vs
        let s1 := s.onFrame key fun f => { f with kSet := kk.1, ks := kk.2, vSet := vv.1, vs := vv.2, written := true }
        let s2 := writeVector s1 m l key pg.2 0 fmt kc.1 (groups ks)
        let s3 := writeVector s2 m l key pg.2 1 fmt vc.1 (groups vs)
        let s4 := s3.onCtx id pos fun c => { c with kvDone := c.kvDone ++ [l] }
        advance (onArith s4 id (kc.2 ||| vc.2)) id pos
    | _, _ => s

def execKvWrite (id pos l : Nat) (s : State) : Host.Outcome State Fault Refusal :=
  guarded (Instr.wf (.kvWrite id pos l)) s (kvWrite id pos l s)

/-! Reading keys and values (R202, R206). -/

/-- One element of a frame: which 0 key, 1 value; `i` its index in the frame, `h` its head, `secs` the sections. -/
def readElem (s : State) (fmt : Nat) (secs : List (Nat × Nat)) (key which h i : Nat) : F32 :=
  let at_ := fun j => frameAddr key + (secs.getD j (0, 0)).1
  if fmt = 2 then
    let b := (s.kv.dram.read (at_ which + i / 2)).toNat
    let c := if i % 2 = 0 then b % 16 else b / 16
    kvValue 2 c (BitVec.ofNat 16 (le (s.kv.dram.readBytes (at_ (2 + which) + 2 * (i / 16)) 2) 0 2))
  else
    kvValue fmt (s.kv.dram.read (at_ which + i)).toNat ((if which = 0 then (s.frame key).ks else (s.frame key).vs).getD h 0)

/-- The decoded vector of a head at a key position. -/
def readHead (s : State) (e : Entry) (r : StageRec) (l j which h : Nat) : List F32 :=
  let m := s.model e.model
  let pg := kvPage s e r l j
  let (hkv, dh) := kvShape m l
  let secs := layerSections m l
  let fmt := kvFmt m l
  (List.range dh).map fun d => readElem s fmt secs (pageFrame s r pg.1) which h ((pg.2 * hkv + h) * dh + d)

/-! Shards (R207–R211). -/

/-- Keys of shard `n` of a position: up to the query position. -/
def shardKeys (len pos n : Nat) : List Nat := ((List.range (pos + 1)).drop (n * len)).take len

/-- How many shards a position has. -/
def shardCount (len pos : Nat) : Nat := ceilDiv (pos + 1) (max 1 len)

/-- A shard of a position-layer. -/
def findShard (c : PosCtx) (l n : Nat) : Option Shard := c.shards.find? fun x => x.layer == l && x.n == n

/-- Put a shard's results. -/
def setShard (c : PosCtx) (x : Shard) : PosCtx :=
  { c with shards := (c.shards.filter fun y => !(y.layer == x.layer && y.n == x.n)) ++ [x] }

/-- Whether the open item of a position is a pass of a shard: the single-shard item holds all three. -/
def passOpen (e : Entry) (pos l : Nat) (k : ItemKind) : Bool :=
  match openItem e pos with
  | none => false
  | some i => i.layer == l && (i.kind == k || i.kind == .layer || i.kind == .attn)

/-- Whether every key of a shard is written and readable: of earlier positions of the entry, by its own writes; of the
session's earlier entries, by R250 (R566); no line of what a shard reads now fails (R440). -/
def keysReady (s : State) (e : Entry) (r : StageRec) (l : Nat) (keys : List Nat) : Bool :=
  !tableBad s e.sess l && keys.all fun j =>
    (decide (j < e.first) || (s.ctxAt e.id j).kvDone.contains l) && !frameBad s (pageFrame s r (kvPage s e r l j).1)

/-- 1 / √dh rounded to FP32. -/
def scoreScale (dh : Nat) : F32 := fdiv 0x3F800000#32 (fsqrt (f32OfI dh))

/-- The NAN and INF bits that several canonical sums raise (R150). -/
def treesFlags (l : List (List F32)) : W16 := l.foldl (fun f t => f ||| sumFlags t) 0

/-- ATTN_PASS_A (R209). -/
def attnPassA (id pos l n : Nat) (s : State) : State :=
  match workEntry s id with
  | none => s
  | some (e, r) =>
    let c := s.ctxAt id pos
    let x := entrySection s e l
    let len := c.lens.get 0 l
    let keys := shardKeys len pos n
    match drained c l 0 with
    | none => s
    | some q =>
      if !passOpen e pos l (.passA n) || keys.isEmpty || (findShard c l n).isSome || coreStuck s id pos || !keysReady s e r l keys then s
      else
        let dh := sDh x
        let group := sHq x / max 1 (sHkv x)
        let dots := (List.range (sHq x)).map fun h =>
          keys.map fun j => List.zipWith fmul ((q.drop (h * dh)).take dh) (readHead s e r l j 0 (h / max 1 group))
        let scores := dots.map fun row => row.map fun d => fmul (treeSum d) (scoreScale dh)
        let maxs := scores.map fun (l : List F32) => l.foldl fmax (l.headD 0)
        let s1 := s.onCtx id pos fun c =>
          setShard c { layer := l, n := n, scores := scores, maxs := maxs, sums := [], parts := [], passA := true,
                       passB := false, passC := false }
        advance (onArith s1 id (treesFlags dots.flatten ||| flagsOf (q ++ scores.flatten))) id pos

def execAttnPassA (id pos l n : Nat) (s : State) : Host.Outcome State Fault Refusal :=
  guarded (Instr.wf (.attnPassA id pos l n)) s (attnPassA id pos l n s)

/-- Every shard of a position-layer in order, if each has completed a pass. -/
def shardsAfter (c : PosCtx) (l count : Nat) (done : Shard → Bool) : Option (List Shard) :=
  let xs := (List.range count).filterMap fun n => findShard c l n
  if xs.length = count && xs.all done then some xs else none

/-- The final maximum of a head: the first largest of the shard maxima, NaN if any of them is (R210). In shard order it is the
largest of all scores taken in key order, whatever the shard length (R212). -/
def finalMax (xs : List Shard) (h : Nat) : F32 :=
  let ms := xs.map fun y => y.maxs.getD h 0
  ms.foldl fmax (ms.headD 0)

/-- ATTN_PASS_B (R210). -/
def attnPassB (id pos l n : Nat) (s : State) : State :=
  match workEntry s id with
  | none => s
  | some (e, _) =>
    let c := s.ctxAt id pos
    match shardsAfter c l (shardCount (c.lens.get 0 l) pos) Shard.passA, findShard c l n with
    | some xs, some x =>
      if !passOpen e pos l (.passB n) || x.passB || coreStuck s id pos then s
      else
        let ds := (List.range x.scores.length).map fun h =>
          let m := finalMax xs h
          (x.scores.getD h []).map fun v => fsub v m
        let ps := ds.map fun row => row.map fexp
        let s1 := s.onCtx id pos fun c => setShard c { x with scores := ps, sums := ps.map treeSum, passB := true }
        advance (onArith s1 id (flagsOf ds.flatten ||| treesFlags ps)) id pos
    | _, _ => s

def execAttnPassB (id pos l n : Nat) (s : State) : Host.Outcome State Fault Refusal :=
  guarded (Instr.wf (.attnPassB id pos l n)) s (attnPassB id pos l n s)

/-- The attention output once every pass-C shard is there: per head and element, the tree of the shard partials (R211). -/
def attnOutput (xs : List Shard) (heads dh : Nat) : List F32 :=
  (List.range (heads * dh)).map fun i =>
    treeSum (xs.map fun x => (x.parts.getD (i / max 1 dh) []).getD (i % max 1 dh) 0)

/-- The NAN and INF bits of the totals, their reciprocals and the weights (R150, R211). -/
def passCFlags (xs : List Shard) (heads : Nat) (ps : List F32) : W16 :=
  (List.range heads).foldl
    (fun f h =>
      let sums := xs.map fun w => w.sums.getD h 0
      f ||| sumFlags sums ||| flagsOf [fdiv 0x3F800000#32 (treeSum sums)]) (flagsOf ps)

/-- ATTN_PASS_C (R211); the last shard gives the attention output and frees the scores (R213). -/
def attnPassC (id pos l n : Nat) (s : State) : State :=
  match workEntry s id with
  | none => s
  | some (e, r) =>
    let c := s.ctxAt id pos
    let x := entrySection s e l
    let count := shardCount (c.lens.get 0 l) pos
    match shardsAfter c l count Shard.passB, findShard c l n with
    | some xs, some y =>
      let keys := shardKeys (c.lens.get 0 l) pos n
      if !passOpen e pos l (.passC n) || y.passC || coreStuck s id pos || !keysReady s e r l keys then s
      else
        let dh := sDh x
        let group := sHq x / max 1 (sHkv x)
        let leaves := (List.range (sHq x)).map fun h =>
          let rr := fdiv 0x3F800000#32 (treeSum (xs.map fun w => w.sums.getD h 0))
          let rows := List.zipWith (fun j p => (readHead s e r l j 1 (h / max 1 group)).map fun v => fmul (fmul p rr) v)
            keys (y.scores.getD h [])
          (List.range dh).map fun d => rows.map fun row => row.getD d 0
        let parts := leaves.map fun row => row.map treeSum
        let s1 := s.onCtx id pos fun c =>
          let c1 := setShard c { y with parts := parts, passC := true }
          match shardsAfter c1 l count Shard.passC with
          | none => c1
          | some all => { c1 with vecs := c1.vecs.set (16 * l + 8) (attnOutput all (sHq x) dh) }
        let s2 := if (drained (s1.ctxAt id pos) l 8).isSome then
            s1.onKv fun k => { k with scores := k.scores.filter fun v => !(v.entry == id && v.pos == pos && v.layer == l) }
          else s1
        advance (onArith s2 id (passCFlags xs (sHq x) (y.scores.flatten) ||| treesFlags leaves.flatten)) id pos
    | _, _ => s

def execAttnPassC (id pos l n : Nat) (s : State) : Host.Outcome State Fault Refusal :=
  guarded (Instr.wf (.attnPassC id pos l n)) s (attnPassC id pos l n s)

end Sys2Proof.Machine
end

