-- ==== Sys2Proof/Machine/Sample.lean ====
section
/-!
DEFINITION. The choice of tokens (R258–R260, R263–R266): the sampling job and the acceptance job of speculative
verification.
-/
namespace Sys2Proof.Machine

/-- What steps 1 to 8 of R259 give: no usable logit, the greedy choice, or the kept tokens with their p in the order of
step 7 and the sum S. -/
inductive Choice where
  | none
  | greedy (tok : Nat)
  | dist (kept : List (Nat × F32)) (sum : F32)
  deriving DecidableEq, Repr

/-- Whether any logit is NaN, or none is finite or +∞ (step 1). -/
def unusable (l : List F32) : Bool :=
  l.any fIsNaN || !(l.any fun x => fIsFin x || x == fInf false)

/-- The largest logit of the lowest identifier (step 3). -/
def greedyChoice (l : List F32) : Nat :=
  ((l.zipIdx).foldl (fun (b : Nat × F32) x => if flt b.2 x.1 then (x.2, x.1) else b) (0, l.headD 0)).1

/-- REP_PENALTY on the tokens of a window (step 2). -/
def penalise (rp : F16) (toks : List Nat) (l : List F32) : List F32 :=
  (distinct toks).foldl
    (fun l t => match l[t]? with
      | none => l
      | some x => setAt l t (if flt 0 x then fdiv x (f16ToF32 rp) else fmul x (f16ToF32 rp))) l

/-- Tokens in descending order of a value, the lower identifier first. -/
def descending (l : List (Nat × F32)) : List (Nat × F32) :=
  sortBy (fun (a b : Nat × F32) => flt b.2 a.2 || (a.2 == b.2 && decide (a.1 < b.1))) l

/-- The sequential sum of step 7. -/
def seqSum (l : List F32) : F32 :=
  match l with
  | [] => 0
  | x :: r => r.foldl fadd x

/-- The shortest prefix whose sequential sum reaches a bound (step 8). -/
def shortest (bound : F32) : F32 → List (Nat × F32) → List (Nat × F32)
  | _, [] => []
  | acc, x :: r =>
    let s := fadd acc x.2
    if fle bound s then [x] else x :: shortest bound s r

/-- Whether TOP_P is on (R258). -/
def topPOn (x : F16) : Bool := decide (0 < x.toNat) && decide (x.toNat < 0x3C00)

/-- Whether TEMPERATURE is a zero (R258). -/
def tempZero (x : F16) : Bool := x.toNat % 0x8000 == 0

/-- Steps 4 to 8. -/
def keepTokens (p : SampleParams) (l : List F32) : Choice :=
  let all := ((l.map fun x => fdiv x (f16ToF32 p.temperature)).zipIdx).map fun x => (x.2, x.1)
  let kept := if p.topK = 0 then all else (descending all).take p.topK
  let m := (kept.map Prod.snd).foldl fmax (fInf true)
  let ps := descending (kept.map fun x => (x.1, fexp (fsub x.2 m)))
  let s := seqSum (ps.map Prod.snd)
  let cut := if topPOn p.topP then shortest (fmul (f16ToF32 p.topP) s) 0 ps else ps
  .dist cut (seqSum (cut.map Prod.snd))

/-- Steps 1 to 8 for logits and the tokens of the penalty window. -/
def choose (p : SampleParams) (window : List Nat) (l : List F32) : Choice :=
  if unusable l then .none
  else
    let pl := penalise p.repPenalty window l
    if tempZero p.temperature || pl.any (· == fInf false) then .greedy (greedyChoice pl) else keepTokens p pl

/-- The NAN and INF bits of steps 2 to 8 (R150, R259): the penalised logits, the divided ones, the exponents and their values, and
the sums. -/
def chooseFlags (p : SampleParams) (window : List Nat) (l : List F32) : W16 :=
  if unusable l then flagsOf l
  else
    let pl := penalise p.repPenalty window l
    if tempZero p.temperature || pl.any (· == fInf false) then flagsOf (l ++ pl)
    else
      let dl := pl.map fun x => fdiv x (f16ToF32 p.temperature)
      let m := dl.foldl fmax (fInf true)
      let xs := dl.map fun x => fsub x m
      let sum := match keepTokens p pl with
        | .dist _ s => [s]
        | _ => []
      flagsOf (l ++ pl ++ dl ++ (xs ++ xs.map fexp) ++ sum)

/-- The draw of output `j` for a position (R260). -/
def draw (seed : W64) (t j : Nat) : F32 := f32OfInt ((smOut (seed ^^^ BitVec.ofNat 64 t) j).toNat / 2 ^ 40 : Nat) (-24) false

/-- The first token at which the running sum exceeds a bound; otherwise the last one (step 9). -/
def pick (bound : F32) : F32 → List (Nat × F32) → Nat
  | _, [] => 0
  | _, [x] => x.1
  | acc, x :: y :: r => if flt bound (fadd acc x.2) then x.1 else pick bound (fadd acc x.2) (y :: r)

/-- Step 9 over a list and its sum, with a draw. -/
def pickFrom (l : List (Nat × F32)) (s u : F32) : Nat := pick (fmul u s) 0 l

/-- The token that a choice gives for a position with an output of the generator. -/
def chosen (p : SampleParams) (t j : Nat) : Choice → Option Nat
  | .none => none
  | .greedy k => some k
  | .dist kept s => some (pickFrom kept s (draw p.seed t j))

/-! Positions and their history (R241, R259). -/

/-- The tokens at the positions of the penalty window of `t`, the position that the choice is for: those sealed, then those
that the command has placed since. -/
def window (s : State) (e : Entry) (t : Nat) : List Nat :=
  let x := s.sess e.sess
  let since := match e.kind, x.run with
    | .draft, some r => x.pend.toList ++ r.drafts
    | _, _ => e.tokens.drop (x.length - e.first)
  let all := x.history ++ since.take (t - x.length)
  all.drop (all.length - e.params.window)

/-- The last position of an entry. -/
def lastPos (e : Entry) : Nat := e.first + e.count - 1

/-- The probability vector of a choice: p normalised by S (R263, R264). -/
def probVector (n : Nat) : Choice → List F32
  | .none => List.replicate n 0
  | .greedy k => setAt (List.replicate n 0) k 0x3F800000#32
  | .dist kept s => kept.foldl (fun l x => setAt l x.1 (fdiv x.2 s)) (List.replicate n 0)

/-- A draft step keeps the probability vector of its choice (R263). -/
def keepProbs (s : State) (e : Entry) (q : List F32) : State :=
  if e.kind = .draft then
    s.onSess e.sess fun x => { x with run := x.run.map fun r => { r with probs := r.probs ++ [q] } }
  else s

/-- A draft step under GREEDY. -/
def greedyDraft (s : State) (e : Entry) : Bool :=
  e.kind == .draft && match (s.sess e.sess).run with
    | some r => !r.rejection
    | none => true

/-- SAMPLING_JOB (R259, R260, R263). -/
def samplingJob (id : Nat) (s : State) : State :=
  match workEntry s id with
  | none => s
  | some (e, _) =>
    let pos := lastPos e
    let l := (s.ctxAt id pos).logits
    if (openItem e pos).map Item.kind != some .sampling || e.kind = .verify || l.isEmpty || coreStuck s id pos then s
    else
      let w := window s e (pos + 1)
      let p := if greedyDraft s e then { e.params with temperature := 0 } else e.params
      let c := choose p w l
      let tok := chosen p (pos + 1) (if e.kind = .draft then 2 else 1) c
      let s1 := (keepProbs s e (probVector l.length c)).onEntry id fun e => { e with token := tok, noLogit := tok.isNone }
      advance (onArith s1 id (chooseFlags p w l)) id pos

def execSamplingJob (id : Nat) (s : State) : Host.Outcome State Fault Refusal :=
  guarded (Instr.wf (.samplingJob id)) s (samplingJob id s)

/-! The acceptance job (R264–R266). -/

/-- p(v) of a choice (R264). -/
def probOf (c : Choice) (v : Nat) : F32 :=
  match c with
  | .none => 0
  | .greedy k => if k = v then 0x3F800000#32 else 0
  | .dist kept s => match kept.find? fun x => x.1 == v with
    | some x => fdiv x.2 s
    | none => 0

/-- q(v) of draft token `d`: the supplied value for `d` and 0 elsewhere, or the draft's own vector (R264). -/
def draftProb (list : Bool) (q : List F32) (d v : Nat) : F32 :=
  if list then (if v = d then q.headD 0 else 0) else q.getD v 0

/-- The token emitted at a rejection (R264): step 9 over max(0, p − q) in the order of step 7, or over p, both as normalised by S. -/
def corrected (p : SampleParams) (t : Nat) (c : Choice) (q : Nat → F32) : Option Nat :=
  match c with
  | .dist kept s =>
    let n := kept.map fun x => (x.1, fdiv x.2 s)
    let r := n.map fun x => (x.1, fmax 0 (fsub x.2 (q x.1)))
    let sum := seqSum (r.map Prod.snd)
    let u := draw p.seed t 1
    some (if sum = 0 then pickFrom n (seqSum (n.map Prod.snd)) u else pickFrom r sum u)
  | _ => chosen p t 1 c

/-- What the acceptance job answers: accepted tokens, and the further token if the logits are usable. -/
structure Verdict where
  accepted : Nat
  token : Option Nat
  /-- the NAN and INF bits of the choices made (R150) -/
  flags : W16
  deriving DecidableEq, Repr

/-- Judge the draft tokens from the `i`-th on; `fuel` is how many are left. -/
def judge (s : State) (e : Entry) (r : Run) : Nat → Nat → Verdict
  | fuel, i =>
    let t := e.first + i + 1
    let p := if r.rejection then e.params else { e.params with temperature := 0 }
    let l := (s.ctxAt e.id (e.first + i)).logits
    let c := choose p (window s e t) l
    let fl := chooseFlags p (window s e t) l
    match fuel with
    | 0 => { accepted := i, token := chosen p t 1 c, flags := fl }
    | n + 1 =>
      let d := r.drafts.getD i 0
      let q := draftProb r.list (r.probs.getD i []) d
      let ok := match c with
        | .none => false
        | _ => if r.rejection then flt (fmul (draw p.seed t 0) (q d)) (probOf c d) else chosen p t 1 c == some d
      if ok then
        let v := judge s e r n (i + 1)
        { v with flags := v.flags ||| fl }
      else { accepted := i, token := if r.rejection then corrected p t c q else chosen p t 1 c, flags := fl }

/-- ACCEPTANCE_JOB (R264). -/
def acceptanceJob (id : Nat) (s : State) : State :=
  match workEntry s id with
  | none => s
  | some (e, _) =>
    let pos := lastPos e
    let ready := (List.range e.count).all fun i => !((s.ctxAt id (e.first + i)).logits.isEmpty)
    match (s.sess e.sess).run with
    | none => s
    | some r =>
      if (openItem e pos).map Item.kind != some .sampling || e.kind != .verify || !ready || coreStuck s id pos then s
      else
        let v := judge s e r r.k 0
        let s1 := s.onEntry id fun e => { e with accepted := v.accepted, token := v.token, noLogit := v.token.isNone }
        advance (onArith s1 id v.flags) id pos

def execAcceptanceJob (id : Nat) (s : State) : Host.Outcome State Fault Refusal :=
  guarded (Instr.wf (.acceptanceJob id)) s (acceptanceJob id s)

end Sys2Proof.Machine
end

