-- ==== Sys2Proof/Machine/Service.lean ====
section
/-!
DEFINITION. Service of the arrays (R76–R86, R98–R114, R172, R303–R309, R430, R452–R455): the service plan of a tick, and
the operations as they run.
-/
namespace Sys2Proof.Machine

/-! The plan (R112–R114, R172). -/

/-- Whether two operations name a common tile. -/
def sameTile (a b : Service) : Bool :=
  match a.tile, b.tile with
  | some x, some y => x == y
  | _, _ => true

/-- Whether two operations cannot share a tick (R112, R113); parts of one operation on a tile can. -/
def conflict (a b : Service) : Bool :=
  a.panel == b.panel &&
    ((a.bank && b.bank) || (sameTile a b && !(a.rank == b.rank && a.tile == b.tile && !a.bank && !b.bank)))

/-- Place an operation where nothing placed before conflicts with it. -/
def placeService (l : List Service) (v : Service) : List Service := if l.any (conflict v) then l else l ++ [v]

/-- Tiles of a list that lie on a sail die. -/
def onDieCount (l : List Nat) (d : Nat) : Nat := l.countP fun t => t / 16384 == d

/-- Tiles under refresh: between their halves (R102). -/
def underRefresh (s : State) : List Nat := (s.arr.tiles.filter fun e => e.2.half.isSome).map Prod.fst

/-- Refreshes that a sail die can begin in a tick at the full rate: 32 lanes of halves of 2.56 µs in the service window, less the
second halves that are due (R102, R104, R170). -/
def refreshRate (s : State) (d : Nat) : Nat :=
  ceilDiv (32 * ((tickNs s - 300) / 2560) - onDieCount (underRefresh s) d) 2

/-- The tiles urgent for refresh that the tick takes, oldest first, at the full rate (R102–R104). -/
def urgentRefreshes (s : State) : List Nat :=
  let l := sortBy (fun (a b : Nat × Tile) => decide (a.2.refreshed < b.2.refreshed))
    (s.arr.tiles.filter fun e => e.2.holds.isSome && e.2.refreshUrgent && !stackStopped s (tileKeel e.1))
  let fresh := fun (acc : List Nat) (d : Nat) => onDieCount (acc.filter fun t => (s.tileAt t).half.isNone) d
  l.foldl
    (fun acc e =>
      if e.2.half.isSome || fresh acc (e.1 / 16384) < refreshRate s (e.1 / 16384) then acc ++ [e.1] else acc) []

/-- Whether a tile's scrub takes rank 2: unverified, with a record against which it can be verified, or urgent (R106, R107,
R298). -/
def scrubFirst (s : State) (x : Tile) : Bool :=
  x.under.isNone && x.units != 15 && x.half.isNone && match x.holds with
    | some src => (x.unverified && !sourceLost s src) || x.scrubUrgent
    | none => false

/-- Whether a tile has rows left to scrub before it is verified (R106). -/
def unscrubbed (s : State) (x : Tile) : Bool :=
  x.unverified && x.units != 15 && match x.holds with
    | some src => !sourceLost s src
    | none => false

/-- Whether a die has unverified tiles to scrub, which go before any other service of the die but urgent refresh (R106). -/
def dieUnscrubbed (s : State) (d : Nat) : Bool := s.arr.tiles.any fun e => e.1 / 16384 == d && unscrubbed s e.2

/-- Whether an urgent rewrite can be made: the tile's record in the master copy may be used (R298). -/
def rewritable (s : State) (x : Tile) : Bool :=
  match x.holds with
  | some src => x.rewriteUrgent && !sourceLost s src
  | none => false

/-- Service placed before packing: ranks 1 to 3, and urgent rewrites (R106, R114, R172). A refresh whose first half has run
finishes first: its second half falls in this tick (R102), and no bank operation shares the tick with it (R113; log 103). -/
def urgentPlan (s : State) : List Service :=
  let run := s.arr.tiles.filter fun e => !stackStopped s (tileKeel e.1)
  let op := fun (rank t : Nat) (bank : Bool) => ({ rank := rank, panel := t / 8, tile := some t, bank := bank, ran := false } : Service)
  let p1 := (urgentRefreshes s).map fun t => op 1 t false
  let p2 := (run.filter fun e => scrubFirst s e.2).foldl (fun l e => placeService l (op 2 e.1 true)) p1
  let p3 := (s.arr.panels.filter fun e => e.2.calUrgent && !dieUnscrubbed s (panelDie e.1) && panelHolds s e.1 && !panelUnder s e.1 &&
      (panelTiles e.1).all (fun t => (s.tileAt t).half.isNone) && !stackStopped s (panelKeel e.1)).foldl
    (fun l e => placeService l { rank := 3, panel := e.1, tile := none, bank := true, ran := false }) p2
  (run.filter fun e => rewritable s e.2 && !dieUnscrubbed s (e.1 / 16384)).foldl (fun l e => placeService l (op 4 e.1 false)) p3

/-- Whether a panel may be recalibrated now: urgent, named by CAL_RUN, just written, or the first of its die's order that can be
recalibrated (R76, R84, R86). -/
def mayRecalibrate (s : State) (p : Nat) : Bool :=
  let x := s.panelAt p
  calReady s p && (x.calUrgent || x.calForced || x.fresh || ((s.dieAt (panelDie p)).order.filter (calReady s)).head? == some p)

/-- Whether a block still has a product, repeat or replay to run on its tile. -/
def BlockSt.runs : BlockSt → Bool
  | .fresh => true
  | .needRepeat => true
  | .needSplit _ => true
  | _ => false

/-- The tiles on which an item has products still to run; panels that run none are left out (R84, R451). -/
def itemTiles (s : State) (e : Entry) (i : Item) : List Nat :=
  let c := s.ctxAt e.id i.pos
  (List.range 8).flatMap fun role =>
    if i.kind.covers role && (drained c i.layer role).isNone then
      (List.range (matTiles (roleDesc (entrySection s e i.layer) role))).filterMap fun k =>
        let left := match c.blocks.find? fun b => b.layer == i.layer && b.role == role && b.tile == k with
          | some b => b.st.runs
          | none => true
        match blockTile s e i.layer role k with
        | none => none
        | some t => if left && !panelForced s (t / 8) then some t else none
    else []

/-- Whether any product admitted in this tick waits for a tile that a test selects (R172). -/
def productNeeds (s : State) (hit : Nat → Bool) : Bool :=
  s.pipe.entries.any fun e =>
    !e.away && !e.masked && e.items.any fun i => i.now && !i.done && (itemTiles s e i).any hit

/-- The tiles that an operation keeps from products: its own, or with the bank every tile of its panel. -/
def Service.holds (v : Service) (t : Nat) : Bool := t / 8 == v.panel && (v.bank || v.tile == some t || v.tile.isNone)

/-- Whether a slot that the stage schedule leaves free takes an operation of ranks 4 to 8, or a piece (R114, R172). -/
def slotFreeFor (s : State) (v : Service) : Bool :=
  !(s.pipe.plan.any (conflict v)) && !(s.pipe.ran.any v.holds) && !productNeeds s v.holds

/-- Mark a planned operation as run, or add one that takes a free slot. -/
def markRan (s : State) (v : Service) : State :=
  s.onPipe fun q =>
    if q.plan.any fun x => x.rank == v.rank && x.panel == v.panel && x.tile == v.tile && x.bank == v.bank then
      { q with plan := q.plan.map fun x =>
          if x.rank == v.rank && x.panel == v.panel && x.tile == v.tile && x.bank == v.bank then { x with ran := true } else x }
    else { q with plan := q.plan ++ [{ v with ran := true }] }

/-- Whether a service operation was placed in this tick; one that takes the converter bank runs once. -/
def placed (s : State) (v : Service) : Bool :=
  s.pipe.plan.any fun x => x.rank == v.rank && x.panel == v.panel && x.tile == v.tile && x.bank == v.bank && !(x.bank && x.ran)

/-- Whether an operation is the scrub of a tile that has to be verified. -/
def unverifiedScrub (s : State) (v : Service) : Bool :=
  v.rank == 7 && match v.tile with
    | some t => unscrubbed s (s.tileAt t)
    | none => false

/-- A tile operation. -/
def tileOp (rank t : Nat) (bank : Bool) : Service := { rank := rank, panel := t / 8, tile := some t, bank := bank, ran := false }
/-- A panel operation. -/
def panelOp (rank p : Nat) : Service := { rank := rank, panel := p, tile := none, bank := true, ran := false }

/-- Whether a write of rank 4 is due on a tile: a row, its check store, or new spare columns (R98, R110, R430). -/
def writeDue (s : State) (t : Nat) : Bool :=
  let x := s.tileAt t
  (!x.rewrites.isEmpty || x.csDue.isSome || x.redWant.isSome) && match x.holds with
    | some src => !sourceLost s src
    | none => false

/-- The operation that a row asks of the keel, if it has one to make now. -/
def rowService (s : State) : Instr → Option Service
  | .refreshHalf t _ => if (s.tileAt t).holds.isSome then some (tileOp 5 t false) else none
  | .scrubUnit t u _ => if (s.tileAt t).holds.isSome && !bitOf (s.tileAt t).units u then some (tileOp 7 t true) else none
  | .recalibration p _ _ => if mayRecalibrate s p then some (panelOp 6 p) else none
  | _ => none

/-- The operations asked for later in the tick that runs: they compete with those asked for now (R112; log 103). -/
def askedLater (s : State) : List Service :=
  (s.pending.takeWhile fun i => match i with
    | .tickEdge _ => false
    | _ => true).filterMap (rowService s)

/-- The operations that are due on a panel, or asked for in this tick, and compete with a command (R112): writes, second halves of
a refresh, a recalibration, and routine refreshes and scrubs. -/
def dueOps (s : State) (p : Nat) : List Service :=
  ((panelTiles p).filter (writeDue s)).map (fun t => tileOp 4 t false) ++
  ((panelTiles p).filter fun t => (s.tileAt t).half.isSome).map (fun t => tileOp 5 t false) ++
  (if mayRecalibrate s p then [panelOp 6 p] else []) ++ askedLater s

/-- Whether an operation of ranks 5 to 8 must leave its slot to one of a higher rank that is due and could take one (R112; log
103). -/
def outranked (s : State) (v : Service) : Bool :=
  decide (v.rank < 9) && (dueOps s v.panel).any fun w => decide (w.rank < v.rank) && conflict v w && slotFreeFor s w

/-- Whether an operation of ranks 4 to 8, or a piece, takes a free slot now: the unverified tiles of a die are scrubbed first
(R106), then the ranks go in order (R112, R114). -/
def freeSlot (s : State) (v : Service) : Bool :=
  (v.rank == 9 || unverifiedScrub s v || !dieUnscrubbed s (panelDie v.panel)) && slotFreeFor s v && !outranked s v

/-- Run an operation in the slot placed for it before packing, under its urgent rank, or otherwise in a free one, before the
service window closes (R173). -/
def serve (s : State) (urgent : Nat) (v : Service) (f : State → State) : State :=
  if stackStopped s (panelKeel v.panel) || keelClosed s (panelKeel v.panel) then s
  else if placed s { v with rank := urgent } then f (markRan s { v with rank := urgent })
  else if freeSlot s v then f (markRan s v)
  else s

/-! Refresh (R100–R104). -/

/-- The effective interval of a sail die, in ns. -/
def refreshInterval (s : State) (d : Nat) : Nat :=
  let ms := [256, 128, 64].getD (s.dieAt d).band 32
  ms * 1000000 / max 1 (s.dieAt d).divisor

/-- REFRESH_HALF (R102): rows 0–511, then rows 512–1,023 in the same tick or the next; the age restarts at the start of the
first half. -/
def refreshHalf (t h : Nat) (s : State) : State :=
  let x := s.tileAt t
  if x.holds.isNone then s
  else
    serve s 1 (tileOp 5 t false) fun s =>
      if h = 0 then
        if x.half.isNone && onDieCount (underRefresh s) (t / 16384) < 32 then
          s.onTile t fun x => { x with half := some s.tick.time, halfEdge := s.tick.edges }
        else s
      else
        match x.half with
        | none => s
        | some n => s.onTile t fun x => { x with half := none, refreshed := n, refreshUrgent := false }

def execRefreshHalf (t h : Nat) (s : State) : Host.Outcome State Fault Refusal :=
  guarded (Instr.wf (.refreshHalf t h)) s (refreshHalf t h s)

/-- Whether a tile of a die is urgent for refresh: its age has reached 7/8 of the effective interval (R103). -/
def refreshDue (s : State) (d : Nat) (x : Tile) : Bool :=
  x.holds.isSome && decide (7 * refreshInterval s d ≤ 8 * (s.tick.time - x.refreshed))

/-- REFRESH_URGENT (R103). -/
def refreshUrgent (t : Nat) (s : State) : State :=
  if refreshDue s (t / 16384) (s.tileAt t) then s.onTile t fun x => { x with refreshUrgent := true } else s

/-- At a tick boundary the effective interval of every tile is computed again, and its urgency with it (R104). -/
def judgeRefresh (s : State) : State :=
  s.onArr fun a => { a with tiles := a.tiles.mapAll fun t x => { x with refreshUrgent := refreshDue s (t / 16384) x } }

/-- Second halves that must fall in the tick that ends: the first fell in the one before it (R102). -/
def endHalves (s : State) : State :=
  s.onArr fun a =>
    { a with tiles := a.tiles.mapAll fun t x =>
        match x.half with
        | none => x
        | some n =>
          if decide (x.halfEdge < s.tick.edges) && !stackStopped s (tileKeel t) then
            { x with half := none, refreshed := n, refreshUrgent := false }
          else x }

def execRefreshUrgent (t : Nat) (s : State) : Host.Outcome State Fault Refusal :=
  guarded (Instr.wf (.refreshUrgent t)) s (refreshUrgent t s)

/-! Recalibration (R76–R86). -/

/-- CAL_INTERVAL: a panel's turn joins the end of its die's order (R76). -/
def calInterval (p : Nat) (s : State) : State :=
  if panelHolds s p && decide ((s.panelAt p).lastAttempt + opt s oCalInterval ≤ s.tick.edges) && !(s.panelAt p).calDue then
    (s.onPanel p fun x => { x with calDue := true }).onDie (panelDie p) fun d =>
      { d with order := if d.order.contains p then d.order else d.order ++ [p] }
  else s

def execCalInterval (p : Nat) (s : State) : Host.Outcome State Fault Refusal :=
  guarded (Instr.wf (.calInterval p)) s (calInterval p s)

/-- RECAL_URGENT: 2 × CAL_INTERVAL ticks without an attempt (R76, R85). -/
def recalUrgent (p : Nat) (s : State) : State :=
  if panelHolds s p && decide ((s.panelAt p).lastAttempt + 2 * opt s oCalInterval ≤ s.tick.edges) then
    s.onPanel p fun x => { x with calUrgent := true }
  else s

def execRecalUrgent (p : Nat) (s : State) : Host.Outcome State Fault Refusal :=
  guarded (Instr.wf (.recalUrgent p)) s (recalUrgent p s)

/-- The next written tile after the one measured last (R78). -/
def measuredTile (s : State) (p : Nat) : Nat :=
  let m := (s.panelAt p).measured
  (((List.range 8).map fun i => (m + 1 + i) % 8).find? fun i => tileHolds s (8 * p + i)).getD 0

/-- nq of every physical weight column: its calibration counts over the four quarters (R77, R79). -/
def calCounts (s : State) (t : Nat) : List Nat :=
  (List.range 2048).map fun c => ((s.tileAt t).counts.map fun q => q.getD c 0).sum

/-- What the keel forms of the codes of one pass (R79): zero-plane sum and quarter-plane sum of each physical weight column, and
per tile the sums over the all-rows cycles of ladder code minus zero offset and of the zero-column codes less their pedestal. -/
structure PassSums where
  sum0 : List Nat
  sumq : List Nat
  ladder : List Int
  zero : List Int
  deriving DecidableEq, Repr

/-- The sum of a column's codes over cycles in each of which `n` of its gated cells store 1 and `ped` unit charges are added. -/
def cycleSum (n ped c : Nat) (cycles : List (List Int)) : Nat :=
  (cycles.map fun d => (convCode (chargeOf (n + ped) (d.getD c 0))).1).sum

/-- The cycles of a list from `i`, `n` of them; one that is not listed differs by nothing. -/
def cyclesAt (l : List (List Int)) (i n : Nat) : List (List Int) := (List.range n).map fun j => l.getD (i + j) []

/-- The codes of a tile's reference columns in its all-rows cycles (R70, R71, R78): per cycle and converter the ladder code
and the zero offset, the zero code less its pedestal. -/
def refCodes (cycles : List (List Int)) : List (Int × Int) :=
  (cyclesAt cycles 0 8).flatMap fun d => (List.range 16).map fun j =>
    ((convCode (chargeOf (16 * (2 * j + 1)) (d.getD (2 * j) 0))).1,
     ((convCode (chargeOf (pedestal (2049 + 2 * j)) (d.getD (2 * j + 1) 0))).1 : Int) - 8)

/-- The same conversions one by one, for the checks of R75 (log 129): ladder columns, and zero columns. -/
def refConvs (cycles : List (List Int)) : List RefConv × List RefConv :=
  let all := (cyclesAt cycles 0 8).flatMap fun d => (List.range 16).map fun j =>
    (j, convCode (chargeOf (16 * (2 * j + 1)) (d.getD (2 * j) 0)),
        convCode (chargeOf (pedestal (2049 + 2 * j)) (d.getD (2 * j + 1) 0)))
  (all.map fun x => { col := 2048 + 2 * x.1, code := x.2.1.1, ovr := x.2.1.2, expect := 16 * (2 * x.1 + 1), zeroOff := 0 },
   all.map fun x => { col := 2049 + 2 * x.1, code := (x.2.2.1 : Int) - 8, ovr := x.2.2.2, expect := 0, zeroOff := 0 })

/-- The reference faults of one pass, on the tiles that hold weights (R75, R78). -/
def passFaults (s : State) (p : Nat) (held : List Nat) (a : CalPass) : State :=
  held.foldl (fun s t => let c := refConvs (a.allRows.getD t []); refFaults s (panelKeel p) (8 * p + t) c.1 c.2) s

/-- One pass (R78, R79): 8 zero-plane cycles with a pedestal of 8 on every column, 8 cycles per quarter of the measured tile's
rows, whose gated 1-cells are its calibration counts, and 8 all-rows cycles of every tile. -/
def passSums (counts : List (List Nat)) (p : CalPass) : PassSums where
  sum0 := (List.range 2048).map fun c => cycleSum 0 8 c (cyclesAt p.zeroPlane 0 8)
  sumq := (List.range 2048).map fun c =>
    ((List.range 4).map fun q => cycleSum ((counts.getD q []).getD c 0) 0 c (cyclesAt p.quarters (8 * q) 8)).sum
  ladder := (List.range 8).map fun t => ((refCodes (p.allRows.getD t [])).map fun x => x.1 - x.2).sum
  zero := (List.range 8).map fun t => ((refCodes (p.allRows.getD t [])).map Prod.snd).sum

/-- The calibration counts that a write stores (R42, R77): per quarter, the 1-cells of each physical weight column. -/
def quarterCounts (fmt : Nat) (rec_ : List Byte) : List (List Nat) :=
  (List.range 4).map fun q =>
    ((List.range 256).map fun i => imageRow rec_ (4 * i + q)).foldl
      (fun n row => n.zipIdx.map fun x => x.1 + storedBit fmt row x.2) (List.replicate 2048 0)

/-- G of a column in a pass: 8 × nq × g (R79). -/
def passGain (p : PassSums) (c : Nat) : Int := (p.sumq.getD c 0 : Int) - 4 * (p.sum0.getD c 0) + 256

/-- The differences of two passes, in 1/128 of 1/256 LSB: quantity, index, magnitude (R80). -/
def calDiffs (a b : PassSums) (nq : List Nat) (held : List Nat) : List (Nat × Nat × Nat) :=
  ((List.range 2048).map fun c => (0, c, 4096 * ((a.sum0.getD c 0 : Int) - b.sum0.getD c 0).natAbs)) ++
  (((List.range 2048).filter fun c => decide (64 ≤ nq.getD c 0)).map fun c => (1, c, 1024 * (passGain a c - passGain b c).natAbs)) ++
  held.map fun t => (2, t, 511 * (a.ladder.getD t 0 - b.ladder.getD t 0).natAbs)

/-- Whether two passes agree (R80), in exact arithmetic; `lim` is CAL_AGREE in 1/16 LSB. -/
def passesAgree (lim : Nat) (a b : PassSums) (nq : List Nat) (held : List Nat) : Bool :=
  let d := (List.range 2048).map fun c => ((a.sum0.getD c 0 : Int) - b.sum0.getD c 0).natAbs
  let g := ((List.range 2048).filter fun c => decide (64 ≤ nq.getD c 0)).map fun c => (passGain a c - passGain b c).natAbs
  decide ((d.map fun x => x * x).sum ≤ 512 * lim * lim) &&
  decide ((g.map fun x => x * x).sum ≤ 4 * lim * lim * g.length) &&
  d.all (fun x => decide (x ≤ 4 * lim)) && g.all (fun x => decide (x ≤ 16 * lim)) &&
  held.all fun t => decide (511 * (a.ladder.getD t 0 - b.ladder.getD t 0).natAbs ≤ 2048 * lim)

/-- A quotient rounded to FP16; a zero denominator leaves a free value (log 29). -/
def quotF16 (n : Nat) (num den : Int) : F16 :=
  if den = 0 then (Config.freeWord n).setWidth 16
  else f16OfRat (decide (num < 0) != decide (den < 0)) num.natAbs den.natAbs

/-- Offset weights f1 and f0 of a format (R81). -/
def offsetWeights (fmt : Nat) : Int × Int := if fmt = 0 then (4, 2) else if fmt = 1 then (1, -1) else (2, 0)

/-- o and gc of a logical column from two agreed passes (R81). -/
def newColumn (fmt n : Nat) (a b : PassSums) (nq : List Nat) (c : Nat) : F16 × F16 :=
  let f := offsetWeights fmt
  let sm := fun (i : Nat) => (a.sum0.getD i 0 : Int) + b.sum0.getD i 0 - 128
  let h := fun (i : Nat) => passGain a i + passGain b i
  let n1 : Int := nq.getD (2 * c) 0
  let n0 : Int := nq.getD (2 * c + 1) 0
  let o := quotF16 n (-(f.1 * sm (2 * c) + f.2 * sm (2 * c + 1))) 16
  let gc := if fmt = 2 then quotF16 (n + c) (16 * n1) (h (2 * c))
    else quotF16 (n + c) (16 * (f.1.natAbs + f.2.natAbs) * n1 * n0) (f.1.natAbs * h (2 * c) * n0 + f.2.natAbs * h (2 * c + 1) * n1)
  (o, gc)

/-- Whether both gains that a column needs were measured. -/
def columnMeasured (fmt : Nat) (nq : List Nat) (c : Nat) : Bool :=
  decide (64 ≤ nq.getD (2 * c) 0) && (fmt == 2 || decide (64 ≤ nq.getD (2 * c + 1) 0))

/-- The new corrections of an agreed recalibration, for the seal that ends the tick (R81). -/
def newCorrections (s : State) (p m fmt : Nat) (a b : PassSums) (nq held : List Nat) : EdgeAct :=
  let x := s.panelAt p
  let cols := (List.range 1024).map fun c =>
    if columnMeasured fmt nq c then newColumn fmt s.free a b nq c else (panelO x c, panelGc x c)
  let lad := fun t => a.ladder.getD t 0 + b.ladder.getD t 0
  .corrections p (cols.map Prod.fst) (cols.map Prod.snd)
    ((List.range 8).map fun t => if held.contains t then quotF16 (s.free + 1024 + t) (lad m) (lad t) else 0x3C00#16)
    (held.map fun t => (8 * p + t, lad t, a.zero.getD t 0 + b.zero.getD t 0)) false

/-- What every attempt does (R76, R85, R86). -/
def calAttempt (s : State) (p m : Nat) : State :=
  (s.onPanel p fun x => { x with lastAttempt := s.tick.edges, measured := m, calForced := false, calDue := false,
                                 calUrgent := false }).onDie (panelDie p) fun d =>
    { d with order := d.order.filter fun x => !(x == p) }

/-- A recalibration that fails to calibrate uses up one of the tries that follow a write (R84). -/
def usedTry (s : State) (p : Nat) : State :=
  s.onPanel p fun x =>
    { x with tries := x.tries + 1, fresh := x.fresh && decide (x.tries + 1 < opt s oCalDisagreeLimit) }

/-- The passes disagree (R83). DISAGREE_RUN has 8 bits and no stated overflow; that it stays at 255, so that with a limit of 255
the event comes again, is the model's choice (log 104). -/
def calDisagree (s : State) (p : Nat) (diffs : List (Nat × Nat × Nat)) : State :=
  let w := diffs.foldl (fun (b : Nat × Nat × Nat) d => if b.2.2 < d.2.2 then d else b) (0, 0, 0)
  let run := satAdd 8 (s.panelAt p).disRun 1
  let s1 := s.onPanel p fun x => { x with disRun := run, disTot := satAdd 16 x.disTot 1 }
  let s2 := faultRec s1 0x0002 (panelKeel p) p (w.1 * 2 ^ 30 + min (w.2.2 / 128) 262143 * 4096 + w.2.1)
  if run = opt s oCalDisagreeLimit then event0 s2 0x0002 (toLe 4 p ++ toLe 1 run) else s2

/-- The format of the tile that a recalibration measures. -/
def measuredFormat (s : State) (t : Nat) : Nat :=
  match (s.tileAt t).holds with
  | some src => srcFormat s src
  | none => 0

/-- RECALIBRATION (R78–R84). The corrections of an agreed one, and with them the end of the tries that follow a write, come at
the seal. -/
def recalibration (p : Nat) (a b : CalPass) (s : State) : State :=
  if !mayRecalibrate s p then s
  else
    serve s 3 (panelOp 6 p) fun s =>
      let m := measuredTile s p
      let nq := calCounts s (8 * p + m)
      let held := (List.range 8).filter fun i => tileHolds s (8 * p + i)
      let pa := passSums (s.tileAt (8 * p + m)).counts a
      let pb := passSums (s.tileAt (8 * p + m)).counts b
      let s1 := passFaults (passFaults (calAttempt s p m) p held a) p held b
      if passesAgree (opt s oCalAgree) pa pb nq held then
        let act := newCorrections s p m (measuredFormat s (8 * p + m)) pa pb nq held
        calRunNote (atEdge { s1 with free := s1.free + 1032 } [act]) p 1 0 0
      else calRunNote (calDisagree (usedTry s1 p) p (calDiffs pa pb nq held)) p 0 1 0

def execRecalibration (p : Nat) (a b : CalPass) (s : State) : Host.Outcome State Fault Refusal :=
  guarded (Instr.wf (.recalibration p a b)) s (recalibration p a b s)

/-! Scrub (R106–R111). -/

/-- SCRUB_URGENT: the last complete scrub and the last write are both older than 7/8 of SCRUB_PERIOD (R107). -/
def scrubUrgent (t : Nat) (s : State) : State :=
  let x := s.tileAt t
  if x.holds.isSome && decide (7 * opt s oScrubPeriod < 8 * (s.tick.edges - max x.lastScrub x.lastWrite)) then
    s.onTile t fun x => { x with scrubUrgent := true }
  else s

def execScrubUrgent (t : Nat) (s : State) : Host.Outcome State Fault Refusal :=
  guarded (Instr.wf (.scrubUrgent t)) s (scrubUrgent t s)

/-- SCRUB_LATE, once until the tile's next complete scrub (R111). -/
def scrubLate (t : Nat) (s : State) : State :=
  let x := s.tileAt t
  if x.holds.isSome && !x.late && decide (opt s oScrubPeriod < s.tick.edges - max x.lastScrub x.lastWrite) then
    event0 (s.onTile t fun x => { x with late := true }) 0x0003 (toLe 4 t)
  else s

def execScrubLate (t : Nat) (s : State) : Host.Outcome State Fault Refusal :=
  guarded (Instr.wf (.scrubLate t)) s (scrubLate t s)

/-- What a scrub reads of a physical column: a zero column loses its pedestal (R71, R108). -/
def scrubCode (codes : List Nat) (p : Nat) : Nat :=
  let c := codes.getD p 0
  if decide (2048 ≤ p) && decide (p < 2080) && p % 2 = 1 then c - 8 else c

/-- The physical column that gives weight column `p` with the tile's substitutions (R95, R109). -/
def scrubColumn (red : List Nat) (p : Nat) : Nat :=
  match (List.range 16).find? fun i => redValid (red.getD i 0) && redColumn (red.getD i 0) == p with
  | some i => 2080 + i
  | none => p

/-- One row of a scrub: whether any physical column is an anomaly, and the differing bits, weights and reference columns together
(R108–R110). That an anomaly of a weight column counts among them is the model's choice (log 105). Without a record that may be
used only the reference columns are compared (R298; log 128). -/
def scrubRow (red : List Nat) (rec_ : Option (List Byte)) (r : Nat) (codes : List Nat) : Bool × Nat :=
  let weight := (List.range 2048).map fun p => scrubCode codes (scrubColumn red p)
  let refs := (List.range 32).map fun j => scrubCode codes (2048 + j)
  let dw := match rec_ with
    | none => 0
    | some b => (weight.zipIdx).countP fun x => x.1 % 2 != b2n (rowBit (imageRow b r) x.2) || decide (2 ≤ x.1)
  let dr := (refs.zipIdx).countP fun x => x.1 != refPattern (2048 + x.2) r
  ((List.range 2096).any fun p => decide (2 ≤ scrubCode codes p), dw + dr)

/-- The 256 bytes that a scrub reads, with an anomaly's column as its low bit. -/
def scrubBytes (red codes : List Nat) : List Byte :=
  (List.range 256).map fun i =>
    BitVec.ofNat 8 ((List.range 8).map fun j => scrubCode codes (scrubColumn red (8 * i + j)) % 2 * 2 ^ j).sum

/-- Whether a row is mismatched: an anomaly, its CRC, or its reference columns (R108, R109). -/
def rowMismatch (red : List Nat) (rec_ : Option (List Byte)) (r : Nat) (codes : List Nat) : Bool :=
  (scrubRow red rec_ r codes).1 || rec_.any (fun b => le b (262144 + 4 * r) 4 != crc32c (scrubBytes red codes)) ||
  (List.range 32).any fun j => scrubCode codes (2048 + j) != refPattern (2048 + j) r

/-- A mismatched row: it is to be rewritten, counted and recorded (R110, R116). -/
def noteRow (t : Nat) (rec_ : Option (List Byte)) (s : State) (x : Nat × List Nat) : State :=
  let tile := s.tileAt t
  let r := x.1
  let d := scrubRow tile.red rec_ r x.2
  let persistent := tile.lastBad.contains r
  let s1 := s.onTile t fun y =>
    { y with rewrites := if y.rewrites.any fun w => w.1 == r then y.rewrites else y.rewrites ++ [(r, s.tick.edges)] }
  let s2 := s1.onWin (tileKeel t) fun w =>
    { w with scrubRows := satAdd 32 w.scrubRows 1, scrubBits := satAdd 32 w.scrubBits d.2 }
  faultRec s2 0x0003 (tileKeel t) t (b2n persistent * 2 ^ 31 + b2n d.1 * 2 ^ 30 + d.2 * 1024 + r)

/-- The end of a complete scrub, when all four units have run (R106, R107, R111); one without a record verifies nothing. -/
def scrubDone (s : State) (t : Nat) (lost : Bool) : State :=
  if (s.tileAt t).units = 15 then
    s.onTile t fun x =>
      { x with units := if x.rewrites.isEmpty || !x.unverified || lost then 0 else 15, lastScrub := s.tick.edges,
               scrubUrgent := false, late := false, unverified := x.unverified && (lost || !x.rewrites.isEmpty) }
  else s

/-- SCRUB_UNIT: rows 256u to 256u + 255 of a tile (R107–R110). The rows that mismatch are kept until the next pass over them. A
tile whose record is MASTER_LOST is scrubbed without it, so that R111 holds (log 128). -/
def scrubUnit (t u : Nat) (codes : List (List Nat)) (s : State) : State :=
  match (s.tileAt t).holds with
  | none => s
  | some src =>
    if bitOf (s.tileAt t).units u then s
    else
      serve s 2 (tileOp 7 t true) fun s =>
        let rec_ := if sourceLost s src then none else some (srcRecord s src)
        let red := (s.tileAt t).red
        let rows := (List.range 256).map fun i => (256 * u + i, codes.getD i [])
        let bad := rows.filter fun x => rowMismatch red rec_ x.1 x.2
        scrubDone ((bad.foldl (noteRow t rec_) s).onTile t fun x =>
          { x with units := setBit x.units u,
                   lastBad := (x.lastBad.filter fun r => r / 256 != u) ++ bad.map Prod.fst }) t rec_.isNone

def execScrubUnit (t u : Nat) (codes : List (List Nat)) (s : State) : Host.Outcome State Fault Refusal :=
  guarded (Instr.wf (.scrubUnit t u codes)) s (scrubUnit t u codes s)

/-! Rewrites and substitutions (R98, R110, R114, R430). -/

/-- The edge at which a tile's oldest rewrite came due. -/
def oldestRewrite (x : Tile) : Option Nat :=
  match x.rewrites.map Prod.snd ++ x.csDue.toList with
  | [] => none
  | e :: r => some (r.foldl min e)

/-- REWRITE_URGENT: 15 ticks without a free slot (R114). -/
def rewriteUrgent (t : Nat) (s : State) : State :=
  match oldestRewrite (s.tileAt t) with
  | none => s
  | some e => if e + 15 ≤ s.tick.edges then s.onTile t fun x => { x with rewriteUrgent := true } else s

def execRewriteUrgent (t : Nat) (s : State) : Host.Outcome State Fault Refusal :=
  guarded (Instr.wf (.rewriteUrgent t)) s (rewriteUrgent t s)

/-- A rewrite ends: the tile stays urgent while an older one remains. -/
def rewriteLeft (s : State) (x : Tile) : Tile :=
  { x with rewriteUrgent := match oldestRewrite x with
      | none => false
      | some e => x.rewriteUrgent && decide (e + 15 ≤ s.tick.edges),
           units := if x.unverified && x.units == 15 && x.rewrites.isEmpty then 0 else x.units,
           unverified := x.unverified && !(x.units == 15 && x.rewrites.isEmpty) }

/-- ROW_REWRITE: a mismatched row is written from the master copy and read back (R106, R110). R110 says nothing of one that reads
back wrong: in the model it stays due and is written again, with no further record (log 125). -/
def rowRewrite (t r : Nat) (good : Bool) (s : State) : State :=
  match (s.tileAt t).holds with
  | none => s
  | some src =>
    if !((s.tileAt t).rewrites.any fun w => w.1 == r) || sourceLost s src then s
    else
      serve s 4 (tileOp 4 t false) fun s =>
        if good then
          s.onTile t fun x => rewriteLeft s { x with rewrites := x.rewrites.filter fun w => !(w.1 == r) }
        else s

def execRowRewrite (t r : Nat) (good : Bool) (s : State) : Host.Outcome State Fault Refusal :=
  guarded (Instr.wf (.rowRewrite t r good)) s (rowRewrite t r good s)

/-- SUBSTITUTION_WRITE: the spare columns are written, and the map takes effect at the seal that ends the tick (R98). -/
def substitutionWrite (t : Nat) (s : State) : State :=
  match (s.tileAt t).holds, (s.tileAt t).redWant with
  | some src, some es =>
    if sourceLost s src then s
    else
      serve s 4 (tileOp 4 t false) fun s => (atEdge s [.substitution t es]).onTile t fun x => { x with redWant := none }
  | _, _ => s

def execSubstitutionWrite (t : Nat) (s : State) : Host.Outcome State Fault Refusal :=
  guarded (Instr.wf (.substitutionWrite t)) s (substitutionWrite t s)

/-- CHECK_STORE_REWRITE (R430). -/
def checkStoreRewrite (t : Nat) (s : State) : State :=
  match (s.tileAt t).holds, (s.tileAt t).csDue with
  | some src, some _ =>
    if sourceLost s src then s
    else
      serve s 4 (tileOp 4 t false) fun s =>
        s.onTile t fun x => rewriteLeft s { x with csBad := [], csRecord := false, csDue := none }
  | _, _ => s

def execCheckStoreRewrite (t : Nat) (s : State) : Host.Outcome State Fault Refusal :=
  guarded (Instr.wf (.checkStoreRewrite t)) s (checkStoreRewrite t s)

/-! The reel engine (R303–R305). -/

/-- The rows of the next piece: 16 rows not yet written, then up to 16 that failed. -/
def pieceRows (x : Tile) : List Nat :=
  if x.rows < 1024 then (List.range 16).map fun i => x.rows + i else ((x.rowFails.map Prod.fst).take 16)

/-- Tiles of a sail die whose write has begun. -/
def tilesWriting (s : State) (d : Nat) : Nat :=
  s.arr.tiles.countP fun e => e.1 / 16384 == d && e.2.under.isSome && decide (0 < e.2.rows)

/-- A row of a piece and its verify: a third failure marks the tile WRITE_FAIL (R304). -/
def writeRow (t : Nat) (s : State) (w : Nat × Bool) : State :=
  let x := s.tileAt t
  if w.2 then s.onTile t fun x => { x with rowFails := x.rowFails.del w.1 }
  else
    let n := x.rowFails.get 0 w.1 + 1
    if x.fail then s
    else if n < 3 then s.onTile t fun x => { x with rowFails := x.rowFails.set w.1 n }
    else failWrite s t w.1

/-- Pieces that a tile takes in a tick of a length: 864 ns each, in the service window (R165, R303). -/
def pieceLimit (ns : Nat) : Nat := (ns - 300) / 864

/-- Pieces that a tile has taken in this tick. -/
def piecesNow (s : State) (x : Tile) : Nat := if x.pieceEdge = s.tick.edges then x.pieces else 0

/-- The reel engine's share of a keel's DRAM bytes in this tick, in 1/64 (R306, R568). -/
def reelShare (s : State) (k : Nat) : Nat :=
  if s.pipe.entries.any fun e => entryKeel s e == some k then opt s oReelShare else 60

/-- A share of a keel's DRAM bytes in one tick, at 6.0 TB/s (R182, R306). -/
def shareBytes (share period : Nat) : Nat := share * period * 1500000 / 64

/-- Master-copy bytes of a number of rows: a tile record holds 264 for each (R294). -/
def rowBytes (rows : Nat) : Nat := 264 * rows

/-- Whether a tile may take its next piece in this tick: REEL_TILES, the piece count, and the reel engine's bytes (R303, R306,
R568). -/
def pieceFits (s : State) (t : Nat) : Bool :=
  let x := s.tileAt t
  let k := tileKeel t
  (x.rows != 0 || decide (tilesWriting s (t / 16384) < opt s oReelTiles)) &&
  decide (piecesNow s x < pieceLimit (tickNs s)) &&
  decide ((s.keelCtr k).reelUsed + rowBytes (pieceRows x).length ≤ shareBytes (reelShare s k) s.tick.period)

/-- W of R307: the ticks of a write with `tiles` tiles on one sail die and `bytes` of tile records on a keel, at a constant
share. -/
def writeTicks (period reelTiles share tiles bytes : Nat) : Nat :=
  let k := pieceLimit (250 * period)
  max (max (ceilDiv 64 k) (ceilDiv (tiles * 1024) (16 * k * reelTiles))) (ceilDiv bytes (shareBytes share period)) + 1

/-- WRITE_PIECE (R303–R306, R568). A record that has become MASTER_LOST is not written on (R298, R308). -/
def writePiece (t : Nat) (ok : List Bool) (s : State) : State :=
  let x := s.tileAt t
  match x.under with
  | none => s
  | some src =>
    if sourceLost s src then settleWrites (failWrite s t 0)
    else if !pieceFits s t then s
    else
      serve s 9 (tileOp 9 t false) fun s =>
        let rows := pieceRows x
        let s1 := (s.onTile t fun x =>
          { x with holds := none, testImage := false, rows := if x.rows < 1024 then x.rows + 16 else x.rows,
                   pieces := piecesNow s x + 1, pieceEdge := s.tick.edges }).onKeel (tileKeel t) fun c =>
            { c with reelUsed := c.reelUsed + rowBytes rows.length }
        settleWrites ((rows.zipIdx.map fun r => (r.1, ok.getD r.2 false)).foldl (writeRow t) s1)

def execWritePiece (t : Nat) (ok : List Bool) (s : State) : Host.Outcome State Fault Refusal :=
  guarded (Instr.wf (.writePiece t ok)) s (writePiece t ok s)

/-- TILE_WRITE_DONE: the tile holds its weights and is refreshed; its panel is uncalibrated and its exposure begins (R84,
R95, R101, R305, R447). -/
def tileWriteDone (t : Nat) (s : State) : State :=
  let x := s.tileAt t
  match x.under with
  | none => s
  | some src =>
    if x.rows < 1024 || !x.rowFails.isEmpty then s
    else
      let s1 := s.onTile t fun x =>
        { x with holds := some src, under := none, rows := 0, rowFails := [],
                 refreshed := s.tick.time, half := none, refreshUrgent := false, unverified := false, units := 0,
                 lastWrite := s.tick.edges, scrubUrgent := false, rewrites := [], rewriteUrgent := false, lastBad := [],
                 csBad := [], csRecord := false, csDue := none, red := x.redWant.getD x.red, redWant := none,
                 scaleBad := false, counts := quarterCounts (srcFormat s src) (srcRecord s src) }
      s1.onPanel (t / 8) fun p =>
        { p with cal := false, o := [], gc := [], gt := [], fresh := true, tries := 0,
                 corrBad := false, good := s.now + 1, goodEdge := s.tick.edges + 1, failed := false,
                 overflow := false, fullRaised := false, spotDue := false }

def execTileWriteDone (t : Nat) (s : State) : Host.Outcome State Fault Refusal :=
  guarded (Instr.wf (.tileWriteDone t)) s (tileWriteDone t s)

/-! Field tests (R452–R455). -/

/-- The panel that a keel tests next: weight-holding panels in ascending order, in turn. -/
def nextTestPanel (s : State) (k : Nat) : Option Nat :=
  let ps := (holdingPanels s).filter fun p => panelKeel p == k
  let n := s.chk.testNext.get 0 k
  (ps.find? fun p => decide (n ≤ p)) <|> ps.head?

/-- Whether a command asks for the test of a panel, or of a core. -/
def asked (s : State) (f : Job → Bool) : Bool := s.spools.any fun e => e.2.out.any fun o => f o.job

/-- Cores of a keel that wait for a test after failed reruns (R438). -/
def failingCores (s : State) (k : Nat) : List Nat := s.chk.failing.filter fun u => decide (u < 65536) && u / 1024 == k

/-- A field test is counted and, where it failed, recorded and reported (R455, R464). -/
def noteTest (s : State) (kind keel loc n : Nat) (bad : Bool) : State :=
  let s1 := s.onChk fun c => { c with testRuns := satAdd 16 c.testRuns 1, testFails := satAdd 16 c.testFails (b2n bad),
                                      testCount := c.testCount + 1 }
  if bad then event0 (faultRec s1 0x0017 keel loc kind) 0x0012 (toLe 1 kind ++ zeros 3 ++ toLe 4 n) else s1

/-- The image that a panel test reads a tile against, with its format: the record of the weights it holds, if that may be used, or
the generated image (R298, R452, R454; log 135). -/
def testImageOf (s : State) (t : Nat) : Option (Nat × List Byte) :=
  match (s.tileAt t).holds with
  | some src => if sourceLost s src then none else some (srcFormat s src, srcRecord s src)
  | none => if (s.tileAt t).testImage then some (0, Config.testRecord t) else none

/-- The capacity that the comparisons of a panel test take: four products on each tile tested (R446, R452). -/
def testCharge (s : State) (p : Nat) : State :=
  let n := (panelTiles p).countP fun t => (testImageOf s t).isSome
  s.onKeel (panelKeel p) fun x => { x with extraUsed := min (extraCapacity s) (x.extraUsed + 4096 * n) }

/-- Input vector `i` of a tile's test: generated ones, and as the fourth the capture of a pattern-suspect tile (R142, R452; log
135). -/
def testCodes (s : State) (t i : Nat) : List Int :=
  let made := (List.range 1024).map fun r => max (-127) (min 127 (Config.testCode (srDraw (Config.testSeed t s.chk.testCount i) r)))
  if i = 3 && (s.tileAt t).suspect then
    match s.chk.captures.find t with
    | some c => c.codes
    | none => made
  else made

/-- One test product: its reference conversions are noted as of any product, and it passes the checksum and the comparison with the
exact terms (R428, R443, R452). -/
def testProduct (t : Nat) (img : Nat × List Byte) (s : State × Bool) (x : Nat × Charges) : State × Bool :=
  let codes := testCodes s.1 t x.1
  let red := (s.1.tileAt t).red
  let ch := integrated img.1 red img.2 codes x.2
  let terms := productTerms img.1 red codes ch
  let ok := checkPasses (opt s.1 oTileCheckTol) img.1 (checkDiffs (s.1.panelAt (t / 8)) t img.2 codes terms) &&
    (spotResult s.1 t img.1 img.2 codes terms).1
  (noteRefs s.1 (tileKeel t) t codes ch, s.2 && ok)

/-- The four products of each tile of a panel that holds an image: the state they leave, and the lowest tile that failed. -/
def testTiles (p : Nat) (dev : List (List Charges)) (s : State) : State × Option Nat :=
  (panelTiles p).foldl
    (fun a t =>
      match testImageOf s t with
      | none => a
      | some img =>
        let r := ((List.range 4).map fun i => (i, (dev.getD (t % 8) []).getD i [])).foldl (testProduct t img) (a.1, true)
        (r.1, if r.2 || a.2.isSome then a.2 else some t)) (s, none)

/-- PANEL_FIELD_TEST (R452, R454, R455). A test that fails on several tiles records and marks the lowest (log 135). -/
def panelFieldTest (p : Nat) (dev : List (List Charges)) (s : State) : State :=
  let k := panelKeel p
  let cmd := asked s fun j => j == .testPanel p
  let due := opt s oFieldTests == 1 && nextTestPanel s k == some p && (failingCores s k).isEmpty
  if (!cmd && !due) || panelUnder s p then s
  else
    serve s 8 (panelOp 8 p) fun s =>
      let r := testTiles p dev (testCharge s p)
      let t := r.2.getD (8 * p)
      let s1 := noteTest r.1 0 k t p r.2.isSome
      let s2 := if r.2.isSome then markSuspect s1 t else s1
      let s3 := if due then s2.onChk fun c => { c with testNext := c.testNext.set k (p + 1) } else s2
      finishJobs s3 (fun j => j == .testPanel p) (if r.2.isSome then 0x0504 else 0)
        (toLe 4 (if r.2.isSome then t else 0xFFFFFFFF))

def execPanelFieldTest (p : Nat) (dev : List (List Charges)) (s : State) : Host.Outcome State Fault Refusal :=
  guarded (Instr.wf (.panelFieldTest p dev)) s (panelFieldTest p dev s)

/-- CORE_FIELD_TEST (R438, R453–R455): cores whose reruns all failed go first. -/
def coreFieldTest (c : Nat) (pass : Bool) (s : State) : State :=
  let k := c / 1024
  let cmd := asked s fun j => j == .testCore c
  let fs := failingCores s k
  let due := if fs.isEmpty then opt s oFieldTests == 1 && s.chk.coreNext.get 0 k == c % 1024 else fs.contains c
  if (!cmd && !due) || stackStopped s k then s
  else
    let s1 := noteTest s 1 k c c (!pass)
    let s2 := s1.onChk fun x =>
      { x with failing := x.failing.filter fun u => !(u == c),
               coreNext := if due && fs.isEmpty then x.coreNext.set k ((c + 1) % 1024) else x.coreNext }
    finishJobs s2 (fun j => j == .testCore c) (if pass then 0 else 0x0504) []

def execCoreFieldTest (c : Nat) (pass : Bool) (s : State) : Host.Outcome State Fault Refusal :=
  guarded (Instr.wf (.coreFieldTest c pass)) s (coreFieldTest c pass s)

end Sys2Proof.Machine
end

