-- ==== Sys2Proof/Machine/Memfail.lean ====
section
/-!
DEFINITION. Failed lines of keel DRAM and failed words of keel SRAM (R298, R439–R441).
-/
namespace Sys2Proof.Machine

/-- The region number of DETAIL (R462). -/
def regionNumber : DramRegion → Nat
  | .master .. => 0
  | .frame _ => 1
  | .frameTable _ _ => 2
  | .scores _ => 3
  | .held _ => 3
  | .embedVectors _ _ => 4
  | .adapter _ => 5
  | .calCounts _ => 6

/-- The session and first position of an entry, as a record names them (R461). -/
def entryOwner (s : State) (id : Nat) : W32 × W32 :=
  match s.entry id with
  | some e => (e.handle, BitVec.ofNat 32 e.first)
  | none => (noHandle, noHandle)

/-- The session and first position that a record of a line names (R440, R461). -/
def regionOwner (s : State) : DramRegion → W32 × W32
  | .frame key => (handleOf s (s.frame key).owner, noHandle)
  | .frameTable i _ => (handleOf s i, noHandle)
  | .scores id => entryOwner s id
  | .held id => entryOwner s id
  | .embedVectors id _ => entryOwner s id
  | .adapter id => entryOwner s id
  | _ => (noHandle, noHandle)

/-- The model layer that a record of a line names (R440, R462). -/
def regionLayer (s : State) : DramRegion → Nat
  | .frame key => (s.frame key).layer
  | .frameTable _ l => l
  | _ => 0

/-- The model and directory index of a line of a committed bundle. -/
def regionSect (s : State) : DramRegion → List (Nat × Nat)
  | .master mi pend sect _ _ _ => if pend then [] else [(mi, sect)]
  | .embedVectors id sect => ((s.entry id).map fun e => (e.model, sect)).toList
  | _ => []

/-- The other failing line of a master record's read that lies in the parity group of `line`: a group is 8 consecutive lines (R298). -/
def groupSecond (line : Nat) (second : Option (Nat × Nat)) : Option (Nat × Nat) := second.filter fun l => l.1 / 8 == line / 8

/-- Whether the module rebuilds or makes again what a failed line held (R298, R440, R461). -/
def regionRebuilt : DramRegion → Bool
  | .master _ _ _ _ line second => (groupSecond line second).isNone
  | .scores _ => true
  | .held _ => true
  | _ => false

/-- The DRAM_CRC record of a line whose re-read fails, once until it passes a read (R440, R462). -/
def dramRecord (s : State) (k : Nat) (r : DramRegion) (off : Nat) : State :=
  let o := regionOwner s r
  if s.chk.badLines.contains (k, off / 64) then s
  else
    faultRecord (s.onChk fun c =>
      { c with badLines := c.badLines ++ [(k, off / 64)],
               badSects := c.badSects ++ (regionSect s r).map fun x => (k, off / 64, x) }) 0x0015 k (regionRebuilt r) (off / 64) o.1 o.2
      (2 ^ 31 + regionLayer s r % 256 * 256 + regionNumber r)

/-- Every entry of a session at a stage of a keel slips with cause OVERRUN. -/
def lateSession (s : State) (k i : Nat) : State :=
  s.onPipe fun q => { q with entries := q.entries.map fun e => if e.sess = i && entryKeel s e = some k then { e with late := max e.late 1 } else e }

/-- Whether a position still has a pass to run at a layer. -/
def passesLeft (e : Entry) (pos l : Nat) : Bool :=
  e.items.any fun i => i.pos == pos && i.layer == l && !i.done && (match i.kind with
    | .passA _ => true
    | .passB _ => true
    | .passC _ => true
    | .attn => true
    | .layer => true
    | _ => false)

/-- The passes of a layer whose results were lost run again. -/
def redoPasses (id : Nat) (s : State) (p : Nat × Nat) : State :=
  let pos := p.1
  let l := p.2
  let s1 := s.onCtx id pos fun c => { c with shards := c.shards.filter fun x => !(x.layer == l) }
  s1.onEntry id fun e =>
    { e with items := e.items.map fun i =>
        if i.pos = pos && i.layer = l then
          match i.kind with
          | .passA _ => { i with done := false }
          | .passB _ => { i with done := false }
          | .passC _ => { i with done := false }
          | _ => i
        else i }

/-- The scores of an entry are lost: every pass at work runs again (R440). -/
def redoScores (s : State) (id : Nat) : State :=
  match s.entry id with
  | none => s
  | some e =>
    let at_ := distinct ((e.items.filter fun i => i.admitted.isSome && !i.done && passesLeft e i.pos i.layer).map fun i => (i.pos, i.layer))
    ((at_.filter fun p => (drained (s.ctxAt id p.1) p.2 8).isNone).foldl (redoPasses id) s)

/-- The matrices whose products an item holds. -/
def itemRoles (k : ItemKind) : List Nat := (List.range 8).filter k.covers

/-- A position's context as its open item found it: the item's products, results and key-value writes are to be made again. -/
def itemUndone (i : Item) (c : PosCtx) : PosCtx :=
  let roles := itemRoles i.kind
  let mine := fun (q : QBlock) => q.layer == i.layer && (itemPoints i).contains q.point
  let gone := ((c.qblocks.filter mine).map fun q => q.slots.length).sum
  let whole := i.kind == .layer || i.kind == .attn
  { c with
    hidden := c.start
    vecs := c.vecs.filter fun v => !(v.1 / 16 == i.layer && (roles.contains (v.1 % 16) || (whole && v.1 % 16 == 8)))
    qblocks := c.qblocks.filter fun q => !mine q
    slots := c.slots.set i.layer (c.slots.get 0 i.layer - gone)
    blocks := c.blocks.filter fun b => !(b.layer == i.layer && roles.contains b.role)
    deltas := c.deltas.filter fun d => !(d.1 / 8 == i.layer && roles.contains (d.1 % 8))
    shards := if whole then c.shards.filter fun x => !(x.layer == i.layer) else c.shards
    kvDone := if roles.contains 1 then c.kvDone.filter fun l => !(l == i.layer) else c.kvDone
    steered := if roles.contains 6 then c.steered.filter fun l => !(l == i.layer) else c.steered }

/-- The buffered work of an entry is lost: its open items run again from their inputs (R441). -/
def redoWork (s : State) (id : Nat) : State :=
  match s.entry id with
  | none => s
  | some e =>
    (distinct (e.items.map Item.pos)).foldl
      (fun s pos =>
        match openItem e pos with
        | none => s
        | some i => s.onCtx id pos (itemUndone i)) (redoScores s id)

/-- Mark a tile record of the committed or the pending bundle MASTER_LOST. -/
def markLost (m : Model) (pend : Bool) (x : Nat × Nat) : Model :=
  if pend then { m with pendLost := m.pendLost ++ [x] } else { m with lost := m.lost ++ [x] }

/-- A master-copy line fails: rebuilt from its group, or with a second failing line of the group the record is lost (R298). -/
def masterLine (s : State) (k mi : Nat) (pend : Bool) (sect rec_ line : Nat) (second : Option (Nat × Nat)) : State :=
  match groupSecond line second with
  | none => faultRecord s 0x0004 k true rec_ noHandle noHandle line
  | some (l2, off2) =>
    let s1 := dramRecord s k (.master mi pend sect rec_ l2 none) off2
    let m := s1.model mi
    let x := (sectUnit (if pend then (m.pendB.map Prod.fst).getD [] else m.bytes) sect, rec_)
    if (if pend then m.pendLost else m.lost).contains x then s1
    else
      let s2 := s1.onModel mi fun m => markLost m pend x
      let s3 := faultRec s2 0x0005 k rec_ (max line l2 * 65536 + min line l2)
      event s3 0 0x000A (modelHandle mi m.gen) (toLe 4 sect ++ toLe 4 rec_)

/-- A line that passes a read, or has been rebuilt, no longer fails (R440). -/
def lineGood (s : State) (k off : Nat) : State :=
  s.onChk fun c =>
    { c with badLines := c.badLines.filter fun b => !(b == (k, off / 64)),
             badReads := c.badReads.filter fun b => !((b.1, b.2.1) == (k, off / 64)),
             badSects := c.badSects.filter fun b => !((b.1, b.2.1) == (k, off / 64)) }

/-- The calibration counts of a panel cannot be read: the recalibration is abandoned and counts as an attempt (R77, R440). -/
def countsFail (s : State) (p : Nat) : State :=
  if mayRecalibrate s p then calRunNote (usedTry (calAttempt s p (measuredTile s p)) p) p 0 0 0 else s

/-- Whether the item that read a line waits until the line passes a read; frames are found by their address (R440). -/
def regionWaits : DramRegion → Bool
  | .frameTable _ _ => true
  | .embedVectors _ _ => true
  | .adapter _ => true
  | _ => false

/-- The work that needs a failed line waits for it (R440). -/
def waitFor (s : State) (k : Nat) (r : DramRegion) (off : Nat) : State :=
  if regionWaits r && !s.chk.badReads.contains (k, off / 64, r) then
    s.onChk fun c => { c with badReads := c.badReads ++ [(k, off / 64, r)] }
  else s

/-- A line whose re-read fails, by its region (R440). -/
def lineFails (s : State) (k : Nat) (r : DramRegion) (off : Nat) : State :=
  let s1 := waitFor (dramRecord (s.onChk fun c => { c with dramPersistent := satAdd 16 c.dramPersistent 1 }) k r off) k r off
  match r with
  | .master mi pend sect rec_ line second =>
    let s2 := masterLine s1 k mi pend sect rec_ line second
    if (groupSecond line second).isNone then lineGood s2 k off else s2
  | .frame key => lateSession s1 k (s.frame key).owner
  | .frameTable i _ => lateSession s1 k i
  | .scores id => lateEntry (redoScores s1 id) id
  | .held id => lateEntry (redoWork s1 id) id
  | .embedVectors id _ => lateEntry s1 id
  | .adapter id => lateEntry s1 id
  | .calCounts p => countsFail s1 p

/-- What the check value of a burst is computed over: the 64 data bytes, then the keel DRAM offset as 8 bytes (R439, R486; log 131). -/
def burstBytes (off : Nat) (b : Burst) : List Byte := (b.data ++ zeros 64).take 64 ++ toLe 8 off

/-- Whether a burst read at a keel DRAM offset passes its CRC-16 (R439). -/
def burstOk (off : Nat) (b : Burst) : Bool := crc .crc16 (burstBytes off b) == b.crc.toNat

/-- DRAM_LINE_FAIL: a burst that fails its CRC is read once more (R439, R440). The keel's unit checks both (R488). -/
def dramLineFail (k : Nat) (r : DramRegion) (off : Nat) (first reread : Burst) (s : State) : State :=
  let s0 := runStream s k 2 (burstBytes off (if burstOk off first then first else reread))
  if burstOk off first then lineGood s0 k off
  else if burstOk off reread then
    (lineGood s0 k off).onChk fun c => { c with dramTransient := satAdd 16 c.dramTransient 1 }
  else lineFails s0 k r off

def execDramLineFail (k : Nat) (r : DramRegion) (off : Nat) (first reread : Burst) (s : State) :
    Host.Outcome State Fault Refusal :=
  guarded (Instr.wf (.dramLineFail k r off first reread)) s (dramLineFail k r off first reread s)

/-- What a failed SRAM word held, as DETAIL (R462). -/
def contentNumber : SramContent → Nat
  | .weightScale _ => 0
  | .correction _ => 1
  | .buffer _ => 2

/-- Whether a word of keel SRAM fails its parity (R441). -/
def parityBad (data : W64) (parity : Bool) : Bool :=
  ((List.range 64).countP (fun i => data.getLsbD i) + b2n parity) % 2 != b2n Config.oddParity

/-- A word of keel SRAM has failed, by its content (R298, R441). -/
def sramFails (k word : Nat) (c : SramContent) (s : State) : State :=
  let s0 := s.onChk fun x => { x with sram := satAdd 32 x.sram 1 }
  let record := fun (rec_ : Bool) => faultRecord s0 0x0016 k rec_ word noHandle noHandle (contentNumber c)
  match c with
  | .weightScale t =>
    if (s.tileAt t).holds.any (sourceLost s) then (record false).onTile t fun x => { x with scaleBad := true } else record true
  | .correction p => (record false).onPanel p fun x => { x with corrBad := true, calUrgent := true }
  | .buffer id =>
    let s1 := match s.entry id with
      | some e => entryRecord s0 e 0x0016 k true word (contentNumber c)
      | none => record true
    lateEntry (redoWork s1 id) id

/-- SRAM_PARITY: a word is read; one that fails is handled by its content. -/
def sramParity (k word : Nat) (c : SramContent) (data : W64) (parity : Bool) (s : State) : State :=
  if parityBad data parity then sramFails k word c s else s

def execSramParity (k word : Nat) (c : SramContent) (data : W64) (parity : Bool) (s : State) :
    Host.Outcome State Fault Refusal :=
  guarded (Instr.wf (.sramParity k word c data parity)) s (sramParity k word c data parity s)

end Sys2Proof.Machine
end

