-- ==== Sys2Proof/Machine/Flow.lean ====
section
/-!
DEFINITION. The packer (R181–R186, R207, R213–R215, R250, R306, R321, R566): the items of a position, their charges, and
the packing of a keel's flights at an edge.
-/
namespace Sys2Proof.Machine

/-! Items (R181, R207, R249). -/

/-- L of R207 with the period in force. -/
def shardLen (s : State) (m : Model) (l : Nat) : Nat :=
  let ppf := layerPpf m l
  ppf * max 1 (2048 * s.tick.period / max 1 (kvShape m l).2 / max 1 ppf)

/-- L of a position-layer: the one fixed at its first attention item, or that of now. -/
def lenOf (s : State) (e : Entry) (pos l : Nat) : Nat :=
  (s.ctxAt e.id pos).lens.get (shardLen s (s.model e.model) l) l

/-- Whether the part before attention of a position-layer has been admitted on its own. -/
def preAdmitted (e : Entry) (pos l : Nat) : Bool :=
  e.items.any fun i => i.pos == pos && i.layer == l && i.kind == .pre && i.admitted.isSome

/-- The items of one layer of a position: one when its attention is a single shard (R181); the three passes are one item also
where the part before them has been admitted on its own (R208). -/
def layerKinds (s : State) (e : Entry) (pos l : Nat) : List ItemKind :=
  let len := lenOf s e pos l
  if pos + 1 ≤ len then (if preAdmitted e pos l then [.pre, .attn, .post] else [.layer])
  else
    let ns := List.range (shardCount len pos)
    [.pre] ++ ns.map .passA ++ ns.map .passB ++ ns.map .passC ++ [.post]

/-- Whether a position's logits are needed at the HEAD stage (R249, R264). -/
def headDue (e : Entry) (pos : Nat) : Bool :=
  match e.kind with
  | .prefill => e.sample && pos == lastPos e
  | .draft => pos == lastPos e
  | _ => true

/-- Whether an entry samples. -/
def sampleDue (e : Entry) : Bool := e.kind != .prefill || e.sample

/-- The layers of a stage. -/
def stageLayers (r : StageRec) : List Nat := (List.range r.layerCount).map (r.layerFirst + ·)

/-- The pieces of a position's work at a stage, in order: unit number and kind. -/
def posKinds (s : State) (e : Entry) (r : StageRec) (pos : Nat) : List (Nat × ItemKind) :=
  (if r.embed then [(256, .embed)] else []) ++
  ((stageLayers r).flatMap fun l => (layerKinds s e pos l).map fun k => (l, k)) ++
  (if r.head && headDue e pos then [(headUnit, .head)] else []) ++
  (if r.sample && sampleDue e && pos == lastPos e then [(headUnit, .sampling)] else [])

/-- The items of an entry at its stage, each with what has become of it. -/
def formItems (s : State) (e : Entry) (r : StageRec) : List Item :=
  (List.range e.count).flatMap fun j =>
    (posKinds s e r (e.first + j)).map fun k =>
      match e.items.find? fun i => i.pos == e.first + j && i.layer == k.1 && i.kind == k.2 with
      | some i => { i with now := false }
      | none => { pos := e.first + j, layer := k.1, kind := k.2, admitted := none, now := false, done := false }

/-! Capacities and charges (R182, R215). -/

/-- KV bytes of a keel: KV_SHARE / 64 × 6.0 TB/s × P (R182, R306). -/
def kvRoom (s : State) (k : Nat) : Nat := kvShare s k * s.tick.period * 1500000 / 64

/-- What the packing of a keel has used so far. -/
structure Pack where
  dies : Tbl Nat
  panels : Tbl Nat
  kv : Nat
  /-- entries and positions with an admitted item, by module stage index -/
  entries : List (Nat × Nat)
  positions : List (Nat × Nat × Nat)
  masked : Nat
  deriving DecidableEq, Repr

/-- Nothing used. -/
def Pack.init : Pack where
  dies := []
  panels := []
  kv := 0
  entries := []
  positions := []
  masked := 0

/-- The copy that a position's write performs, if one is pending: two frames. The entry's first write into a page-list entry
performs it (R215, R231). -/
def copyBytes (s : State) (e : Entry) (r : StageRec) (pos l : Nat) : Nat :=
  let page := (kvPage s e r l pos).1
  if (s.page page).copy && (pos == e.first || (kvPage s e r l (pos - 1)).1 != page) then 131072 else 0

/-- The reservation of a position-layer's scores. -/
def scoreResv (s : State) (id pos l : Nat) : Option ScoreResv :=
  s.kv.scores.find? fun v => v.entry == id && v.pos == pos && v.layer == l

/-- KV bytes charged for an item (R215), for what it has still to do. -/
def itemKv (s : State) (e : Entry) (r : StageRec) (i : Item) (spill : Bool) : Nat :=
  let m := s.model e.model
  let c := s.ctxAt e.id i.pos
  let bpp := layerBpp m i.layer
  let hq := sHq (entrySection s e i.layer)
  let write := if c.kvDone.contains i.layer then 0 else bpp + copyBytes s e r i.pos i.layer
  let keys := fun (n : Nat) => (shardKeys (lenOf s e i.pos i.layer) i.pos n).length
  let sc := fun (n f : Nat) => if spill then f * keys n * hq * 4 else 0
  match i.kind with
  | .pre => write
  | .layer => write + if (drained c i.layer 8).isSome then 0 else (i.pos + 1) * bpp
  | .attn => (i.pos + 1) * bpp
  | .passA n => keys n * bpp / 2 + sc n 1
  | .passB n => sc n 2
  | .passC n => keys n * bpp / 2 + sc n 1
  | _ => 0

/-- Whether products cannot use a tile in this tick: service placed before packing holds it or its bank, a refresh spans
the edge, or a correction of its panel is bad (R102, R114, R172, R441). -/
def tileHeld (s : State) (t : Nat) : Bool :=
  serviceHolds s t || (s.tileAt t).half.isSome || (s.panelAt (t / 8)).corrBad

/-- Whether a tile holds verified weights (R106, R305). -/
def tileReady (s : State) (t : Nat) : Bool :=
  (s.tileAt t).holds.isSome && !(s.tileAt t).unverified && !(s.tileAt t).scaleBad

/-- Whether an item's unit is one that its entry's epoch waits for (R321). -/
def unitHeld (s : State) (e : Entry) (u : Nat) : Bool :=
  match (s.model e.model).repl with
  | none => false
  | some r =>
    e.epoch == r.newEpoch && r.mask.contains u && (r.units.find u).map ReplUnit.switched != some true

/-- Whether an item begins the attention of a position-layer. -/
def attnStart (k : ItemKind) : Bool :=
  match k with
  | .layer => true
  | .attn => true
  | .passA 0 => true
  | _ => false

/-- Whether the writes that attention reads have been admitted (R566). -/
def writesAdmitted (e : Entry) (pos l : Nat) : Bool :=
  (List.range (pos - e.first)).all fun j =>
    e.items.any fun i => i.pos == e.first + j && i.layer == l && (i.kind == .layer || i.kind == .pre) && i.admitted.isSome

/-- The score reservation that an item needs: none needed, one to take, or no room (R213, R214). -/
def scoreNeed (s : State) (e : Entry) (r : StageRec) (i : Item) : Option (Option ScoreResv) :=
  if !attnStart i.kind || (scoreResv s e.id i.pos i.layer).isSome then some none
  else
    let n := sHq (entrySection s e i.layer) * (i.pos + 1) * 4
    let resv := fun (spill : Bool) =>
      some (some { entry := e.id, pos := i.pos, layer := i.layer, keel := r.keel, bytes := n, spill := spill })
    if scoreBytes s r.keel false + n ≤ 67108864 then resv false
    else if i.kind != .layer && i.kind != .attn && scoreBytes s r.keel true + n ≤ 4294967296 then resv true
    else none

/-- Whether the products of an item fit (R182). -/
def productsFit (s : State) (pk : Pack) (ts : List Nat) : Bool :=
  (distinct (ts.map fun t => t / 8)).all (fun p =>
    decide (pk.panels.get 0 p + (ts.countP fun t => t / 8 == p) ≤ panelRoom s p)) &&
  (distinct (ts.map fun t => t / 16384)).all fun d =>
    decide (pk.dies.get 0 d + (ts.countP fun t => t / 16384 == d) ≤ dieRoom s d)

/-- Whether the stage takes one more entry and position (R182). -/
def flightFits (pk : Pack) (st id pos : Nat) : Bool :=
  (pk.entries.contains (st, id) || decide ((pk.entries.countP fun x => x.1 == st) < 256)) &&
  (pk.positions.contains (st, id, pos) || decide ((pk.positions.countP fun x => x.1 == st) < 8192))

/-- Whether class quotas pass over an item (R183). -/
def quotaSpent (s : State) (k : Nat) (e : Entry) (i : Item) : Bool :=
  i.admitted.isNone && decide (e.cls < 3) && opt s (oClassQuota0 + e.cls) != 16777215 &&
  decide (opt s (oClassQuota0 + e.cls) ≤ s.pipe.quota.get 0 (4 * k + e.cls))

/-- Charge the products of an item. -/
def chargeTiles (pk : Pack) (ts : List Nat) : Pack :=
  ts.foldl (fun pk t => { pk with dies := pk.dies.upd 0 (t / 16384) (· + 1), panels := pk.panels.upd 0 (t / 8) (· + 1) }) pk

/-- Admit an item: its charges, its quota, its scores, and the L of its position-layer (R182, R183, R207, R213). -/
def admitItem (s : State) (pk : Pack) (e : Entry) (r : StageRec) (i : Item) (resv : Option ScoreResv) : State × Pack :=
  let st := entryStageIndex s e
  let spill := (resv.map ScoreResv.spill).getD (((scoreResv s e.id i.pos i.layer).map ScoreResv.spill).getD false)
  let pk1 := chargeTiles pk (itemTiles s e i)
  let pk2 := { pk1 with
    kv := pk1.kv + itemKv s e r i spill
    entries := if pk1.entries.contains (st, e.id) then pk1.entries else pk1.entries ++ [(st, e.id)]
    positions := if pk1.positions.contains (st, e.id, i.pos) then pk1.positions else pk1.positions ++ [(st, e.id, i.pos)] }
  let len := lenOf s e i.pos i.layer
  let s1 := s.onEntry e.id fun e =>
    { e with items := e.items.map fun x =>
        if x.pos = i.pos && x.layer = i.layer && x.kind = i.kind then
          { x with now := true, admitted := some (x.admitted.getD s.tick.edges) }
        else x }
  let s2 := if attnStart i.kind then
      s1.onCtx e.id i.pos fun c => { c with lens := c.lens.set i.layer len }
    else s1
  let s3 := s2.onKv fun k => { k with scores := k.scores ++ resv.toList }
  let s4 := if i.admitted.isNone && decide (e.cls < 3) then
      s3.onPipe fun q => { q with quota := q.quota.upd 0 (4 * r.keel + e.cls) (· + 1) }
    else s3
  (s4, pk2)

/-- Try one item: whether it is admitted, and what that leaves (R182–R184). An entry whose products service placed before packing
or a bad correction holds back slips with cause SERVICE (R188, R441); a refresh between its halves holds them back, too. A class
counts in KP_QUOTA when an item of it is passed over, and not while it has none to pass over (R198; log 126). -/
def tryItem (s : State) (pk : Pack) (e : Entry) (r : StageRec) (i : Item) : Bool × State × Pack :=
  let ts := itemTiles s e i
  if quotaSpent s r.keel e i then (false, s, { pk with masked := setBit pk.masked e.cls })
  else if unitHeld s e i.layer then (false, s, pk)
  else if ts.any fun t => serviceHolds s t || (s.panelAt (t / 8)).corrBad then (false, s.onEntry e.id fun e => { e with late := 2 }, pk)
  else if ts.any (tileHeld s) then (false, s, pk)
  else if !ts.all (tileReady s) || !productsFit s pk ts || !flightFits pk (entryStageIndex s e) e.id i.pos ||
      (attnStart i.kind && !writesAdmitted e i.pos i.layer) then (false, s, pk)
  else
    match scoreNeed s e r i with
    | none => (false, s, pk)
    | some resv =>
      let spill := (resv.map ScoreResv.spill).getD (((scoreResv s e.id i.pos i.layer).map ScoreResv.spill).getD false)
      if kvRoom s r.keel < pk.kv + itemKv s e r i spill then (false, s, pk)
      else (true, admitItem s pk e r i resv)

/-- The items of a position in order, up to the first that is not admitted; a carried one has been tried before. -/
def packPos (id : Nat) (r : StageRec) : List Item → State → Pack → State × Pack
  | [], s, pk => (s, pk)
  | i :: rest, s, pk =>
    if i.now || i.done then packPos id r rest s pk
    else if i.admitted.isSome then (s, pk)
    else
      match s.entry id with
      | none => (s, pk)
      | some e =>
        let (ok, s1, pk1) := tryItem s pk e r i
        if ok then packPos id r rest s1 pk1 else (s1, pk1)

/-- The entries of a keel whose items the packer considers: of each session the earliest at its stage (R250, R267). -/
def packEntries (s : State) (k : Nat) : List Entry :=
  s.pipe.entries.filter fun e =>
    entryKeel s e == some k && e.ready && !e.masked &&
    !(s.pipe.entries.any fun x => x.sess == e.sess && x.model == e.model && x.stage == e.stage && !x.away && decide (x.id < e.id))

/-- The positions of an entry. -/
def positionsOf (e : Entry) : List Nat := (List.range e.count).map (e.first + ·)

/-- The order of R184 among positions, after carried items. -/
def packKey (s : State) (e : Entry) (pos : Nat) : List Nat :=
  [e.cls, e.readyEdge, 255 - entryStageIndex s e, e.sess, pos]

/-- What the packer takes in one turn: its key of R184, its entry, and a position or a carried item's place in the entry. -/
structure Turn where
  key : List Nat
  entry : Nat
  at_ : Nat
  deriving DecidableEq, Repr

/-- The carried items of an entry: the oldest first, whatever their class. -/
def carriedTurns (s : State) (e : Entry) : List Turn :=
  e.items.zipIdx.filterMap fun x =>
    match x.1.admitted with
    | some t => if x.1.done then none else some { key := t :: (packKey s e x.1.pos).drop 1 ++ [x.2], entry := e.id, at_ := x.2 }
    | none => none

/-- Take turns in the order of their keys, each on its entry as the turns before it leave it. -/
def takeTurns (k : Nat) (f : Entry → StageRec → Nat → State → Pack → State × Pack) (l : List Turn) (sp : State × Pack) :
    State × Pack :=
  (sortBy (fun a b => lexLt a.key b.key) l).foldl
    (fun sp t =>
      match sp.1.entry t.entry with
      | none => sp
      | some e =>
        match entryStage sp.1 e with
        | none => sp
        | some r => if r.keel = k then f e r t.at_ sp.1 sp.2 else sp) sp

/-- A carried item is tried once the items before it in its position have been admitted (R184). -/
def packCarried (e : Entry) (r : StageRec) (n : Nat) (s : State) (pk : Pack) : State × Pack :=
  match e.items[n]? with
  | none => (s, pk)
  | some i =>
    if (e.items.take n).any fun x => x.pos == i.pos && !x.now && !x.done then (s, pk)
    else (tryItem s pk e r i).2

/-- The flights of a keel: carried items first, then every position's items in order (R184). A stopped stack packs
none. -/
def packFlights (s : State) (k : Nat) : State × Pack :=
  if stackStopped s k then (s, Pack.init)
  else
    let es := packEntries s k
    let sp := takeTurns k packCarried (es.flatMap (carriedTurns s)) (s, Pack.init)
    takeTurns k (fun e r pos => packPos e.id r (e.items.filter fun i => i.pos == pos))
      (es.flatMap fun e => (positionsOf e).map fun p => { key := packKey s e p, entry := e.id, at_ := p }) sp

/-- Whether an item that the packer has not admitted counts in KP_QUEUED: its entry is not held at a barrier (R185, R198). That
every such item of every entry on the keel counts, later pieces of a position and entries behind another of their session
too, is the model's choice (log 109). -/
def queued (s : State) (e : Entry) (i : Item) : Bool := !i.done && !i.now && !unitHeld s e i.layer

/-- The flights of a keel are packed, and its registers show what the packing found (R171 step 7, R198). -/
def packKeel (s : State) (k : Nat) : State :=
  let (s1, pk) := packFlights s k
  let depth := ((s1.pipe.entries.filter fun e => entryKeel s1 e == some k && e.ready && !e.masked).map fun e =>
    e.items.countP (queued s1 e)).sum
  (s1.onKeel k fun x =>
    { x with kvNow := pk.kv, masked := pk.masked, queuedDepth := depth, queuedPeak := max x.queuedPeak depth }).onPipe fun q =>
    { q with panelUsed := pk.panels.foldl (fun t e => t.set e.1 e.2) q.panelUsed,
             dieUsed := pk.dies.foldl (fun t e => t.set e.1 e.2) q.dieUsed }

/-- Form the items of every entry again at an edge (R207): none is admitted yet in the new tick. -/
def formAll (s : State) : State :=
  s.onPipe fun q =>
    { q with entries := q.entries.map fun e =>
        match entryStage s e with
        | none => e
        | some r => { e with items := formItems s e r } }

/-- Start what was admitted. -/
def startItems (s : State) : State :=
  s.pipe.entries.foldl
    (fun s e => (distinct ((e.items.filter Item.now).map Item.pos)).foldl (fun s p => advance s e.id p) s) s

/-- Steps 6 and 7 of R171: urgent service is placed, then the flights are packed, and their work begins. -/
def packAll (s : State) : State :=
  let s1 := formAll (s.onPipe fun q => { q with plan := urgentPlan s, panelUsed := [], dieUsed := [] })
  startItems ((List.range 8).foldl packKeel s1)

end Sys2Proof.Machine
end

