-- ==== Sys2Proof/Machine/Entries.lean ====
section
/-!
DEFINITION. Entries as they become ready at an edge (R185, R223–R228, R248–R253, R262–R264, R280, R311, R314, R369): the
next entry of a session, the reservation of its frames and credits, parking, and entries of sessions of other modules.
-/
namespace Sys2Proof.Machine

/-- An entry that could become ready at its first stage; `fresh` credits are to be reserved now, `carried` ones are. -/
structure NewEntry where
  sess : Nat
  handle : W32
  spool : Nat
  seq : W32
  kind : EntryKind
  model : Nat
  stage : Nat
  epoch : Nat
  first : Nat
  count : Nat
  tokens : List Nat
  last : Bool
  sample : Bool
  fresh : Nat
  carried : Nat
  deriving DecidableEq, Repr

/-- The stage of a map that has EMBED set. -/
def embedStage (m : Model) : Option Nat := leastBelow m.stages.length fun i => (m.stages[i]?.map StageRec.embed).getD false

/-- Whether entries of an epoch wait for cut-over (R314). -/
def heldForEpoch (m : Model) (epoch : Nat) : Bool :=
  match m.repl with
  | none => false
  | some r => !r.cut && epoch == r.newEpoch

/-- The epoch with which a model stamps entries of its own (R311, R315). -/
def stampEpoch (m : Model) : Nat :=
  match m.repl with
  | none => m.epoch
  | some r => if r.cut then r.newEpoch else m.epoch

/-- The token at a position that a draft step writes: one of HISTORY, PENDING, or an earlier draft token. HISTORY does not
reach a token further back, which is a free value (R241, R263; log 10). -/
def draftToken (s : State) (x : Session) (r : Run) (vocab p : Nat) : Nat :=
  if p < x.length then
    let back := x.length - p
    if back ≤ x.history.length then x.history.getD (x.history.length - back) 0
    else (Config.freeWord (s.free + p)).toNat % max 1 vocab
  else (x.pend.toList ++ r.drafts).getD (p - x.length) 0

/-- An entry of a session on its main model. -/
def mainEntry (i : Nat) (h : W32) (x : Session) (r : Run) (st : Nat) (kind : EntryKind) (first : Nat) (toks : List Nat)
    (last sample : Bool) (fresh carried : Nat) : NewEntry where
  sess := i
  handle := h
  spool := r.spool
  seq := r.seq
  kind := kind
  model := modelOf x
  stage := st
  epoch := x.epoch
  first := first
  count := toks.length
  tokens := toks
  last := last
  sample := sample
  fresh := fresh
  carried := carried

/-- The next draft step of a SPEC_VERIFY: the first also writes what the draft has not yet written (R263). -/
def draftEntry (s : State) (i : Nat) (x : Session) (r : Run) (d : Nat) : Option NewEntry :=
  let m := s.model d
  match embedStage m with
  | none => none
  | some st =>
    let n := x.length + r.drafts.length + 1 - x.draftLen
    let toks := (List.range n).map fun j => draftToken s x r (bVocab m.bytes) (x.draftLen + j)
    let begun := !r.drafts.isEmpty
    some { mainEntry i (handleOf s i) x r st .draft x.draftLen toks false true (if begun then 0 else r.k + 1)
             (if begun then r.held else 0) with model := d, epoch := stampEpoch m }

/-- The next entry of a session's running command, if it may become ready now (R185, R251, R263, R314). -/
def nextEntry (s : State) (i : Nat) : Option NewEntry :=
  let x := s.sess i
  let m := s.model (modelOf x)
  match x.run, embedStage m with
  | some r, some st =>
    if (x.st != .busy && x.st != .starved) || heldForEpoch m x.epoch then none
    else
      match r.kind with
      | .step =>
        match x.pend with
        | none => none
        | some t =>
          if r.left = 0 || inFlight s i then none
          else some (mainEntry i (handleOf s i) x r st .decode x.length [t] (r.left == 1) true 1 0)
      | .verify =>
        if r.tokens.isEmpty || inFlight s i then none
        else if r.list || r.drafts.length == r.k then
          some (mainEntry i (handleOf s i) x r st .verify x.length (x.pend.toList ++ r.drafts) true true
            (if r.list then r.k + 1 else 0) (if r.list then 0 else r.held))
        else
          match draftOf x with
          | none => none
          | some d => draftEntry s i x r d
      | _ =>
        let here := s.pipe.entries.any fun e => e.sess == i && e.stage == st && !e.away
        if r.tokens.isEmpty || here then none
        else
          let toks := r.tokens.take (max 1 r.chunk)
          let last := decide (r.tokens.length ≤ max 1 r.chunk)
          some (mainEntry i (handleOf s i) x r st .prefill r.pos toks last (r.sample && last)
            (b2n (r.sample && last)) 0)
  | _, _ => none

/-! Sessions of other modules (R176, R180, R227). -/

/-- The key under which this module keeps what it holds for a session of another module. -/
def foreignKey (h : W32) : Nat := 65536 + h.toNat % 65536

/-- The model that a handoff from another module is for: the lowest placed one whose map here has no EMBED stage. -/
def foreignModel (s : State) : Option Nat :=
  (s.models.find? fun e => isPlaced e.2 && !e.2.stages.isEmpty && (embedStage e.2).isNone).map Prod.fst

/-- What has arrived for one position of an inbound entry. -/
def arrivalOf (s : State) (b : Inbound) (pos : Nat) : Option Arrival :=
  s.pipe.arrivals.find? fun a => a.handle == b.handle && a.stage == b.stage && a.pos == pos

/-- Whether a handoff is complete: every block of every position, and the seal mark (R176). -/
def inboundDone (s : State) (mi : Nat) (b : Inbound) : Bool :=
  let len := 1028 * ceilDiv (bHidden (s.model mi).bytes) 1024
  b.marked && (List.range b.count).all fun j => match arrivalOf s b (b.first + j) with
    | none => false
    | some a => decide (len ≤ a.data.length)

/-- The first complete handoff for a session of another module that has no entry here waiting for its return. -/
def foreignIn (s : State) (key mi : Nat) : Option Inbound :=
  s.pipe.inbound.find? fun b => foreignKey b.handle == key && inboundDone s mi b &&
    !(s.pipe.entries.any fun e => e.away && e.handle == b.handle && e.first == b.first)

/-- The entry that a complete handoff makes ready (R176). -/
def foreignEntry (s : State) (key : Nat) : Option NewEntry :=
  match foreignModel s with
  | none => none
  | some mi =>
    (foreignIn s key mi).map fun b =>
      { sess := key, handle := b.handle, spool := 0, seq := 0, kind := .prefill, model := mi, stage := b.stage,
        epoch := ((arrivalOf s b b.first).map Arrival.epoch).getD 0, first := b.first, count := b.count, tokens := [],
        last := false, sample := false, fresh := 0, carried := 0 }

/-- What this module keeps for a session of another module: its generation, and runs for its layers here. Its MAX_CONTEXT is not
conveyed: the runs cover the model's maximum context, and where no free run is left the entry waits (the model's choice, log 136). -/
def openForeign (s : State) (n : NewEntry) : Option State :=
  let g := n.handle.toNat / 16777216
  let m := s.model n.model
  let x := s.sess n.sess
  let h := modelHandle n.model m.gen
  let s1 := if x.gen = g && x.model = h then s else
    { freeRunsOf (truncPages s (s.model (modelOf x)) x.runs 0) (s.model (modelOf x)) x.runs with
      sessions := s.sessions.set n.sess { Session.init with gen := g, model := h } }
  let len := fun (s : State) => s.onSess n.sess fun x => { x with length := n.first, epoch := n.epoch }
  if (s1.sess n.sess).runs.isEmpty then
    match allocRuns s1 m (bMaxCtx m.bytes) with
    | none => none
    | some (r, s2) => some (len (s2.onSess n.sess fun x => { x with runs := r }))
  else some (len s1)

/-- The residual vectors that a complete handoff brings, and the flags and counts with it (R153, R154, R191). -/
def takeArrivals (s : State) (id mi : Nat) (b : Inbound) : State :=
  let h := bHidden (s.model mi).bytes
  let as := (List.range b.count).filterMap fun j => arrivalOf s b (b.first + j)
  let s1 := as.foldl (fun s a => s.onCtx id a.pos fun _ => let v := handoffVector a.e4m3 h a.data; { PosCtx.init with hidden := v, start := v }) s
  let s2 := s1.onEntry id fun e =>
    { e with arith := as.foldl (fun f a => f ||| a.flags) e.arith,
             dwell := as.foldl (fun n a => max n a.dwell) e.dwell,
             slip := as.foldl (fun n a => max n a.slip) e.slip }
  s2.onPipe fun q =>
    { q with arrivals := q.arrivals.filter fun a =>
               !(a.handle == b.handle && a.stage == b.stage && decide (b.first ≤ a.pos) && decide (a.pos < b.first + b.count)),
             inbound := q.inbound.filter fun x => !(x == b) }

/-- Entries that come back from another module become ready at this edge (R176). -/
def returnEntries (s : State) : State :=
  s.pipe.inbound.foldl
    (fun s b =>
      match s.pipe.entries.find? fun e => e.away && e.handle == b.handle && e.first == b.first with
      | none => s
      | some e =>
        if !inboundDone s e.model b then s
        else
          let s1 := s.onEntry e.id fun e =>
            { e with away := false, stage := b.stage, readyEdge := s.tick.edges, since := s.tick.edges, items := [], handed := [] }
          takeArrivals s1 e.id e.model b) s

/-! Making an entry ready. -/

/-- The entry that would become ready for a session key. -/
def candidate (s : State) (key : Nat) : Option NewEntry := if key < 65536 then nextEntry s key else foreignEntry s key

/-- The page-list runs that an entry writes to. -/
def newRuns (s : State) (n : NewEntry) : Tbl (Nat × Nat) :=
  if n.kind = .draft then (s.sess n.sess).druns else (s.sess n.sess).runs

/-- The entry itself: stamped with its epoch and its snapshot (R280, R311). -/
def makeEntry (s : State) (n : NewEntry) (reserved : List Nat) : Entry :=
  let x := s.sess n.sess
  { id := s.pipe.nextId, sess := n.sess, handle := n.handle, spool := n.spool, seq := n.seq, kind := n.kind,
    model := n.model, first := n.first, count := n.count, tokens := n.tokens, last := n.last, sample := n.sample,
    stage := n.stage, away := false, epoch := n.epoch, stamped := true, steer := x.steer, delta := x.delta,
    cls := if n.sess < 65536 then x.cls else 3, params := x.params, stops := x.stops, arith := 0,
    dwell := 0, slip := 0, ready := true, readyEdge := s.tick.edges, since := s.tick.edges, items := [],
    reserved := reserved, credits := n.fresh + n.carried, sealing := false, masked := false, handed := [], late := 0,
    token := none, accepted := 0, noLogit := false, cutStop := false }

/-- What the run has left once an entry has been made. -/
def runAfter (n : NewEntry) (r : Run) : Run :=
  match n.kind with
  | .prefill => { r with tokens := r.tokens.drop n.count, pos := r.pos + n.count }
  | .verify => { r with tokens := [], held := 0 }
  | .draft => { r with held := 0 }
  | .decode => r

/-- An entry becomes ready: its frames and credits are reserved, and it enters the pipeline (R223, R368). -/
def admitEntry (s : State) (n : NewEntry) (needs : List Need) : State :=
  let runs := newRuns s n
  let s1 := reserveAll s n.sess n.epoch (s.model n.model) runs needs
  let e := makeEntry s1 n (needKeys runs needs)
  let s2 := s1.onPipe fun q => { q with entries := q.entries ++ [e], nextId := q.nextId + 1 }
  let s3 := s2.onSpool n.spool fun q => { q with resv := q.resv + n.fresh }
  let s4 := s3.onSess n.sess fun x => { x with run := x.run.map (runAfter n) }
  let s5 := { s4 with free := s4.free + n.first + n.count }
  match foreignIn s n.sess n.model with
  | some b => if n.sess < 65536 then s5 else takeArrivals s5 e.id n.model b
  | none => s5

/-- Park a session: the event at its parking names the keel that is short and the frames missing there (R224, R225). -/
def park (s : State) (n : NewEntry) (k missing : Nat) : State :=
  let res := toLe 1 k ++ zeros 3 ++ toLe 4 missing
  if s.kv.parked.any fun p => p.1 == n.sess then
    s.onKv fun v => { v with parked := v.parked.map fun p => if p.1 = n.sess then (p.1, k) else p }
  else
    let s1 := event (s.onKv fun v => { v with parked := v.parked ++ [(n.sess, k)] }) 0 0x0008 n.handle res
    if n.sess < 65536 then
      event (s1.onSess n.sess fun x => { x with st := .starved }) n.spool 0x0008 n.handle res
    else tellModules s1 0 (.starved n.handle k missing)

/-- A parked session's reservation has succeeded (R225). -/
def grant (s : State) (n : NewEntry) : State :=
  if s.kv.parked.any fun p => p.1 == n.sess then
    let s1 := unpark s n.sess
    if n.sess < 65536 then event (s1.onSess n.sess fun x => { x with st := .busy }) n.spool 0x0009 n.handle [] else s1
  else s

/-- Take one reservation in the order of R225; `blocked` are the keels blocked so far at this edge. -/
def tryEntry (sb : State × List Nat) (key : Nat) : State × List Nat :=
  let (s0, blocked) := sb
  match candidate s0 key with
  | none => sb
  | some n =>
    if credits (s0.spool n.spool) < n.fresh then (s0.onSpool n.spool fun q => { q with cqStall := true }, blocked)
    else
      match (if n.sess < 65536 then some s0 else openForeign s0 n) with
      | none => sb
      | some s =>
        let needs := needsOf s (s.model n.model) (newRuns s n) n.first n.count
        let ks := (List.range 8).filter fun k => decide (0 < needOn needs k)
        match ks.find? blocked.contains, ks.filter fun k => decide (freeFrames s k < needOn needs k) with
        | some k, _ => (park s n k (needOn needs k), blocked)
        | none, k :: r => (park s n k (needOn needs k - freeFrames s k), blocked ++ k :: r)
        | none, [] => (admitEntry (grant s n) n needs, blocked)

/-- The keys whose reservations an edge takes, in order: parked sessions, then entries becoming ready by session (R225). The
sessions of other modules follow all of this module's own, once for each handoff that has come in: R225 does not place their
handles among the session indices of this module (the model's choice, log 108). -/
def readyOrder (s : State) : List Nat :=
  let parked := s.kv.parked.map Prod.fst
  let ours := (s.sessions.filter fun e => decide (e.1 < 65536) && e.2.st == .busy && (nextEntry s e.1).isSome).map Prod.fst
  let theirs := sortBy (fun a b => decide (a < b)) (s.pipe.inbound.map fun b => foreignKey b.handle)
  parked ++ parked.foldl List.erase (ours ++ theirs)

/-- Entries become ready at an edge. -/
def readyEdge (s : State) : State :=
  let s1 := returnEntries { s with spools := s.spools.mapAll fun _ q => { q with cqStall := false } }
  ((readyOrder s1).foldl tryEntry (s1, [])).1

/-- Masked entries of other modules' sessions end at the edge (R267, R269). -/
def dropMasked (s : State) : State :=
  (s.pipe.entries.filter fun e => decide (65536 ≤ e.sess) && e.masked).foldl
    (fun s e =>
      let s1 := unpark (endEntry s e) e.sess
      truncPages s1 (s1.model e.model) (s1.sess e.sess).runs (s1.sess e.sess).length) s

end Sys2Proof.Machine
end

