-- ==== Sys2Proof/Machine/Seal.lean ====
section
/-!
DEFINITION. The seal decision of a keel (R132, R135, R139, R174, R187–R191, R198, R519) and what a seal brings at the edge
that ends its tick (R30, R171, R175, R228, R252–R257, R263–R266, R395, R448–R450).
-/
namespace Sys2Proof.Machine

/-! What an entry carries. -/

/-- The work of an entry's positions. -/
def entryWork (s : State) (id : Nat) : List (Nat × PosCtx) :=
  (s.pipe.ctx.filter fun c => c.1 / 2097152 == id).map fun c => (c.1 % 2097152, c.2)

/-- Its wide-mode requests. -/
def wideCarried (s : State) (id : Nat) : Nat :=
  ((entryWork s id).map fun c => c.2.blocks.countP fun b => b.st.asksWide).sum

/-- Its slotted rows of which some tile's terms are not yet formed. -/
def rowsCarried (s : State) (e : Entry) : Nat :=
  ((entryWork s e.id).map fun c => (c.2.qblocks.map fun q => q.slots.countP fun r =>
    c.2.blocks.any fun b => b.layer == q.layer && rolePoint b.role == q.point && b.rows.contains r &&
      b.tile % max 1 (roleDesc (entrySection s e b.layer) b.role).rowB == q.block).sum).sum

/-- Whether a delta section of the entry waits whose input is there (R278). -/
def deltaCarried (s : State) (e : Entry) : Bool :=
  (entryWork s e.id).any fun c =>
    match openItem e c.1 with
    | none => false
    | some i => (List.range 7).any fun role =>
        i.kind.covers role && pointDone c.2 i.layer (rolePoint role) && (deltaFor s e i.layer role).isSome &&
        (c.2.deltas.find (8 * i.layer + role)).isNone

/-- Replays and repeats that found no panel time in the tick ask for wide mode at rank 4 (R132, R134). -/
def replaysToWide (s : State) (k : Nat) : State :=
  s.onPipe fun q =>
    { q with ctx := q.ctx.mapAll fun key c =>
        if ((s.entry (key / 2097152)).bind (entryKeel s)) = some k then
          { c with blocks := c.blocks.map fun b => match b.st with
              | .needRepeat => { b with st := .wide 4 }
              | .needSplit _ => { b with st := .wide 4 }
              | _ => b }
        else c }

/-! The decision. -/

/-- Causes of a slip (R188). -/
inductive Cause where
  | service | wide | tail | overrun | handoff
  deriving DecidableEq, Repr

/-- What the seal decision finds of an entry (R174, R187, R188). -/
inductive SealWhy where
  | seal
  | dwell
  | slip (c : Cause)
  deriving DecidableEq, Repr

/-- Whether a payload belongs to the handoff of a session. -/
def payloadOf (h : W32) : Payload → Bool
  | .handoff g _ _ _ _ _ _ _ _ _ => g == h
  | .ctrl (.sealMark g _) => g == h
  | .ctrl (.reserve g _ _) => g == h
  | .transit _ _ p => payloadOf h p
  | _ => false

/-- Whether a payload crosses the bridle towards a chain port for the handoff of a session. -/
def transitOf (h : W32) : Payload → Bool
  | .transit _ _ p => payloadOf h p
  | _ => false

/-- Whether frames of a session's handoff have still to cross a bridle link on their way to a chain port: queued at an end,
or sent and not accepted at the other end. -/
def crossing (s : State) (h : W32) : Bool :=
  s.ends.any fun e => isBridle (endLink e.1) &&
    let far := s.linkEnd (if e.1 = endLink e.1 then e.1 + 32 else endLink e.1)
    (e.2.queue.any (fun f => transitOf h f.payload) ||
     e.2.buffer.any (fun f => transitOf h f.payload && decide (2048 ≤ (far.rxLast + 4096 - f.seq) % 4096)))

/-- Condition 4 of R174: the handoff is at the next stage's keel; for a REMOTE one it and its seal mark are in the
replay buffer (R479). A SAMPLE stage hands nothing on. -/
def handoffDone (s : State) (e : Entry) (r : StageRec) : Bool :=
  if r.sample then true
  else
    (positionsOf e).all e.handed.contains &&
    (!r.remote || !((s.linkEnd (portTo s r.nextModule)).queue.any (fun f => payloadOf e.handle f.payload) || crossing s e.handle))

/-- Whether a finished position's handoff has not arrived at the next stage's keel, or not left for another module (R174
condition 4). -/
def handoffLate (s : State) (e : Entry) (r : StageRec) : Bool :=
  !r.sample &&
    ((positionsOf e).any (fun p => posDone e p && !e.handed.contains p) ||
     (r.remote && ((s.linkEnd (portTo s r.nextModule)).queue.any (fun f => payloadOf e.handle f.payload) || crossing s e.handle)))

/-- Whether products of an entry waited because service placed before packing held their tile or panel, or because a correction
of their panel failed its parity (R188, R441). -/
def serviceLate (s : State) (e : Entry) : Bool :=
  e.late == 2 || e.items.any fun i => i.now && !i.done && (itemTiles s e i).any fun t => (s.panelAt (t / 8)).corrBad

/-- What the decision finds of an entry at a stage. -/
def sealWhy (s : State) (e : Entry) (r : StageRec) : SealWhy :=
  let left := e.items.filter fun i => !i.done
  if stackStopped s r.keel then .dwell
  else if left.isEmpty && e.late == 0 && handoffDone s e r then .seal
  else if serviceLate s e then .slip .service
  else if wideCarried s e.id != 0 then .slip .wide
  else if rowsCarried s e != 0 || deltaCarried s e then .slip .tail
  else if e.late = 1 || left.any (fun i => i.admitted.isSome) then .slip .overrun
  else if !left.isEmpty && !handoffLate s e r then .dwell
  else .slip .handoff

/-- A stage overruns in this tick: counted once, with its event (R189). -/
def stageOverrun (s : State) (st k : Nat) : State :=
  let x := s.stage st
  if x.lastOver = some s.tick.edges then s
  else
    let s1 := s.onStage st fun x => { x with overruns := satAdd 16 x.overruns 1, lastOver := some s.tick.edges }
    if quietLong s x.lastOver then event0 s1 0x0005 (toLe 1 st ++ toLe 1 k) else s1

/-- Count a slip of a cause on a keel (R198). -/
def countSlip (c : Cause) (x : KeelCtr) : KeelCtr :=
  match c with
  | .service => { x with slipService := satAdd 32 x.slipService 1 }
  | .wide => { x with slipWide := satAdd 32 x.slipWide 1 }
  | .tail => { x with slipTail := satAdd 32 x.slipTail 1 }
  | .overrun => { x with slipOverrun := satAdd 32 x.slipOverrun 1 }
  | .handoff => { x with slipHandoff := satAdd 32 x.slipHandoff 1 }

/-- Note what an entry carries out of the tick: flags, counters and the stage's event (R128, R135, R139, R157, R278). -/
def noteCarried (s : State) (e : Entry) (st k : Nat) : State :=
  let w := wideCarried s e.id
  let n := rowsCarried s e
  let fl := (if w = 0 then 0 else flWideSlip) ||| (if n = 0 && !deltaCarried s e then 0 else flTailSlip)
  let s1 := (onArith s e.id fl).onKeel k fun x =>
    { x with wideSlips := satAdd 32 x.wideSlips w, tailSlips := satAdd 32 x.tailSlips n }
  if w = 0 then s1 else stageWideSlip s1 st k

/-- The flight of an entry's stage has its positions that were packed in the tick; cancelled ones too (R198, R267). -/
def countFlight (s : State) (e : Entry) (st : Nat) : State :=
  let ps := (positionsOf e).countP fun p => e.items.any fun i => i.pos == p && i.now
  s.onStage st fun x => { x with posNow := x.posNow + ps, entNow := x.entNow + (if ps = 0 then 0 else 1) }

/-- The seal mark of a handoff to a stage on another keel goes there in the control class (R25, R170). -/
def sendSealMark (s : State) (e : Entry) (r : StageRec) : State :=
  if r.sample || r.remote then s
  else
    match (s.model e.model).stages[r.nextStage]? with
    | none => s
    | some n => if n.keel = r.keel then s else sendBridle s r.keel n.keel 0 (.ctrl (.sealMark e.handle r.nextStage))

/-- The decision on one entry, recorded (R187–R191, R198). -/
def decideEntry (k : Nat) (s : State) (id : Nat) : State :=
  match s.entry id with
  | none => s
  | some e =>
    match entryStage s e with
    | none => s
    | some r =>
      let st := entryStageIndex s e
      if r.keel ≠ k then s
      else if e.masked then countFlight s e st
      else
        let s0 := countFlight s e st
        match sealWhy s e r with
        | .seal => sendSealMark (s0.onEntry id fun e => { e with sealing := true }) e r
        | .dwell =>
          (s0.onEntry id fun e => { e with dwell := satAdd 16 e.dwell 1 }).onStage st fun x =>
            { x with dwellNow := x.dwellNow + 1 }
        | .slip c =>
          let s1 := (s0.onEntry id fun e => { e with slip := satAdd 16 e.slip 1 }).onKeel k (countSlip c)
          let s2 := s1.onStage st fun x => { x with slipped := satAdd 16 x.slipped 1 }
          let s3 := noteCarried s2 e st k
          if c = .overrun then stageOverrun s3 st k else s3

/-- Module stage indices of the stages on a keel (R565). -/
def keelStages (s : State) (k : Nat) : List Nat :=
  s.models.flatMap fun e =>
    if isPlaced e.2 then (e.2.stages.filter fun r => r.keel == k).map fun r => e.2.base + r.stage else []

/-- SEAL_DECISION: a keel decides once in a tick (R174). -/
def sealDecision (k : Nat) (s : State) : State :=
  if !s.boot.ready || s.pipe.decided.contains k then s
  else
    let s1 := replaysToWide s k
    let s2 := (s1.pipe.entries.map Entry.id).foldl (decideEntry k) s1
    let depth := ((s2.pipe.entries.filter fun e => entryKeel s2 e == some k && !e.masked).map fun e => wideCarried s2 e.id).sum
    (s2.onKeel k fun x => { x with wqDepth := depth, wqPeak := max x.wqPeak depth }).onPipe fun q =>
      { q with decided := q.decided ++ [k] }

def execSealDecision (k : Nat) (s : State) : Host.Outcome State Fault Refusal :=
  guarded (Instr.wf (.sealDecision k)) s (sealDecision k s)

/-! The exposure log (R448–R450). -/

/-- The panels of a stage (R320, R450). -/
def stagePanels (s : State) (st : Nat) : List Nat :=
  s.models.flatMap fun e =>
    match e.2.stages.find? fun r => e.2.base + r.stage == st && isPlaced e.2 with
    | none => []
    | some r =>
      let units := (stageUnits r).filterMap fun u => e.2.units.find u
      let slots := (List.range r.slotCount).map (r.slotFirst + ·) ++
        units.flatMap fun p => (List.range p.count).map (p.first + ·)
      ((distinct slots).filterMap (slotPanel s r.keel)).filter fun p => panelStage s p == some st

/-- A record is replaced: panels whose last good spot check is older overflow, and EXPOSURE_FULL names the oldest, once
until its next good check (R450). -/
def exposureLost (s : State) (st : Nat) (r : ExpRec) : State :=
  let l := (stagePanels s st).filter fun p => decide ((s.panelAt p).good.toNat < r.tick.toNat)
  let s1 := l.foldl (fun s p => s.onPanel p fun x => { x with overflow := true }) s
  match sortBy (fun a b => lexLt [(s.panelAt a).good.toNat, a] [(s.panelAt b).good.toNat, b]) l with
  | [] => s1
  | p :: _ =>
    if (s.panelAt p).fullRaised then s1
    else event0 (s1.onPanel p fun x => { x with fullRaised := true }) 0x0013 (toLe 4 p)

/-- Append a record at a stage's seal (R448). -/
def exposureAppend (s : State) (e : Entry) (st : Nat) : State :=
  let l := s.pipe.expo.get [] st
  let r : ExpRec := { handle := e.handle, first := e.first, count := e.count, stage := st, tick := s.now }
  let put := fun (s : State) (l : List ExpRec) => s.onPipe fun q => { q with expo := q.expo.set st (l ++ [r]) }
  match l with
  | old :: rest => if l.length < 4096 then put s l else put (exposureLost s st old) rest
  | [] => put s []

/-! TOKEN records (R255, R395). -/

/-- Emit a token: its TOKEN record becomes due, if its command is still outstanding (R255, R377, R395). -/
def emitToken (s : State) (e : Entry) (tok pos : Nat) (isDraft bonus : Bool) (stop : Nat) : State :=
  match findOut s e.spool e.seq with
  | none => s
  | some o =>
    let w := tok % 262144 + b2n isDraft * 2 ^ 18 + b2n bonus * 2 ^ 19 + b2n (s.sess e.sess).mixed * 2 ^ 20 + stop * 2 ^ 21 +
      e.arith.toNat % 256 * 2 ^ 24
    pushDue (onOut s e.spool e.seq fun o => { o with tokens := o.tokens + 1 }) e.spool
      { opcode := o.opcode, cls := 3, code := 0, seq := o.number, handle := e.handle, tick := s.now,
        results := toLe 4 w ++ toLe 4 pos ++ toLe 2 e.dwell ++ toLe 2 e.slip, dup := false } none none

/-! Steps that end (R252–R257, R263–R266). -/

/-- Positions written by a step that has sealed at the last stage: LENGTH, HISTORY, and what SESSION_QUERY reports of the
step (R191, R241, R252). -/
def sealPositions (s : State) (e : Entry) (n : Nat) : State :=
  s.onSess e.sess fun x =>
    { x with length := e.first + n, history := last256 (x.history ++ e.tokens.take n), lastArith := e.arith,
             lastDwell := e.dwell, lastSlip := e.slip, lastTick := s.now }

/-- Set PENDING. -/
def setPend (s : State) (i : Nat) (p : Option Nat) : State := s.onSess i fun x => { x with pend := p }

/-- The stop code of a decode step: the first condition of R253 that holds, with the STOP_SET of the step's start (R245), then a
cut-over (R316). -/
def stepStop (x : Session) (r : Run) (e : Entry) : Nat :=
  match e.token with
  | none => 7
  | some t =>
    if e.stops.contains t then 2
    else if e.first + 1 = x.maxCtx then 3
    else if r.emitted + 1 = r.total then 1
    else if e.cutStop then 4
    else 0

/-- A decode step seals its token (R252, R253). -/
def finishDecode (s : State) (e : Entry) (r : Run) : State :=
  let stop := stepStop (s.sess e.sess) r e
  let s1 := setPend (sealPositions s e 1) e.sess e.token
  let s2 := s1.onSess e.sess fun x =>
    { x with run := x.run.map fun r => { r with emitted := r.emitted + 1, left := r.left - 1 } }
  let s3 := endEntry s2 e
  let s4 := match e.token with
    | none => s3
    | some t => emitToken s3 e t (e.first + 1) false false stop
  if stop != 0 || decide (r.left ≤ 1) then endRun s4 e.sess 0 stop else s4

/-- PENDING once a prefill entry has sealed and more of its command follow: the token that comes next (R248). -/
def prefillPend (s : State) (e : Entry) (r : Run) : Option Nat :=
  match s.pipe.entries.find? fun x => x.sess == e.sess && x.first == e.first + e.count with
  | some x => x.tokens.head?
  | none => r.tokens.head?

/-- A prefill or recompute entry seals at the last stage (R248, R252, R257, R317). -/
def finishPrefill (s : State) (e : Entry) (r : Run) : State :=
  let ended := r.tokens.isEmpty && !(s.pipe.entries.any fun x => x.sess == e.sess && x.id != e.id)
  let redo := r.kind == .recompute
  let pend := if redo then r.keep else if !ended then prefillPend s e r else if e.sample then e.token else none
  let whole := redo && e.last && !e.cutStop && e.first + e.count == r.total
  let s1 := (setPend (sealPositions s e e.count) e.sess pend).onSess e.sess fun x =>
    { x with kvStale := x.kvStale && !whole }
  let s2 := endEntry s1 e
  let s3 := match e.token with
    | none => s2
    | some t => if e.sample then emitToken s2 e t (e.first + e.count) false false 6 else s2
  let stop := if e.sample then (if e.noLogit then 7 else 6) else if e.cutStop then 4 else 0
  if ended then endRun s3 e.sess 0 stop else s3

/-- Truncate a session's main and draft models after a verify (R265, R266). -/
def rollBack (s : State) (i n : Nat) : State :=
  let x := s.sess i
  let s1 := truncPages s (s.model (modelOf x)) x.runs n
  match draftOf x with
  | none => s1
  | some d =>
    let m := min n x.draftLen
    (truncPages s1 (s1.model d) x.druns m).onSess i fun x => { x with draftLen := m }

/-- The main entry of SPEC_VERIFY seals (R265, R266). -/
def finishVerify (s : State) (e : Entry) (r : Run) : State :=
  let a := e.accepted
  let s1 := setPend (sealPositions s e (a + 1)) e.sess e.token
  let s2 := endEntry (rollBack s1 e.sess (e.first + a + 1)) e
  let s3 := (List.range a).foldl
    (fun s i => emitToken s e (r.drafts.getD i 0) (e.first + i + 1) true false (if e.noLogit && i + 1 == a then 7 else 0)) s2
  let s4 := match e.token with
    | none => s3
    | some t => emitToken s3 e t (e.first + a + 1) false (a == r.k) 5
  endRun s4 e.sess 0 (if e.noLogit then 7 else 5)

/-- A draft step seals its token (R263); its credits stay reserved for the command's TOKEN records (R368). A draft whose
logits are unusable ends the command with NONFINITE (R259). -/
def finishDraft (s : State) (e : Entry) (r : Run) : State :=
  let s1 := s.onSess e.sess fun x => { x with draftLen := e.first + e.count }
  match e.token with
  | none => endRun (endEntry s1 e) e.sess 0 7
  | some t =>
    if r.tokens.isEmpty then endRun (endEntry s1 e) e.sess 0 (if e.cutStop then 4 else 0)
    else
      let s2 := s1.onSess e.sess fun x =>
        { x with run := x.run.map fun r => { r with drafts := r.drafts ++ [t], held := e.credits } }
      endEntry (s2.onEntry e.id fun e => { e with credits := 0 }) { e with credits := 0 }

/-- A step ends at the SAMPLE stage (R150, R157, R228). -/
def finishEntry (s : State) (e : Entry) (k : Nat) : State :=
  let bit := fun (f : W16) => if e.arith &&& f = 0 then 0 else 1
  let s1 := s.onKeel k fun x =>
    { x with nanSteps := satAdd 16 x.nanSteps (bit flNan), infSteps := satAdd 16 x.infSteps (bit flInf) }
  match (s1.sess e.sess).run with
  | none => endEntry s1 e
  | some r =>
    match e.kind with
    | .decode => finishDecode s1 e r
    | .prefill => finishPrefill s1 e r
    | .verify => finishVerify s1 e r
    | .draft => finishDraft s1 e r

/-! Seals that take effect (R171 step 2). -/

/-- Whether an entry that leaves this module at a stage comes back to a later stage of its map here (R180). -/
def comesBack (m : Model) (r : StageRec) : Bool :=
  m.stages.any fun x => x.sample || decide (r.layerFirst < x.layerFirst && 0 < x.layerCount)

/-- A position begins its next stage with the hidden vector as the boundary's format carries it (R152–R154). -/
def nextCtx (s : State) (e : Entry) (r : StageRec) (pos : Nat) : PosCtx :=
  let b := (handoffData r.outE4m3 (s.ctxAt e.id pos).hidden).flatMap Prod.fst
  let v := handoffVector r.outE4m3 (entryHidden s e) b
  { PosCtx.init with hidden := v, start := v }

/-- An entry moves to the next stage of this module. -/
def moveEntry (s : State) (e : Entry) (r : StageRec) : State :=
  let s1 := (positionsOf e).foldl
    (fun s p => let c := nextCtx s e r p
                s.onCtx e.id p fun _ => c) s
  s1.onEntry e.id fun e =>
    { e with stage := r.nextStage, sealing := false, items := [], handed := [], readyEdge := s.tick.edges,
             since := s.tick.edges }

/-- An entry leaves for another module: it waits here for its return, or ends (R176, R228). -/
def leaveEntry (s : State) (e : Entry) (r : StageRec) : State :=
  if comesBack (s.model e.model) r then
    (s.onPipe fun q => { q with ctx := q.ctx.filter fun c => c.1 / 2097152 != e.id }).onEntry e.id fun e =>
      { e with away := true, sealing := false, items := [], handed := [] }
  else endEntry (s.onSess e.sess fun x => { x with length := max x.length (e.first + e.count) }) e

/-- One seal takes effect. -/
def takeSeal (s : State) (id : Nat) : State :=
  match s.entry id with
  | none => s
  | some e =>
    match entryStage s e with
    | none => s
    | some r =>
      let s1 := exposureAppend s e (entryStageIndex s e)
      if r.sample then finishEntry s1 e r.keel
      else if r.remote then leaveEntry s1 e r
      else moveEntry s1 e r

/-- The seals decided in the ending tick. -/
def takeSeals (s : State) : State := ((s.pipe.entries.filter Entry.sealing).map Entry.id).foldl takeSeal s

end Sys2Proof.Machine
end

