-- ==== Sys2Proof/Machine/Edge.lean ====
section
/-!
DEFINITION. The tick edge (R81, R86, R94, R98, R105, R116, R160–R171, R183, R185, R198, R226, R269, R348, R398, R442, R451,
R464, R506, R525): the seals, the changes that wait for an edge, the entries that become ready, and the new tick's flights.
-/
namespace Sys2Proof.Machine

/-! Changes that take effect (R171 step 4). -/

/-- SET_OPTION values take effect (R398). -/
def applyOptions (s : State) : State :=
  s.onOpts fun o => { o with force := o.pend.foldl (fun t p => t.set p.1 p.2) o.force, pend := [] }

/-- Whether a product ran on a panel in the ending tick (R86). -/
def panelRan (s : State) (p : Nat) : Bool := s.pipe.ran.any fun t => t / 8 == p

/-- Whether a CAL_WRITE of a panel takes effect at this seal (R86, R419). -/
def hostWins (s : State) (acts : List EdgeAct) (p : Nat) : Bool :=
  !panelRan s p && acts.any fun a => match a with
    | .corrections q _ _ _ _ true => q == p
    | _ => false

/-- Corrections take effect and the panel is calibrated (R81, R86). -/
def adoptCorrections (s : State) (p : Nat) (o gc gt : List F16) : State :=
  s.onPanel p fun x => { x with cal := true, o := o, gc := gc, gt := gt, corrBad := false }

/-- An agreed recalibration ends DRIFT, the run of disagreements and the tries that follow a write, and renews the drift references,
from which the figures follow (R73, R74, R83, R84). -/
def noteAgreed (s : State) (p : Nat) (refs : List (Nat × Int × Int)) : State :=
  refs.foldl
    (fun s r => driftCheck (s.onTile r.1 fun x => { x with ladderRef := (r.2.1, 65536), zeroRef := (r.2.2, 256) }) r.1)
    (s.onPanel p fun x =>
      { x with drift := false, disRun := 0, agreeTot := satAdd 16 x.agreeTot 1, lastAgreed := s.now, fresh := false })

/-- Blocks that have still to run on a panel that has been exchanged run on the spare (R327); a product that waits for its spot
check stays that of the panel on which it ran (R446). -/
def movePhys (s : State) (p q : Nat) : State :=
  s.onPipe fun x =>
    { x with ctx := x.ctx.mapAll fun _ c =>
        { c with blocks := c.blocks.map fun b => if b.phys / 8 = p && b.st.runs then { b with phys := 8 * q + b.phys % 8 } else b } }

/-- TICK_ROLE and TICK_IN_COMP take effect (R161, R169). TICK_ALIGN.SKEW keeps the last phase error of a module that leaves the
FOLLOWER role: R198 gives SKEW no other value (the model's choice, log 107). -/
def applyRole (s : State) (role comp : Nat) : State :=
  let s1 := s.onOpts fun o => { o with force := (o.force.set oTickRole role).set oTickInComp comp }
  s1.onTick fun t =>
    if t.role = role then { t with comp := comp }
    else { t with role := role, comp := comp, locked := false, holdover := false, missed := 0, lockRun := 0, master := none,
                  adopt := false }

/-- The end of a SESSION_CANCEL (R269, R270): the session's work ends, and the command's DONE follows. -/
def endCancel (s : State) (i sp : Nat) (seq : W32) (free : Bool) : State :=
  if (s.sess i).st = .closed then finish s sp seq 0 []
  else
    let s1 := cancelSession s i free
    finish s1 sp seq 0 (sessResult (s1.sess i) 0 0)

/-- REFRESH_POLICY takes effect on the dies it names. The option's value is then the one it gave last: GET_OPTION gives one value for
the 32 dies (R105, R399, R400; log 141). -/
def setDivisor (s : State) (dies div : Nat) : State :=
  let s1 := (maskBits dies 32).foldl (fun s d => s.onDie d fun x => { x with divisor := div }) s
  if (maskBits dies 32).isEmpty then s1 else s1.onOpts fun o => { o with force := o.force.set oRefreshDivisor div }

/-- One change at an edge; `acts` are all of this edge. Those that must wait go back to the list. -/
def applyAct (acts : List EdgeAct) (s : State) (a : EdgeAct) : State :=
  match a with
  | .refresh dies div => setDivisor s dies div
  | .trims p es temp =>
    s.onPanel p fun x => { x with trims := some es, trimTemp := temp, cal := false, o := [], gc := [], gt := [] }
  | .policy p pol => s.onPanel p fun x => { x with policy := pol }
  | .clearSuspect p => clearSuspect s p
  | .retire p => retirePanel s p
  | .remap p q => movePhys (exchangePanels s p q) p q
  | .adcSeq b => s.onAdc fun x => sequenceEdge x b
  | .thermal b => s.onThermal fun x => { x with block := b }
  | .corrections p o gc gt refs byHost =>
    if byHost && panelRan s p then atEdge s [a]
    else if byHost then (if calReady s p then adoptCorrections s p o gc gt else s)
    else noteAgreed (if hostWins s acts p then s else adoptCorrections s p o gc gt) p refs
  | .substitution t es => s.onTile t fun x => { x with red := es }
  | .tickCfg role comp => applyRole s role comp
  | .finish sp seq code res => finish s sp seq code res
  | .calWriteDone sp seq p =>
    if panelRan s p then atEdge s [a] else finish s sp seq (if calReady s p then 0 else 0x020C) []
  | .attest sp seq => measureReport s sp seq
  | .measure i nonce => measureSpdm s i nonce
  | .cancel i sp seq free => endCancel s i sp seq free
  | .closeSpool t sp seq => closeAtEdge s t sp seq
  | .freeAdapter kind i => freeAdapter kind i s

/-- Whether a change takes effect at the seal that ends the tick, before those of the boundary (R81, R86). -/
def EdgeAct.atSeal : EdgeAct → Bool
  | .corrections .. => true
  | _ => false

/-- The changes that wait for an edge. -/
def setActs (s : State) (l : List EdgeAct) : State := s.onTick fun t => { t with acts := l }

/-- The changes of the seal that ends the tick, in the order they were asked for: they belong to step 2 of R171 (R81, R86). The
others wait on. -/
def applySealed (s : State) : State :=
  let acts := s.tick.acts
  let s1 := (acts.filter EdgeAct.atSeal).foldl (applyAct acts) (setActs s [])
  setActs s1 ((acts.filter fun a => !a.atSeal) ++ s1.tick.acts)

/-- Every other change that waits for this edge, with the exchanges of the spares that the seal finds calibrated (R327). A CAL_WRITE
whose panel ran a product waits on (R86). -/
def applyActs (s : State) : State :=
  let acts := s.tick.acts
  let s1 := settleRemaps acts (setActs s [])
  ((acts.filter fun a => !a.atSeal) ++ s1.tick.acts).foldl (applyAct acts) (setActs s1 (acts.filter EdgeAct.atSeal))

/-- Commands that wait for what an edge finds complete. -/
def settleAll (s : State) : State := settleCalRuns (settleRedundancy (settleWrites s))

/-! Quota windows (R183). -/

/-- QUOTA_WINDOW_END: a window that has lasted QUOTA_WINDOW ticks starts again. -/
def quotaWindowEnd (s : State) : State :=
  if s.tick.quotaEdge + opt s oQuotaWindow ≤ s.tick.edges then
    (s.onPipe fun q => { q with quota := [] }).onTick fun t => { t with quotaEdge := s.tick.edges }
  else s

def execQuotaWindowEnd (s : State) : Host.Outcome State Fault Refusal :=
  guarded (Instr.wf .quotaWindowEnd) s (quotaWindowEnd s)

/-! Views as of the seal (R116, R464). -/

/-- What a snapshot captures of a panel (R116). -/
def takeSnap (s : State) (p : Nat) : Snap :=
  let x := s.panelAt p
  let ts := (panelTiles p).map s.tileAt
  { state := x.disRun * 16777216 + 16 * b2n (ts.any Tile.unverified) + 8 * b2n x.calUrgent + 4 * b2n x.drift +
      2 * b2n (ts.any fun t => t.red.any redValid) + b2n x.cal,
    last := x.lastAgreed, counts := x.disTot * 65536 + x.agreeTot, o := x.o, gc := x.gc, gt := x.gt,
    drifts := ts.map fun t => (t.gainDrift, t.offDrift), trims := trimsOf s p, red := ts.map Tile.red }

/-- Pending snapshots are taken (R116). -/
def takeSnaps (s : State) : State :=
  s.onArr fun a =>
    { a with wins := a.wins.mapAll fun _ w => match w.busy with
        | none => w
        | some p => { w with busy := none, valid := true, tick := s.now, snap := takeSnap s p } }

/-- The exposure and capture windows show this seal (R464), and SPOT_MAX_AGE this edge. -/
def showSeal (s : State) : State :=
  let age := ((holdingPanels s).map fun p => s.tick.edges - (s.panelAt p).goodEdge).foldl max 0
  s.onChk fun k =>
    { k with
      shown := true
      seenModels := s.models.mapAll fun _ m => { m with bytes := [], pendB := none, bank := [] }
      seenPlaces := s.arr.places
      seen := s.arr.panels.mapAll fun _ x => { good := x.good, failed := x.failed, overflow := x.overflow, policy := x.policy }
      seenSuspect := (s.arr.tiles.filter fun e => e.2.suspect).map Prod.fst
      seenCaps := k.captures
      seenLost := k.lost
      spotMaxAge := age }

/-- The longest stay of an entry now at each stage; an index that holds no stage any more shows no flight and no stay
(R198). -/
def longestStay (s : State) : State :=
  let placed := (List.range 8).flatMap (keelStages s)
  let stay := fun (st : Nat) =>
    ((s.pipe.entries.filter fun e => !e.away && entryStageIndex s e == st).map fun e => s.tick.edges - e.since).foldl max 0
  let s1 := s.onPipe fun q =>
    { q with stages := q.stages.mapAll fun st x =>
        if placed.contains st then x
        else { x with positions := 0, entries := 0, dwelling := 0, posNow := 0, entNow := 0, dwellNow := 0, longest := 0 } }
  placed.foldl (fun s st => s.onStage st fun x => { x with longest := stay st }) s1

/-! One tick ends and the next begins. -/

/-- Whether the oldest record due on a spool can be written now. -/
def canWrite (s : State) (p : Nat) : Bool :=
  match (s.spool p).due with
  | [] => false
  | d :: _ => writesRecords s p && !closeWaits s p d

/-- The records that must be written before the tick after the one that made them ends: TOKEN, and the DONE of SESSION_CANCEL (R30,
R270). -/
def mustWrite (r : Rec) : Bool := r.cls == 3 || (r.cls == 0 && r.opcode == 0x23)

/-- Whether such a record is due on a spool that can take it. -/
def tokensDue (s : State) (p : Nat) : Bool := writesRecords s p && (s.spool p).due.any fun d => mustWrite d.record

/-- The spool whose oldest record is written next so that every record of `mustWrite` is: one with such a record due, or else one
that a closing record waits for (R348). -/
def tokenSpool (s : State) : Option Nat :=
  let l := s.spools.map Prod.fst
  match l.find? fun p => tokensDue s p && canWrite s p with
  | some p => some p
  | none => if l.any (tokensDue s) then l.find? (canWrite s) else none

/-- The TOKEN records that the seals of the tick before brought, and the DONE of a cancel, are written before the tick ends, with what
is due before them on their spools (R30, R270); each round writes one record. -/
def writeTokens : Nat → State → State
  | 0, s => s
  | n + 1, s =>
    match tokenSpool s with
    | none => s
    | some p => writeTokens n (statusRecordWrite p true s)

/-- The records that are due on all spools. -/
def dueCount (s : State) : Nat := (s.spools.map fun e => e.2.due.length).sum

/-- Seal decisions that no keel has taken yet are taken as the tick ends. -/
def decideAll (s : State) : State := (List.range 8).foldl (fun s k => sealDecision k s) s

/-- Whether any stage overran in the ending tick (R189, R198). -/
def overran (s : State) : Bool := s.pipe.stages.any fun e => e.2.lastOver == some s.tick.edges

/-- The length by which a follower changes the tick that begins: at most 100 ns (R165). -/
def clampAdjust (role : Nat) (adjust : Int) : Int := if role = 2 then max (-100) (min 100 adjust) else 0

/-- Step 1 of R171, with what counts edges: the ending tick's length, a follower's missing TICK_IN edges, overrun ticks. -/
def beginTick (adjust : Int) (s : State) : State :=
  let late := overran s
  let ns := if s.tick.edges = 0 then 0 else tickNs s
  (countEdge s).onTick fun t =>
    { t with edges := t.edges + 1, time := t.time + ns, adjust := clampAdjust t.role adjust,
             missed := if t.role = 2 then t.missed + 1 else 0,
             overruns := if late then satAdd 32 t.overruns 1 else t.overruns }

/-- The counters of the tick start again; those of the ending tick stay readable (R120, R157, R198). -/
def rollCounters (x : KeelCtr) : KeelCtr :=
  { x with
    tailLoad := 1024 * x.wideUsed + x.tailUsed + x.deltaUsed + x.spotUsed + x.extraUsed
    products := x.productsNow
    kvBytes := x.kvNow
    tailUsed := 0
    wideUsed := 0
    deltaUsed := 0
    spotUsed := 0
    extraUsed := 0
    productsNow := 0
    kvNow := 0
    reelUsed := 0 }

/-- The flight of a stage in the tick just sealed becomes that of the last tick (R198). -/
def rollStage (x : StageStat) : StageStat :=
  { x with positions := x.posNow, entries := x.entNow, dwelling := x.dwellNow, posNow := 0, entNow := 0, dwellNow := 0 }

/-- The pipeline's notes of the ending tick are cleared. -/
def clearTick (s : State) : State :=
  s.onPipe fun q =>
    { q with stages := q.stages.mapAll fun _ x => rollStage x, keels := q.keels.mapAll fun _ x => rollCounters x, ran := [], decided := [], plan := [],
             entries := q.entries.map fun e => { e with late := 0 } }

/-- Blocks that wait for a product on a panel that no longer runs any go to wide mode at rank 5 (R84, R451). -/
def forceWide (s : State) : State :=
  s.onPipe fun q =>
    { q with ctx := q.ctx.mapAll fun _ c =>
        { c with blocks := c.blocks.map fun b =>
            if b.st = .fresh && panelForced s (b.phys / 8) then { b with st := .wide 5, edge := s.tick.edges } else b } }

/-- The master sends its count once every 256 ticks (R166). -/
def sendCount (s : State) : State :=
  if s.tick.role = 1 && s.tick.edges % 256 == 0 then broadcast s 0 (.countBroadcast s.now) else s

/-- Panels of a keel that hold weights and have products placed in the tick (R442). -/
def placedPanels (s : State) (k : Nat) : List Nat :=
  let ts := s.pipe.entries.flatMap fun e =>
    if entryKeel s e = some k then (e.items.filter fun i => i.now && !i.done).flatMap (itemTiles s e) else []
  sortBy (fun a b => decide (a < b)) (distinct (ts.map fun t => t / 8))

/-- The two panels that a keel spot-checks: due ones, the oldest first, then the rotation (R442). -/
def chooseSpots (s : State) (k : Nat) : State :=
  let ps := placedPanels s k
  let due := sortBy (fun a b => decide ((s.panelAt a).goodEdge < (s.panelAt b).goodEdge)) (ps.filter fun p => (s.panelAt p).spotDue)
  let n := s.chk.spotNext.get 0 k
  let rest := ps.filter fun p => !due.contains p
  let turn := (rest.filter fun p => decide (n ≤ p)) ++ rest.filter fun p => decide (p < n)
  let own := turn.take (2 - min 2 due.length)
  s.onChk fun c =>
    { c with spotPanels := c.spotPanels ++ due.take 2 ++ own,
             spotNext := match own.getLast? with
               | none => c.spotNext
               | some p => c.spotNext.set k (p + 1) }

/-- Spot-check panels of every keel. -/
def spotChoice (s : State) : State :=
  (List.range 8).foldl chooseSpots (s.onChk fun c => { c with spotPanels := [] })

/-- Records due at the edge of a supply stop are written while link 0 is up (R506). -/
def writeAll : Nat → State → State
  | 0, s => s
  | n + 1, s =>
    match s.spools.find? fun e => canWrite s e.1 with
    | none => s
    | some e => writeAll n (statusRecordWrite e.1 true s)

/-- The stop of R506 at the edge that ends the tick: no packing, records due, then no power; an NV pulse ends first (R538). -/
def supplyStop (s : State) : State :=
  startReset (if linkUp s 0 then writeAll (dueCount s) s else s) .brownout

/-- What must end with the tick, then steps 1 to 5 of R171. -/
def edgeChanges (adjust : Int) (s : State) : State :=
  let s0 := freeAdapters (endHalves (decideAll (writeTokens (dueCount s) s)))
  let s1 := replaceEdge (applySealed (takeSeals (beginTick adjust s0)))
  let s2 := powerEdge (applyActs (applyOptions s1))
  let s3 := clearTick (applyPeriod (dropMasked s2))
  quotaWindowEnd (returnFrames s3)

/-- Steps 6 to 8: entries become ready, service and flights are placed, spot checks chosen. -/
def edgeFlights (s : State) : State :=
  spotChoice (packAll (judgeRefresh (forceWide (readyEdge s))))

/-- TICK_EDGE (R171): the tick in progress ends and the next begins. -/
def tickEdge (adjust : Int) (s : State) : State :=
  if !s.boot.ready then s
  else
    let s1 := edgeChanges adjust s
    if s1.supply.stopping then supplyStop s1
    else longestStay (showSeal (takeSnaps (settleAll (edgeFlights (sendCount (nextPulse s1))))))

def execTickEdge (adjust : Int) (s : State) : Host.Outcome State Fault Refusal :=
  guarded (Instr.wf (.tickEdge adjust)) s (tickEdge adjust s)

end Sys2Proof.Machine
end

