-- ==== Sys2Proof/Machine/Arrive.lean ====
section
/-!
DEFINITION. Frames that arrive (R24, R25, R153, R166, R167, R176, R227, R267, R474–R480, R499): the check, the order, and
what a frame delivers.
-/
namespace Sys2Proof.Machine

/-- The 8-byte header of a frame with a payload of `len` bytes (R477). -/
def frameHeader (f : Frame) (len : Nat) : List Byte :=
  toLe 1 (f.cls * 16 + f.typ) ++ toLe 1 (f.srcKeel * 16 + f.dest) ++ toLe 2 f.seq ++ toLe 2 (b2n f.nak * 4096 + f.ack) ++ toLe 2 len

/-- The frame that a header spells, with what its payload says (R477). -/
def headerFrame (raw : List Byte) (p : Payload) : Frame where
  cls := byteAt raw 0 / 16 % 4
  typ := byteAt raw 0 % 16
  srcKeel := byteAt raw 1 / 16 % 8
  dest := byteAt raw 1 % 16
  seq := le raw 2 2 % 4096
  nak := bitOf (le raw 4 2) 12
  ack := le raw 4 2 % 4096
  payload := p

/-- LENGTH of a header. -/
def frameLength (raw : List Byte) : Nat := le raw 6 2

/-- The algorithm of a link's frames, as R500 numbers it, and its bytes: CRC-64 on a chain port, CRC-32C on a bridle link (R477, R485). -/
def linkAlg (l : Nat) : Nat := if isBridle l then 0 else 1
def linkCrcBytes (l : Nat) : Nat := if isBridle l then 4 else 8

/-- What the check value of a frame is computed over: header and payload. -/
def checkedBytes (raw : List Byte) : List Byte := raw.take (8 + frameLength raw)

/-- Whether a frame as received passes its check: LENGTH is at most 4,096 and fits what came, and the check value after header and
payload is that of R486. Reserved bits are as R477 has them; a frame that breaks them fails (log 147). -/
def frameGood (l : Nat) (raw : List Byte) : Bool :=
  let n := frameLength raw
  decide (n ≤ 4096) && raw.length == 8 + n + linkCrcBytes l && decide (byteAt raw 0 < 48) && decide (byteAt raw 0 % 16 < 3) &&
  decide (byteAt raw 1 < 128) && (!isBridle l || decide (byteAt raw 1 % 16 < 8)) && decide (le raw 2 2 < 4096) && decide (le raw 4 2 < 8192) &&
  crc (crcOfNat (linkAlg l)) (checkedBytes raw) == le raw (8 + n) (linkCrcBytes l)

/-! What a frame delivers (R176, R227, R478). -/

/-- Data of a handoff joins what has arrived for its position. -/
def addArrival (s : State) (a : Arrival) : State :=
  let same := fun (x : Arrival) => x.handle == a.handle && x.stage == a.stage && x.pos == a.pos
  s.onPipe fun q =>
    if q.arrivals.any same then
      { q with arrivals := q.arrivals.map fun x => if same x then { x with data := x.data ++ a.data, flags := x.flags ||| a.flags } else x }
    else { q with arrivals := q.arrivals ++ [a] }

/-- A handoff between keels: once every record of a position has arrived, that position is handed on (R153, R174). -/
def handoffHere (s : State) (a : Arrival) : State :=
  let mine := fun (e : Entry) => e.handle == a.handle && !e.away && decide (e.first ≤ a.pos) &&
    decide (a.pos < e.first + e.count) && (entryStage s e).any fun r => !r.remote && r.nextStage == a.stage
  match s.pipe.entries.find? mine with
  | none => s
  | some e =>
    let s1 := addArrival s a
    let got := (s1.pipe.arrivals.find? fun x => x.handle == a.handle && x.stage == a.stage && x.pos == a.pos).map fun x =>
      x.data.length
    if got.getD 0 < 1028 * ceilDiv (entryHidden s e) 1024 then s1
    else
      (s1.onPipe fun q =>
        { q with arrivals := q.arrivals.filter fun x => !(x.handle == a.handle && x.stage == a.stage && x.pos == a.pos) }).onEntry
        e.id fun e => { e with handed := if e.handed.contains a.pos then e.handed else e.handed ++ [a.pos] }

/-- The seal mark of the first inbound entry of a handle that has none (R176). -/
def markFirst (h : W32) (stage : Nat) : List Inbound → List Inbound
  | [] => []
  | b :: r => if b.handle == h && !b.marked then { b with stage := stage, marked := true } :: r else b :: markFirst h stage r

/-- The mask of a SESSION_CANCEL takes effect here (R267). -/
def maskForeign (s : State) (h : W32) : State :=
  s.onPipe fun q =>
    { q with entries := q.entries.map (fun e =>
               if decide (65536 ≤ e.sess) && e.handle == h && !e.sealing then { e with masked := true } else e)
             arrivals := q.arrivals.filter fun a => !(a.handle == h) || q.entries.any fun e => e.handle == h && decide (e.sess < 65536)
             inbound := q.inbound.filter fun b => !(b.handle == h) || q.entries.any fun e => e.handle == h && decide (e.sess < 65536) }

/-- The session of this module that a handle names. -/
def sessOfHandle (s : State) (h : W32) : Option Nat :=
  (s.sessions.find? fun e => decide (e.1 < 65536) && e.2.st != .closed && handleOf s e.1 == h).map Prod.fst

/-- The other chain port. -/
def farPort (port : Nat) : Nat := if port = 1 then 2 else 1

/-- Pass a control frame on out of the far chain port: it crosses the bridle to that port's keel (R25, R474). -/
def passOn (s : State) (port : Nat) (c : Ctrl) : State :=
  let far := farPort port
  match (s.link far).neighbour with
  | none => s
  | some a => sendVia s (portKeel port) far a (ctrlClass c) (.ctrl c)

/-- What another module tells this one (R166, R167, R176, R227, R267, R478). -/
def deliverCtrl (s : State) (port : Nat) (c : Ctrl) : State :=
  match c with
  | .sealMark h st => s.onPipe fun q => { q with inbound := markFirst h st q.inbound }
  | .reserve h first count =>
    s.onPipe fun q =>
      { q with inbound := q.inbound ++ [{ handle := h, stage := 0, first := first, count := count, marked := false }] }
  | .countBroadcast n =>
    passOn (if s.tick.role = 2 then s.onTick fun t => { t with master := some n } else s) port (.countBroadcast n)
  | .periodChange p at_ => periodHeard s port p at_
  | .periodAnswer ok => periodAnswered s port ok
  | .periodCancel =>
    if s.tick.role = 2 then passOn (s.onTick fun t => { t with pend := none }) port .periodCancel else s
  | .cancelMask h => passOn (maskForeign s h) port (.cancelMask h)
  | .starved h k n =>
    match sessOfHandle s h with
    | some i =>
      event s (s.sess i).spool 0x0008 h (toLe 1 k ++ zeros 3 ++ toLe 4 n)
    | none => passOn s port (.starved h k n)

/-- A payload for this module has reached the keel it is for. -/
def deliverHere (s : State) (port : Nat) (p : Payload) : State :=
  match p with
  | .ctrl c => deliverCtrl s port c
  | .handoff h ep st first _ fl dw sl f d =>
    addArrival s { handle := h, stage := st, pos := first, epoch := ep, flags := fl, dwell := dw, slip := sl, e4m3 := f, data := d }
  | .bytes _ => s
  | .transit _ _ _ => s

/-- The keel of this module that a payload is for: that of its stage, or that of the port by which it came. -/
def payloadKeel (s : State) (port : Nat) : Payload → Nat
  | .handoff h _ st _ _ _ _ _ _ _ =>
    let mi := match s.pipe.entries.find? fun e => e.away && e.handle == h with
      | some e => some e.model
      | none => foreignModel s
    match mi with
    | none => portKeel port
    | some i => (((s.model i).stages[st]?).map StageRec.keel).getD (portKeel port)
  | _ => portKeel port

/-- A chain frame accepted at a port: traffic for another module goes on to the far port, and traffic for another keel to
that keel, both over the bridle (R25, R474). -/
def deliverChain (s : State) (port : Nat) (f : Frame) : State :=
  if f.dest != s.boot.strapAddr then sendVia s (portKeel port) (farPort port) f.dest f.cls f.payload
  else
    let k := payloadKeel s port f.payload
    if k = portKeel port then deliverHere s port f.payload
    else sendBridle s (portKeel port) k f.cls (.transit f.srcKeel f.dest f.payload)

/-- The chain port of a keel that has one (R25). -/
def keelPort (k : Nat) : Nat := if k = 0 then 1 else 2

/-- A bridle frame accepted at an end: it goes on by its route, or has reached its keel (R24, R25). -/
def deliverBridle (s : State) (k : Nat) (f : Frame) : State :=
  if endKeel k != f.dest % 8 then
    match bridleHop (endKeel k) (f.dest % 8) with
    | none => s
    | some (hop, _) => queueFrame s hop (mkFrame f.cls f.srcKeel f.dest f.payload)
  else
    match f.payload with
    | .transit src dest p =>
      if dest = s.boot.strapAddr then deliverHere s (if f.srcKeel = 0 then 1 else 2) p
      else queueFrame s (keelPort (endKeel k)) (mkFrame f.cls src dest p)
    | .handoff h ep st first _ fl dw sl e4 d =>
      handoffHere s { handle := h, stage := st, pos := first, epoch := ep, flags := fl, dwell := dw, slip := sl, e4m3 := e4, data := d }
    | _ => s

/-! Receiving (R480). -/

/-- A frame that fails its check is counted and discarded; LINK_CRC is written at most once in 4,096 ticks (R480, R499). -/
def badFrame (s : State) (l : Nat) : State :=
  let s1 := s.onLink l fun x => { x with crcErrors := satAdd 32 x.crcErrors 1, discards := x.discards + 1 }
  let x := s1.link l
  let due := match x.crcEdge with
    | none => true
    | some t => decide (t + 4096 ≤ s1.tick.edges)
  if due then
    (faultRec s1 0x0030 (linkSource l) l x.discards).onLink l fun x => { x with discards := 0, crcEdge := some s.tick.edges }
  else s1

/-- What a frame says of the frames sent in the reverse direction: those up to ACK are acknowledged, and NAK has the rest
resent; then waiting frames follow. -/
def takeAck (s : State) (k : Nat) (f : Frame) : State :=
  let s1 := s.onEnd k fun e => ackEnd e f.ack
  pump (if f.nak then resend s1 k else s1) k

/-- A data frame: only the one whose SEQ is one past the last accepted is accepted. -/
def takeData (s : State) (k : Nat) (f : Frame) : State :=
  if f.seq = ((s.linkEnd k).rxLast + 1) % 4096 then
    let s1 := s.onEnd k fun e => { e with rxLast := f.seq, nak := false, sinceAck := e.sinceAck + 1 }
    let s2 := if 64 ≤ (s1.linkEnd k).sinceAck then sendAck s1 k else s1
    if isBridle (endLink k) then deliverBridle s2 k f else deliverChain s2 k f
  else s.onEnd k fun e => { e with nak := true }

/-- The codewords that a chain port's receiver corrected and could not correct since the last frame (R476, R481, R500). -/
def countFec (s : State) (l corrected uncorrected : Nat) : State :=
  if isBridle l then s
  else s.onLink l fun x =>
    { x with fecGood := satAdd 32 x.fecGood corrected, fecBad := satAdd 16 x.fecBad uncorrected,
             fecNow := x.fecNow || decide (0 < uncorrected) }

/-- A frame has been received at an end of a link (R480): what it acknowledges and carries, or that it fails its check. -/
def receiveFrame (s : State) (l k : Nat) (raw : List Byte) (p : Payload) : State :=
  if frameGood l raw then
    let f := headerFrame raw p
    let s1 := takeAck s k f
    let s2 := if f.typ = 0 then takeData s1 k f else s1
    resendFault s2 k
  else (badFrame s l).onEnd k fun e => { e with nak := true }

/-- LINK_FRAME_RECEIVE (R480): the bytes of a frame come in at an end of a link, the upper or the lower of a bridle link; `p` is what
its payload bytes say (log 19). The unit of the end's keel checks it (R487, R488). -/
def linkFrameReceive (l : Nat) (upper : Bool) (raw : List Byte) (corrected uncorrected : Nat) (p : Payload) (s : State) : State :=
  if !linkUp s l || l = 0 then s
  else
    let k := endKey l (upper && isBridle l)
    if (freeCtx s (endKeel k)).isNone then s
    else
      receiveFrame (runStream (countFec (clearWire s l) l corrected uncorrected) (endKeel k) (linkAlg l) (checkedBytes raw)) l k raw p

def execLinkFrameReceive (l : Nat) (upper : Bool) (raw : List Byte) (corrected uncorrected : Nat) (p : Payload) (s : State) :
    Host.Outcome State Fault Refusal :=
  guarded (Instr.wf (.linkFrameReceive l upper raw corrected uncorrected p)) s (linkFrameReceive l upper raw corrected uncorrected p s)

end Sys2Proof.Machine
end

