-- ==== Sys2Proof/Machine/Dispatch.lean ====
section
/-!
DEFINITION. The meaning of every command: one arm per constructor.
-/
namespace Sys2Proof.Machine

/-- The effect of a command on everything but the queue. -/
def exec (i : Instr) (s : State) : Host.Outcome State Fault Refusal :=
  match i with
  | .nop c => Sys2Proof.Machine.execNop c s
  | .identify c addr => Sys2Proof.Machine.execIdentify c addr s
  | .getStatus c => Sys2Proof.Machine.execGetStatus c s
  | .setOption c option value => Sys2Proof.Machine.execSetOption c option value s
  | .getOption c option source => Sys2Proof.Machine.execGetOption c option source s
  | .tickConfig c period ext => Sys2Proof.Machine.execTickConfig c period ext s
  | .syncSignal c counter op value => Sys2Proof.Machine.execSyncSignal c counter op value s
  | .syncWait c counter rel timeout target => Sys2Proof.Machine.execSyncWait c counter rel timeout target s
  | .spoolOpen c sqBase cqBase sqOrder cqOrder firstSeq quotas => Sys2Proof.Machine.execSpoolOpen c sqBase cqBase sqOrder cqOrder firstSeq quotas s
  | .spoolClose c release => Sys2Proof.Machine.execSpoolClose c release s
  | .keepalive c => Sys2Proof.Machine.execKeepalive c s
  | .spoolAdopt c => Sys2Proof.Machine.execSpoolAdopt c s
  | .bundleStage c addr length mode first count keels => Sys2Proof.Machine.execBundleStage c addr length mode first count keels s
  | .modelPlace c stages formats => Sys2Proof.Machine.execModelPlace c stages formats s
  | .modelWrite c => Sys2Proof.Machine.execModelWrite c s
  | .modelCommit c => Sys2Proof.Machine.execModelCommit c s
  | .modelReplace c fate ext => Sys2Proof.Machine.execModelReplace c fate ext s
  | .modelUnload c pend => Sys2Proof.Machine.execModelUnload c pend s
  | .panelRetire c panel => Sys2Proof.Machine.execPanelRetire c panel s
  | .panelRemap c mode panel spare addr => Sys2Proof.Machine.execPanelRemap c mode panel spare addr s
  | .sessionOpen c maxContext steer delta ext => Sys2Proof.Machine.execSessionOpen c maxContext steer delta ext s
  | .sessionPrefill c addr count sample dropPending => Sys2Proof.Machine.execSessionPrefill c addr count sample dropPending s
  | .sessionStep c count => Sys2Proof.Machine.execSessionStep c count s
  | .sessionCancel c free => Sys2Proof.Machine.execSessionCancel c free s
  | .sessionRelease c => Sys2Proof.Machine.execSessionRelease c s
  | .sessionRebind c r => Sys2Proof.Machine.execSessionRebind c r s
  | .sessionFork c ext => Sys2Proof.Machine.execSessionFork c ext s
  | .sessionTruncate c length pend => Sys2Proof.Machine.execSessionTruncate c length pend s
  | .sessionRecompute c addr first count => Sys2Proof.Machine.execSessionRecompute c addr first count s
  | .sessionQuery c addr => Sys2Proof.Machine.execSessionQuery c addr s
  | .specVerify c k rejection list addr => Sys2Proof.Machine.execSpecVerify c k rejection list addr s
  | .adapterLoad c addr length replaces => Sys2Proof.Machine.execAdapterLoad c addr length replaces s
  | .adapterRetire c => Sys2Proof.Machine.execAdapterRetire c s
  | .adapterQuery c => Sys2Proof.Machine.execAdapterQuery c s
  | .steerBankLoad c addr first count => Sys2Proof.Machine.execSteerBankLoad c addr first count s
  | .frameQuota c sessions frames => Sys2Proof.Machine.execFrameQuota c sessions frames s
  | .frameQuery c addr => Sys2Proof.Machine.execFrameQuery c addr s
  | .kvExport c addr limit => Sys2Proof.Machine.execKvExport c addr limit s
  | .kvImport c addr length pend => Sys2Proof.Machine.execKvImport c addr length pend s
  | .calRun c panel keels => Sys2Proof.Machine.execCalRun c panel keels s
  | .calRead c panel addr => Sys2Proof.Machine.execCalRead c panel addr s
  | .calWrite c addr => Sys2Proof.Machine.execCalWrite c addr s
  | .trimRead c first count addr => Sys2Proof.Machine.execTrimRead c first count addr s
  | .trimWrite c addr count => Sys2Proof.Machine.execTrimWrite c addr count s
  | .redundancyLoad c addr count => Sys2Proof.Machine.execRedundancyLoad c addr count s
  | .refreshPolicy c dies divisor => Sys2Proof.Machine.execRefreshPolicy c dies divisor s
  | .testPanel c panel => Sys2Proof.Machine.execTestPanel c panel s
  | .testCore c core => Sys2Proof.Machine.execTestCore c core s
  | .bistRun c keels => Sys2Proof.Machine.execBistRun c keels s
  | .faultRead c addr first count => Sys2Proof.Machine.execFaultRead c addr first count s
  | .exposureRead c panel count addr => Sys2Proof.Machine.execExposureRead c panel count addr s
  | .captureRead c tile addr => Sys2Proof.Machine.execCaptureRead c tile addr s
  | .checkPolicy c panel policy => Sys2Proof.Machine.execCheckPolicy c panel policy s
  | .attest c addr limit nonce => Sys2Proof.Machine.execAttest c addr limit nonce s
  | .imageWrite c addr copy => Sys2Proof.Machine.execImageWrite c addr copy s
  | .keyInfo c addr => Sys2Proof.Machine.execKeyInfo c addr s
  | .adcSequence c addr => Sys2Proof.Machine.execAdcSequence c addr s
  | .adcRead c channels addr => Sys2Proof.Machine.execAdcRead c channels addr s
  | .thermalConfig c addr => Sys2Proof.Machine.execThermalConfig c addr s
  | .supplyStatus c => Sys2Proof.Machine.execSupplyStatus c s
  | .sqTailDoorbell fn spool value => Sys2Proof.Machine.execSqTailDoorbell fn spool value s
  | .cqHeadWrite fn spool value => Sys2Proof.Machine.execCqHeadWrite fn spool value s
  | .spoolCtrlOpen fn spool => Sys2Proof.Machine.execSpoolCtrlOpen fn spool s
  | .spoolCtrlResync fn spool => Sys2Proof.Machine.execSpoolCtrlResync fn spool s
  | .syncCounterWrite fn counter size value => Sys2Proof.Machine.execSyncCounterWrite fn counter size value s
  | .latchedLowRead fn bar offset => Sys2Proof.Machine.execLatchedLowRead fn bar offset s
  | .latchedHighRead fn bar offset => Sys2Proof.Machine.execLatchedHighRead fn bar offset s
  | .calSnap keel => Sys2Proof.Machine.execCalSnap keel s
  | .resetCtrl value => Sys2Proof.Machine.execResetCtrl value s
  | .rewiden link => Sys2Proof.Machine.execRewiden link s
  | .cvuHostPoly u value => Sys2Proof.Machine.execCvuHostPoly u value s
  | .cvuHostInit u => Sys2Proof.Machine.execCvuHostInit u s
  | .cvuHostValueWrite u offset size value => Sys2Proof.Machine.execCvuHostValueWrite u offset size value s
  | .cvuHostData u size value => Sys2Proof.Machine.execCvuHostData u size value s
  | .adcInjectGo value => Sys2Proof.Machine.execAdcInjectGo value s
  | .registerWrite fn bar offset size value => Sys2Proof.Machine.execRegisterWrite fn bar offset size value s
  | .sidebandWrite w => Sys2Proof.Machine.execSidebandWrite w s
  | .sidebandRead addr => Sys2Proof.Machine.execSidebandRead addr s
  | .imageGo => Sys2Proof.Machine.execImageGo s
  | .packetFetch spool pkt block => Sys2Proof.Machine.execPacketFetch spool pkt block s
  | .commandStart spool seq io => Sys2Proof.Machine.execCommandStart spool seq io s
  | .statusRecordWrite spool ok => Sys2Proof.Machine.execStatusRecordWrite spool ok s
  | .syncWaitTimeout spool seq => Sys2Proof.Machine.execSyncWaitTimeout spool seq s
  | .spoolTimeout spool => Sys2Proof.Machine.execSpoolTimeout spool s
  | .tickEdge adjust => Sys2Proof.Machine.execTickEdge adjust s
  | .quotaWindowEnd => Sys2Proof.Machine.execQuotaWindowEnd s
  | .sealDecision keel => Sys2Proof.Machine.execSealDecision keel s
  | .tileProduct k charges badWords => Sys2Proof.Machine.execTileProduct k charges badWords s
  | .productRepeat k charges badWords => Sys2Proof.Machine.execProductRepeat k charges badWords s
  | .splitReplay k lowHalf highHalf badWords => Sys2Proof.Machine.execSplitReplay k lowHalf highHalf badWords s
  | .wideModeBlock k => Sys2Proof.Machine.execWideModeBlock k s
  | .outlierRow k row => Sys2Proof.Machine.execOutlierRow k row s
  | .deltaSection entry pos layer matrix => Sys2Proof.Machine.execDeltaSection entry pos layer matrix s
  | .spotCheck k => Sys2Proof.Machine.execSpotCheck k s
  | .residueRerun keel tail tries entry pos => Sys2Proof.Machine.execResidueRerun keel tail tries entry pos s
  | .drain entry pos layer role => Sys2Proof.Machine.execDrain entry pos layer role s
  | .kvWrite entry pos layer => Sys2Proof.Machine.execKvWrite entry pos layer s
  | .frameCopy session layer index draft => Sys2Proof.Machine.execFrameCopy session layer index draft s
  | .attnPassA entry pos layer shard => Sys2Proof.Machine.execAttnPassA entry pos layer shard s
  | .attnPassB entry pos layer shard => Sys2Proof.Machine.execAttnPassB entry pos layer shard s
  | .attnPassC entry pos layer shard => Sys2Proof.Machine.execAttnPassC entry pos layer shard s
  | .steeringUpdate entry pos layer => Sys2Proof.Machine.execSteeringUpdate entry pos layer s
  | .samplingJob entry => Sys2Proof.Machine.execSamplingJob entry s
  | .acceptanceJob entry => Sys2Proof.Machine.execAcceptanceJob entry s
  | .refreshHalf tile half => Sys2Proof.Machine.execRefreshHalf tile half s
  | .refreshUrgent tile => Sys2Proof.Machine.execRefreshUrgent tile s
  | .recalibration panel a b => Sys2Proof.Machine.execRecalibration panel a b s
  | .calInterval panel => Sys2Proof.Machine.execCalInterval panel s
  | .recalUrgent panel => Sys2Proof.Machine.execRecalUrgent panel s
  | .scrubUnit tile u codes => Sys2Proof.Machine.execScrubUnit tile u codes s
  | .scrubUrgent tile => Sys2Proof.Machine.execScrubUrgent tile s
  | .scrubLate tile => Sys2Proof.Machine.execScrubLate tile s
  | .rowRewrite tile row good => Sys2Proof.Machine.execRowRewrite tile row good s
  | .rewriteUrgent tile => Sys2Proof.Machine.execRewriteUrgent tile s
  | .substitutionWrite tile => Sys2Proof.Machine.execSubstitutionWrite tile s
  | .checkStoreRewrite tile => Sys2Proof.Machine.execCheckStoreRewrite tile s
  | .writePiece tile verified => Sys2Proof.Machine.execWritePiece tile verified s
  | .tileWriteDone tile => Sys2Proof.Machine.execTileWriteDone tile s
  | .panelFieldTest panel dev => Sys2Proof.Machine.execPanelFieldTest panel dev s
  | .coreFieldTest core pass => Sys2Proof.Machine.execCoreFieldTest core pass s
  | .spotCheckDue panel => Sys2Proof.Machine.execSpotCheckDue panel s
  | .dramLineFail keel region offset first reread => Sys2Proof.Machine.execDramLineFail keel region offset first reread s
  | .sramParity keel word content data parity => Sys2Proof.Machine.execSramParity keel word content data parity s
  | .dramArbitration keel chan raised => Sys2Proof.Machine.execDramArbitration keel chan raised s
  | .arbWindowEnd keel chan => Sys2Proof.Machine.execArbWindowEnd keel chan s
  | .cutOver model => Sys2Proof.Machine.execCutOver model s
  | .shadowWriteStart model unit => Sys2Proof.Machine.execShadowWriteStart model unit s
  | .layerSwitched model unit => Sys2Proof.Machine.execLayerSwitched model unit s
  | .adapterFree kind index => Sys2Proof.Machine.execAdapterFree kind index s
  | .periodChange => Sys2Proof.Machine.execPeriodChange s
  | .followerAnswerTimeout => Sys2Proof.Machine.execFollowerAnswerTimeout s
  | .tickInEdge phase => Sys2Proof.Machine.execTickInEdge phase s
  | .holdover => Sys2Proof.Machine.execHoldover s
  | .linkFrameReceive link upper raw corrected uncorrected payload => Sys2Proof.Machine.execLinkFrameReceive link upper raw corrected uncorrected payload s
  | .ackTimeout link => Sys2Proof.Machine.execAckTimeout link s
  | .ackOnlyTimer link => Sys2Proof.Machine.execAckOnlyTimer link s
  | .laneFault link lane => Sys2Proof.Machine.execLaneFault link lane s
  | .retrainDone link working => Sys2Proof.Machine.execRetrainDone link working s
  | .linkLost link retrainFailed => Sys2Proof.Machine.execLinkLost link retrainFailed s
  | .linkTrainRetry link working => Sys2Proof.Machine.execLinkTrainRetry link working s
  | .chainNeighbourLearn link addr => Sys2Proof.Machine.execChainNeighbourLearn link addr s
  | .hdmAccess write offset data hostKeeps => Sys2Proof.Machine.execHdmAccess write offset data hostKeeps s
  | .viral => Sys2Proof.Machine.execViral s
  | .configRequest fn op => Sys2Proof.Machine.execConfigRequest fn op s
  | .flr fn => Sys2Proof.Machine.execFlr fn s
  | .powerOn backup => Sys2Proof.Machine.execPowerOn backup s
  | .perst widthNs held => Sys2Proof.Machine.execPerst widthNs held s
  | .mrst widthNs held => Sys2Proof.Machine.execMrst widthNs held s
  | .hotReset => Sys2Proof.Machine.execHotReset s
  | .resetAfterNvPulse => Sys2Proof.Machine.execResetAfterNvPulse s
  | .bringUp b => Sys2Proof.Machine.execBringUp b s
  | .supplySwitch ov => Sys2Proof.Machine.execSupplySwitch ov s
  | .supplyReturn => Sys2Proof.Machine.execSupplyReturn s
  | .supplyFault level => Sys2Proof.Machine.execSupplyFault level s
  | .brownout ov => Sys2Proof.Machine.execBrownout ov s
  | .thermalTrip die => Sys2Proof.Machine.execThermalTrip die s
  | .capUnmet => Sys2Proof.Machine.execCapUnmet s
  | .diodeReading millivolts temp => Sys2Proof.Machine.execDiodeReading millivolts temp s
  | .scanConversion code down => Sys2Proof.Machine.execScanConversion code down s
  | .stackResume stack => Sys2Proof.Machine.execStackResume stack s
  | .adcTrigger src => Sys2Proof.Machine.execAdcTrigger src s
  | .adcConversion code => Sys2Proof.Machine.execAdcConversion code s
  | .hostDmaTransfer spool seq ok => Sys2Proof.Machine.execHostDmaTransfer spool seq ok s
  | .inputGood backup good => Sys2Proof.Machine.execInputGood backup good s
  | .ideStreamState mem secure => Sys2Proof.Machine.execIdeStreamState mem secure s
  | .nvProgramDone ok => Sys2Proof.Machine.execNvProgramDone ok s
  | .bistRunDone failed => Sys2Proof.Machine.execBistRunDone failed s
  | .attestReportDone ok => Sys2Proof.Machine.execAttestReportDone ok s
  | .cxlError status => Sys2Proof.Machine.execCxlError status s

end Sys2Proof.Machine
end

