-- ==== Sys2Proof/Safety.lean ====
section
/-!
DEFINITION. What counts as a safe state and a safe step, and the terms the statements use: when a host command
starts, the state in which it takes effect, and the invariant that every step keeps.
-/
namespace Sys2Proof.Safety

open Sys2Proof.Machine

/-- The command at the front of the queue, if there is one, names units of the module. -/
def FrontWf (s : State) : Prop := ∀ c, s.pending.head? = some c → c.wf = true

/-- A step does not stop the machine. -/
def Runs (s : State) : Prop := ∃ t, step s = .next t

/-- A host command with header `c` starts now: its spool may start it, FENCE and WAIT hold it back no more, and either it has
been fetched and its turn has come, or its row alone brings it and the checks at fetch pass (R345, R363, R365, R375, R548;
log 22). No command from before a resynchronisation has its sequence number: `Obligations.StartAndWrite` says what happens where one
has. -/
def Starts (i : Instr) (c : Cmd) (s : State) : Prop :=
  i.cmd? = some c ∧ c.wf = true ∧ findOut s c.spool c.seq = findFetched s c ∧ canStart s c = true ∧
  match findFetched s c with
  | none =>
    headerCheck s c (opcodeOf i) = none ∧ paramCheck i = none ∧ bankExtent s i = none ∧ syncCheck s c = none ∧
      mayStart s c = true
  | some o => o.opcode = opcodeOf i ∧ sameCommand o i c = true ∧ myTurn s c.spool o = true

/-- The state in which a starting command is outstanding and started, with nothing else changed. -/
def begun (i : Instr) (c : Cmd) (s : State) : State := ensureOut s c (opcodeOf i) i

/-- The command ends with DONE and RESULTS in the state its effect leaves (R354, R366). -/
def doneAt (u : State) (c : Cmd) (res : List Byte) : State := finish u c.spool c.seq 0 res

/-- The command ends with ERROR (R354, R393). -/
def errorAt (u : State) (c : Cmd) (code : Nat) (res : List Byte) : State := finish u c.spool c.seq code res

/-- The command replies ACCEPTED and goes on with a job (R354, R393). -/
def acceptedAt (u : State) (c : Cmd) (res : List Byte) (job : Job) : State := accept u c.spool c.seq res job

/-- The command replies ACCEPTED and its completing EVENT follows at once. -/
def acceptedDone (u : State) (c : Cmd) (code : Nat) (res : List Byte) : State :=
  finish (accept u c.spool c.seq [] .idle) c.spool c.seq code res

/-- The command stays outstanding with a job and no record. -/
def runningAt (u : State) (c : Cmd) (job : Job) : State := onOut u c.spool c.seq fun o => { o with job := job }

/-- A command's run on a session begins: the session is BUSY with it (R243). -/
def runBegun (u : State) (c : Cmd) (i : Nat) (r : Run) (pend : Option Nat) : State :=
  runningAt (u.onSess i fun x => { x with st := .busy, run := some r, pend := pend }) c (.session i)

/-- A command that writes an output buffer ends with DONE once it is written. In the HDM range that is the module's own
DRAM, its lines taken from the host first (R472, R473); in host memory a write that fails ends the command with HOST_FAULT
(R386, R392), and none is made after a VIRAL message (R468). -/
def outputAt (u : State) (c : Cmd) (a : Nat) (b res : List Byte) : State :=
  match hdmOffset u a b.length with
  | some w =>
    let v := takeLines u w b.length c.io.back
    doneAt { v with kv := { v.kv with dram := windowWrite u w b v.kv.dram } } c res
  | none =>
    if c.io.wr then doneAt (hostWrite u a b) c res
    else errorAt u c 0x0501 []

/-- A starting command reads `b` from its buffer of `n` bytes at `a`, which leaves the state `v`: the bytes are the
window's where the buffer lies in the HDM range, and the host's otherwise (R386, R473). -/
def Reads (i : Instr) (c : Cmd) (s : State) (a n : Nat) (b : List Byte) (v : State) : Prop :=
  bufRead (begun i c s) c a n = some (b, v)

/-- Its buffer cannot be read. -/
def Unread (i : Instr) (c : Cmd) (s : State) (a n : Nat) : Prop := bufRead (begun i c s) c a n = none

/-- A command that takes effect at the next edge: its changes wait there, and so does its end (R171, R354). -/
def edgeAt (u : State) (c : Cmd) (l : List EdgeAct) : State :=
  runningAt (atEdge u (l ++ [.finish c.spool c.seq 0 []])) c .tick

/-- The page-list entries that a truncation of a session to `n` positions clears: of each layer, those from ⌈n / ppf⌉ upward, in the
lists of its model and of its draft (R229). -/
def cutFrom (s : State) (x : Session) (n key : Nat) : Prop :=
  (∃ lk ∈ layersHere (s.model (modelOf x)), ∃ i, ceilDiv n (layerPpf (s.model (modelOf x)) lk.1) ≤ i ∧
    i < runEntries x.runs lk.1 ∧ key = pageAt x.runs lk i) ∨
  (∃ d, draftOf x = some d ∧ ∃ lk ∈ layersHere (s.model d), ∃ i, ceilDiv (min n x.draftLen) (layerPpf (s.model d) lk.1) ≤ i ∧
    i < runEntries x.druns lk.1 ∧ key = pageAt x.druns lk i)

/-- Every entry that a truncation clears is no longer VALID, every other stands, and of the frame table nothing changes but
REFCOUNTs, which only fall (R229). -/
def pagesCut (s t : State) (x : Session) (n : Nat) : Prop :=
  (∀ key, cutFrom s x n key → (t.page key).valid = false) ∧
  (∀ key, ¬ cutFrom s x n key → t.page key = s.page key) ∧
  (∀ f, (t.frame f).ref ≤ (s.frame f).ref ∧ t.frame f = { s.frame f with ref := (t.frame f).ref }) ∧
  t.kv = { s.kv with pages := t.kv.pages, frames := t.kv.frames, zero := t.kv.zero }

/-- The frame that an entry of a page list reads from: the old one while its copy is pending (R231). -/
def frameRead (e : PageE) : Nat := if e.copy then e.old else e.frame

/-- The entries that cover `n` positions, as keel, key in one run and key in another (R230). -/
def sharedKeys (m : Model) (src dst : Tbl (Nat × Nat)) (n : Nat) : List (Nat × Nat × Nat) :=
  (layersHere m).flatMap fun lk =>
    (List.range (ceilDiv n (layerPpf m lk.1))).map fun i => (lk.2, pageAt src lk i, pageAt dst lk i)

/-- A fork's page lists: each entry that covers the parent's positions is copied to the child's run and its frame counted once more;
every other entry and the rest of each frame's entry stand. No two of the entries written are one, and none is one of those read
(R221, R230). -/
def forkShares (s t : State) (ks : List (Nat × Nat × Nat)) : Prop :=
  (∀ key, (∀ w ∈ ks, w.2.2 ≠ key) → t.page key = s.page key) ∧
  ((∀ w ∈ ks, ∀ v ∈ ks, w.2.1 ≠ v.2.2) → (ks.map fun w => w.2.2).Nodup →
    (∀ w ∈ ks, (s.page w.2.1).valid = true →
      t.page w.2.2 = { frame := frameRead (s.page w.2.1), copy := false, old := 0, valid := true }) ∧
    ∀ f, t.frame f = { s.frame f with ref := (s.frame f).ref + ks.countP fun w =>
      (s.page w.2.1).valid && frameKey w.1 (frameRead (s.page w.2.1)) == f })

/-- The load moves to an input (R505): counted, conversions of 45 and 46 injected, reported at the next edge, and noted for its
record. The record waits for the two voltages; where an injection is dropped it takes the voltage read last (the model's choice,
log 34). -/
def loadMoved (s t : State) (toBackup : Bool) : Prop :=
  let mid := injectAs true 45 s.adc
  let note : SwitchNote :=
    { input := if toBackup then 1 else 0, main := if injectFull s.adc then some s.supply.mainV else none,
      backup := if injectFull mid then some s.supply.backupV else none }
  t.adc = injectAs true 46 mid ∧
  t.supply = { s.supply with
    backup := toBackup, timer := none, switches := satAdd 32 s.supply.switches 1,
    report := s.supply.report ++ [(if toBackup then 1 else 0, if toBackup then 0 else 1)],
    notes := (s.supply.notes ++ [note]).filter fun n => n.detail.isNone } ∧
  ((s.supply.notes ++ [note]).all (fun n => n.detail.isNone) = true → t.chk = s.chk) ∧
  (injectFull s.adc = true → ∃ r, t.chk.log.getLast? = some r ∧ r.kind = 0x0020 ∧ r.location = note.input ∧
    r.detail = s.supply.backupV * 65536 + s.supply.mainV) ∧
  t = { s with supply := t.supply, adc := t.adc, chk := t.chk }

/-- What an outstanding command of a spool, or of one that was orphaned, keeps to its function: the counter of its MODE and the one it
waits for are the function's, it is none that only the PF may send, and its header names the spool (R330, R335, R373, R375). -/
def commandOwned (s : State) (p : Nat) (o : OutCmd) : Prop :=
  (∀ c, outCmd o = some c → c.spool = p % 4096 ∧ (c.mode ≠ .none → counterOwner s c.counter = spoolOwner s (p % 4096))) ∧
  (∀ n rel v d, o.job = .syncWait n rel v d → counterOwner s n = spoolOwner s (p % 4096)) ∧
  (spoolOwner s (p % 4096) ≠ 0 → opPfOnly o.opcode = false)

/-- Every outstanding command keeps to its function. -/
def Owned (s : State) : Prop := ∀ e ∈ s.spools, ∀ o ∈ e.2.out, commandOwned s e.1 o

/-- The function that an access or a command comes from: register accesses name it, and a packet, a command's start or the end of its
wait belongs to its spool's owner (R330–R335). Events have none. -/
def issuer (s : State) : Instr → Option Nat
  | .sqTailDoorbell fn _ _ => some fn
  | .cqHeadWrite fn _ _ => some fn
  | .spoolCtrlOpen fn _ => some fn
  | .spoolCtrlResync fn _ => some fn
  | .syncCounterWrite fn _ _ _ => some fn
  | .latchedLowRead fn _ _ => some fn
  | .latchedHighRead fn _ _ => some fn
  | .registerWrite fn _ _ _ _ => some fn
  | .packetFetch p _ _ => some (spoolOwner s p)
  | .commandStart p _ _ => some (spoolOwner s p)
  | .syncWaitTimeout p _ => some (spoolOwner s p)
  | i => i.cmd?.map fun c => spoolOwner s c.spool

/-- A session, an adapter, a model and the boot part without the numbers under which commands go on (log 22). -/
def namelessSession (x : Session) : Session := { x with run := x.run.map fun r => { r with seq := 0 } }
def namelessAdapter (a : Adapter) : Adapter := { a with cmd := a.cmd.map fun w => (w.1, 0) }
def namelessModel (m : Model) : Model := { m with repl := m.repl.map fun r => { r with seq := 0 } }
def namelessBoot (b : Boot) : Boot := { b with imgJob := b.imgJob.map fun j => { j with seq := 0 } }

/-- The work of a block at a position. -/
def blockAt (s : State) (k : BlockKey) : Option BlockWork :=
  (s.ctxAt k.entry k.pos).blocks.find? fun b => b.layer == k.layer && b.role == k.role && b.tile == k.tile

/-- A step of the pipeline's work: it changes records due, the pipeline, the arrays and the checks, and nothing else. -/
def onlyWork (s t : State) : Prop := t = { s with spools := t.spools, pipe := t.pipe, arr := t.arr, chk := t.chk }

/-- The contexts of the other positions are as before. -/
def otherWork (s t : State) (id pos : Nat) : Prop :=
  ∀ i p, ctxKey i p ≠ ctxKey id pos → t.ctxAt i p = s.ctxAt i p

/-- The state of a block whose product has passed: done, or waiting for its spot check. -/
def passedSt (s : State) (t : Nat) (words : Bool) : BlockSt :=
  match spotClass s t words with
  | some c => .spot c
  | none => .done

/-- A service operation has its slot in this tick (R112, R114, R172): placed before packing under its urgent rank, or one that
the stage schedule leaves free and no operation of a higher rank takes, before the keel's service window closes (R173). -/
def slotFor (s : State) (urgent : Nat) (v : Service) : Prop :=
  stackStopped s (panelKeel v.panel) = false ∧ keelClosed s (panelKeel v.panel) = false ∧
  (placed s { v with rank := urgent } = true ∨ freeSlot s v = true)

/-- A service operation that has its slot changed one tile: the other tiles and everything but the arrays and the plan of
the tick are as before. -/
def onlyTile (s t : State) (n : Nat) : Prop :=
  (∀ m, m ≠ n → t.tileAt m = s.tileAt m) ∧ t = { s with arr := t.arr, pipe := { s.pipe with plan := t.pipe.plan } }

/-- What an end's frames carry: those sent and not acknowledged, then those that wait. -/
def carried (s : State) (k : Nat) : List Payload := ((s.linkEnd k).buffer ++ (s.linkEnd k).queue).map Frame.payload

/-- A module sends a payload on some ends, once on each, and nothing on any other (R478, R480). -/
def sentOn (s t : State) (ks : List Nat) (p : Payload) : Prop :=
  (∀ k ∈ ks, (carried t k).Perm (carried s k ++ [p])) ∧ ∀ k, k ∉ ks → t.linkEnd k = s.linkEnd k

/-- A check-value unit differs at most in its host context (R488). -/
def sameButHost (s t : State) (u : Nat) : Prop :=
  (t.cvu.get Cvu.init u).sel = (s.cvu.get Cvu.init u).sel ∧
  ∀ k, k ≠ 15 → (t.cvu.get Cvu.init u).ctxs.get CvuCtx.init k = (s.cvu.get Cvu.init u).ctxs.get CvuCtx.init k

end Sys2Proof.Safety
end

