-- ==== Sys2Proof/Certificates/Slice0/Obligations.lean ====
section
/-!
DEFINITION. The statements about the model that the provers prove. A host command is stated where it starts
(`Safety.Starts`); `begun` is the state in which it takes effect, `doneAt` and `errorAt` end it. A statement that a
state equals `{ s with … }` says that nothing else changes.
-/

open Sys2Proof Sys2Proof.Machine Sys2Proof.Safety

/-! Device commands. -/

/-- NOP, KEEPALIVE, GET_STATUS and GET_OPTION change nothing and end with DONE and the RESULTS of R397, R400: SOURCE 1 is the
value pending for the next edge, by SET_OPTION or TICK_CONFIG, or with none the value in force. IDENTIFY writes the identity
block and answers PART_ID and PART_INFO; where the write fails it ends with HOST_FAULT (R386, R397, R404). SET_OPTION makes the
value pending and leaves the value in force; VF_SPOOLS and VF_COUNTERS that may not change give 0x020F, and an allowance that
does not fit gives 0x0608 (R121, R332, R398, R399). -/
def Obligations.DeviceReports : Prop :=
  (∀ (c : Cmd) (s : State),
     (Starts (.nop c) c s → exec (.nop c) s = .next (doneAt (begun (.nop c) c s) c [])) ∧
     (Starts (.keepalive c) c s → exec (.keepalive c) s = .next (doneAt (begun (.keepalive c) c s) c [])) ∧
     (Starts (.getStatus c) c s →
       let u := begun (.getStatus c) c s
       exec (.getStatus c) s = .next (doneAt u c
         (toLe 4 (openSessions u) ++ toLe 4 ((List.range 8).map (freeFrames u)).sum ++ toLe 1 u.tick.capStep ++
           toLe 1 (if u.supply.backup then 1 else 0) ++
           toLe 1 (((List.range 32).map fun d => u.thermal.bands.get 0 d).foldl max 0) ++
           toLe 1 ((if u.spools.any (fun e => e.2.st == .halted) then 1 else 0) +
             2 * (if u.spools.any (fun e => e.2.st == .orphaned) then 1 else 0))))) ∧
     ∀ o src, Starts (.getOption c o src) c s →
       exec (.getOption c o src) s = .next (doneAt (begun (.getOption c o src) c s) c
         (toLe 8 (match src with
           | 0 => opt s o
           | 1 => ((s.opts.pend.find o).or (tickPending s o)).getD (opt s o)
           | 2 => optImage s o
           | _ => optDefault s.nv.part o) ++
           toLe 1 (if ((s.opts.pend.find o).or (tickPending s o)).isSome then 1 else 0)))) ∧
  (∀ (c : Cmd) (a : Nat) (s : State), Starts (.identify c a) c s →
     exec (.identify c a) s = .next
       (outputAt (begun (.identify c a) c s) c a (identityBlock s) (toLe 4 0x94800009 ++ toLe 4 (partInfo s.nv)))) ∧
  (∀ (c : Cmd) (o v : Nat) (s : State), Starts (.setOption c o v) c s →
     let u := begun (.setOption c o v) c s
     let w := binLimit s.nv.part o v
     let vf := (o = oVfSpools ∨ o = oVfCounters) ∧ vfChangeOk u c o v = false
     let full := isAllowance o = true ∧ tailCapacity (shortPeriod s) < tailSumWith s o v
     (vf → exec (.setOption c o v) s = .next (errorAt u c 0x020F [])) ∧
     (¬ vf ∧ full → exec (.setOption c o v) s = .next (errorAt u c 0x0608 [])) ∧
     (¬ vf ∧ ¬ full → ∃ x, exec (.setOption c o v) s = .next (doneAt x c (toLe 8 w)) ∧
       x = { u with opts := { u.opts with pend := u.opts.pend.set o w } } ∧
       optNext x o = w ∧ opt x o = opt s o ∧ ∀ n, n ≠ o → optNext x n = optNext s n))

/-- SYNC_SIGNAL puts VALUE into the counter (SET) or adds VALUE to it (ADD; log 121), every wait on it is evaluated, and it
answers the new value; another function's counter gives UNKNOWN_COUNTER (R372, R374, R402). A write of 8 bytes by the
counter's owner is the counter's new value and every wait on it is evaluated; of another size, or by another function, it
changes nothing (R334, R372, R374). Where nothing is outstanding a counter's update changes that counter alone. Of the one
command outstanding: a MODE WAIT on the counter is released by a value other than 0, a SYNC_WAIT on it ends with DONE and
the value where its relation holds, and otherwise only the counter changes (R373–R375). -/
def Obligations.SyncCounters : Prop :=
  (∀ (c : Cmd) (n o : Nat) (v : W64) (s : State), Starts (.syncSignal c n o v) c s →
     let u := begun (.syncSignal c n o v) c s
     let w := if o = 0 then v else s.counter n + v
     (counterOwner s n ≠ spoolOwner s c.spool →
       exec (.syncSignal c n o v) s = .next (errorAt u c 0x0403 [])) ∧
     (counterOwner s n = spoolOwner s c.spool →
       exec (.syncSignal c n o v) s = .next (doneAt (updateCounter u (.put n w)) c (toLe 8 w.toNat)))) ∧
  (∀ (fn n size : Nat) (v : W64) (s : State), fn < 65 → n < 8192 → 1 ≤ size → size ≤ 64 → s.boot.ready = true →
     (size = 8 ∧ counterOwner s n = fn → exec (.syncCounterWrite fn n size v) s = .next (updateCounter s (.put n v))) ∧
     (¬ (size = 8 ∧ counterOwner s n = fn) → exec (.syncCounterWrite fn n size v) s = .next s)) ∧
  ((∀ (s : State) (n : Nat) (v : W64), (∀ e ∈ s.spools, e.2.out = []) →
     updateCounter s (.put n v) = { s with sync := s.sync.set n v }) ∧
   (∀ (s : State) (n : Nat) (v : W64) (p : Nat) (q : Spool) (o : OutCmd) (c : Cmd), s.spools = [(p, q)] → q.out = [o] →
     outCmd o = some c → c.mode = .wait → c.counter = n → o.started = false → o.released = false →
     let t := updateCounter s (.put n v)
     t.counter n = v ∧
     (v ≠ 0 → (t.spool p).out = [{ o with released := true }] ∧ t.bus.wakes = s.bus.wakes ++ [(p, o.seq)]) ∧
     (v = 0 → (∀ m r w d, o.job ≠ .syncWait m r w d) → t.spools = s.spools ∧ t.bus = s.bus)) ∧
   (∀ (s : State) (n rel : Nat) (v target : W64) (d : Option Nat) (p : Nat) (q : Spool) (o : OutCmd) (c : Cmd),
     s.spools = [(p, q)] → q.out = [o] → outCmd o = some c → c.mode = .none → o.started = true →
     o.job = .syncWait n rel target d →
     updateCounter s (.put n v) =
       (if relHolds rel v target = true then finish { s with sync := s.sync.set n v } p o.seq 0 (toLe 8 v.toNat)
        else { s with sync := s.sync.set n v })))

/-- SYNC_WAIT ends at once with the counter's value where the relation holds, and with UNKNOWN_COUNTER on another function's
counter; otherwise it stays outstanding with its deadline TIMEOUT edges on, or none. At the deadline SYNC_WAIT_TIMEOUT ends
it with WAIT_TIMEOUT, one whose spool was orphaned too; before it does nothing (R375, R377, R402). -/
def Obligations.SyncWait : Prop :=
  (∀ (c : Cmd) (n rel timeout : Nat) (target : W64) (s : State), Starts (.syncWait c n rel timeout target) c s →
    let u := begun (.syncWait c n rel timeout target) c s
    (counterOwner s n ≠ spoolOwner s c.spool →
      exec (.syncWait c n rel timeout target) s = .next (errorAt u c 0x0403 [])) ∧
    (counterOwner s n = spoolOwner s c.spool → relHolds rel (s.counter n) target = true →
      exec (.syncWait c n rel timeout target) s = .next (doneAt u c (toLe 8 (s.counter n).toNat))) ∧
    (counterOwner s n = spoolOwner s c.spool → relHolds rel (s.counter n) target = false →
      exec (.syncWait c n rel timeout target) s = .next
        (runningAt u c (.syncWait n rel target (if timeout = 0 then none else some (s.tick.edges + timeout)))))) ∧
  (∀ (p : Nat) (seq : W32) (s : State), 1 ≤ p → p < 4096 →
    (waitOver s p seq = true → exec (.syncWaitTimeout p seq) s = .next (finish s p seq 0x0207 [])) ∧
    (waitOver s p seq = false → (∀ k ∈ orphanKeys s p, waitOver s k seq = false) → exec (.syncWaitTimeout p seq) s = .next s) ∧
    (∀ k, waitOver s p seq = false → orphanKeys s p = [k] → waitOver s k seq = true →
      exec (.syncWaitTimeout p seq) s = .next (finish s k seq 0x0207 []))) ∧
  (∀ (p : Nat) (seq : W32) (s : State) (o : OutCmd) (n rel : Nat) (d : Option Nat) (target : W64), findOut s p seq = some o →
    o.job = .syncWait n rel target d → (waitOver s p seq = true ↔ ∃ e, d = some e ∧ e ≤ s.tick.edges))

/-- TICK_CONFIG with a change pending, of another period on a follower, or of another role with a stage map placed, gives
TICK_PENDING; a period that fails R195 or R121 gives that code. Otherwise it replies ACCEPTED. The period in force already:
it ends at the next edge. Another: it is pending for TICK_COUNT + 256, the followers hear of it, and PERIOD_CHANGE brings it
into force once that count is reached, ending the command; ROLE and TICK_IN_COMP wait for the next edge (R161, R167, R169,
R401). On a master whose follower has not answered 128 ticks after it heard, the change is cancelled, followers hear of that
and the command ends with REFUSE_CHAIN (R161, R167). A follower notes the phase of TICK_IN; an edge counts as arrived within
1 µs of its time, or at any time before lock; it reaches lock within 25 ns once the master's count has come, or with the
1,024th edge, and takes the count at its next edge. After four ticks without an edge it goes into holdover, which ends lock,
with an event on spool 0 (R164–R166, R168; lock moment log 115). -/
def Obligations.TickAlignment : Prop :=
  (∀ (c : Cmd) (period : Nat) (ext : Option (Nat × Nat)) (s : State), Starts (.tickConfig c period ext) c s →
     let u := begun (.tickConfig c period ext) c s
     let busy := s.tick.pend.isSome = true ∨ (s.tick.role = 2 ∧ period ≠ s.tick.period) ∨
       ∃ r k, ext = some (r, k) ∧ r ≠ s.tick.role ∧ anyPlaced s = true
     let acts := (ext.map fun e => EdgeAct.tickCfg e.1 e.2).toList
     (busy → exec (.tickConfig c period ext) s = .next (errorAt u c 0x020B [])) ∧
     (¬ busy → ∀ code, periodRefusal s period = some code →
       exec (.tickConfig c period ext) s = .next (errorAt u c code [])) ∧
     (¬ busy → periodRefusal s period = none →
       (period = s.tick.period → exec (.tickConfig c period ext) s = .next
         (acceptedAt (atEdge u (acts ++ [.finish c.spool c.seq 0 (toLe 2 period)])) c (toLe 8 (s.tick.count + 1).toNat) .tick)) ∧
       (period ≠ s.tick.period → ∃ x, exec (.tickConfig c period ext) s = .next
           (acceptedAt x c (toLe 8 (s.tick.count + 256).toNat) .tick) ∧
         x.tick = { s.tick with
           acts := s.tick.acts ++ acts,
           pend := some { period := period, at_ := s.tick.count + 256, cmd := some (c.spool, c.seq), edge := s.tick.edges,
                          waiting := if s.tick.role = 1 then chainPorts s else [] } } ∧
         (s.tick.role ≠ 1 → x.ends = s.ends) ∧
         (s.tick.role = 1 → sentOn s x (chainPorts s) (.ctrl (.periodChange period (s.tick.count + 256)))) ∧ x = { u with tick := x.tick, ends := x.ends }))) ∧
  (∀ (s : State) (w : PeriodPend), s.tick.pend = some w →
     (s.tick.count.toNat < w.at_.toNat → exec .periodChange s = .next s) ∧
     (w.at_.toNat ≤ s.tick.count.toNat → ∃ x,
       exec .periodChange s = .next (match w.cmd with
         | some (p, seq) => finish x p seq 0 (toLe 2 w.period)
         | none => x) ∧
       opt x oTickPeriod = w.period ∧ (∀ o, o ≠ oTickPeriod → opt x o = opt s o) ∧
       x = { s with tick := { s.tick with period := w.period, pend := none }, opts := { s.opts with force := x.opts.force } })) ∧
  (∀ (s : State) (w : PeriodPend) (p : Nat) (seq : W32), s.tick.pend = some w → w.cmd = some (p, seq) →
     (w.waiting = [] ∨ s.tick.edges < w.edge + 128 → exec .followerAnswerTimeout s = .next s) ∧
     (w.waiting ≠ [] → w.edge + 128 ≤ s.tick.edges → ∃ x,
       exec .followerAnswerTimeout s = .next (finish x p seq 0x060B (toLe 2 s.tick.period)) ∧
       x.tick = { s.tick with pend := none } ∧ sentOn s x (chainPorts s) (.ctrl .periodCancel) ∧
       x = { s with tick := x.tick, ends := x.ends })) ∧
  (∀ s : State, s.tick.pend = none → exec .periodChange s = .next s ∧ exec .followerAnswerTimeout s = .next s) ∧
  ((∀ (phase : Int) (s : State), s.boot.ready = true → s.tick.role = 2 →
     let lock := s.tick.locked = false ∧
       ((phase.natAbs ≤ 25 ∧ s.tick.master.isSome = true) ∨ 1024 ≤ s.tick.lockRun + 1)
     ∃ t, exec (.tickInEdge phase) s = .next t ∧ t.tick.skew = phase ∧
       t.tick.missed = (if s.tick.locked = false ∨ phase.natAbs ≤ 1000 then 0 else s.tick.missed) ∧
       (t.tick.locked = true ↔ s.tick.locked = true ∨ lock) ∧
       (t.tick.adopt = true ↔ s.tick.adopt = true ∨ lock) ∧
       (t.tick.holdover = true ↔ s.tick.holdover = true ∧ ¬ lock) ∧
       t.tick = { s.tick with skew := t.tick.skew, missed := t.tick.missed, lockRun := t.tick.lockRun,
                              locked := t.tick.locked, adopt := t.tick.adopt, holdover := t.tick.holdover } ∧
       t = { s with tick := t.tick }) ∧
   (∀ (phase : Int) (s : State), s.boot.ready = false ∨ s.tick.role ≠ 2 → exec (.tickInEdge phase) s = .next s) ∧
   (∀ s : State,
     (s.tick.role = 2 → 4 ≤ s.tick.missed → s.tick.holdover = false → ∃ t, exec .holdover s = .next t ∧
       t = { s with tick := { s.tick with holdover := true, locked := false, lockRun := 0, adopt := false }, spools := t.spools } ∧
       (takesEvent s 0 = true → ((t.spool 0).due.getLast?.map DueRec.record).map Rec.code = some 0x0007)) ∧
     (s.tick.role ≠ 2 ∨ s.tick.missed < 4 ∨ s.tick.holdover = true → exec .holdover s = .next s)))

/-! Spools. -/

/-- SPOOL_OPEN opens a CLOSED spool of the issuer's function with the ring addresses, orders and FIRST_SEQ given, empty
rings, PHASE 1, and the quotas given, up to the issuing spool's own, or with none given the option defaults in force at its
start (R346, R347, R352). Another function's spool gives UNKNOWN_SPOOL, one that is not CLOSED SPOOL_STATE; a number above
4,095 and a CLOSED spool 0, which takes no packets, BAD_PARAMETER (R347, R383; log 24). -/
def Obligations.SpoolOpen : Prop :=
  ∀ (c : Cmd) (sb cb so co : Nat) (first : W32) (q : Option (Nat × Nat)) (s : State),
    Starts (.spoolOpen c sb cb so co first q) c s →
    let p := c.handle.toNat
    let u := begun (.spoolOpen c sb cb so co first q) c s
    (4096 ≤ p → exec (.spoolOpen c sb cb so co first q) s = .next (errorAt u c 0x0105 [])) ∧
    (p < 4096 →
      (spoolOwner s p ≠ spoolOwner s c.spool →
        exec (.spoolOpen c sb cb so co first q) s = .next (errorAt u c 0x0402 [])) ∧
      (spoolOwner s p = spoolOwner s c.spool → (s.spool p).st ≠ .closed →
        exec (.spoolOpen c sb cb so co first q) s = .next (errorAt u c 0x0205 [])) ∧
      (spoolOwner s p = spoolOwner s c.spool → (s.spool p).st = .closed →
        (p = 0 → exec (.spoolOpen c sb cb so co first q) s = .next (errorAt u c 0x0105 [])) ∧
        (p ≠ 0 → ∃ x, exec (.spoolOpen c sb cb so co first q) s = .next (doneAt x c []) ∧
          (x.spool p).st = .opened ∧ (x.spool p).nextSeq = first ∧ (x.spool p).phase = true ∧
          (x.spool p).useSq = sb ∧ (x.spool p).useCq = cb ∧ (x.spool p).useSqOrd = so ∧ (x.spool p).useCqOrd = co ∧
          (x.spool p).sqHead = 0 ∧ (x.spool p).sqTail = 0 ∧ (x.spool p).cqHead = 0 ∧ (x.spool p).cqTail = 0 ∧
          (x.spool p).due = [] ∧ (x.spool p).dup = [] ∧ (x.spool p).out = [] ∧ (x.spool p).ring = [] ∧ idleTime x p = 0 ∧
          sessQuota x p = (match q with
            | some v => min v.1 (sessQuota s c.spool)
            | none => opt s oSpoolSessionQuota) ∧
          frameQuota x p = (match q with
            | some v => min v.2 (frameQuota s c.spool)
            | none => opt s oSpoolFrameQuota) ∧
          (∀ r, r ≠ p → x.spool r = u.spool r) ∧ x = { u with spools := x.spools })))

/-- SPOOL_CLOSE may name a spool of the issuer's function, and from a PF spool a VF's. Without RELEASE it gives SPOOL_BUSY
while the spool has an open session or another outstanding command, one that goes on after an orphaning too; otherwise its
DONE closes the spool once it is written, and with QUIET the spool closes once its own records are written. With RELEASE the
BUSY and STARVED sessions are masked; at the edge every session of the spool closes and its DONE is due (R348, R355).
SPOOL_ADOPT moves every session of an ORPHANED spool to the issuing spool, HELD sessions coming back BUSY or IDLE, closes the
orphaned spool and answers how many sessions moved (R243, R244, R380, R381). Of either, another function's spool gives
UNKNOWN_SPOOL, a spool in another state SPOOL_STATE, and a number above 4,095 BAD_PARAMETER, as does spool 0 for SPOOL_CLOSE
(log 24). -/
def Obligations.SpoolEnds : Prop :=
  (∀ (c : Cmd) (release : Bool) (s : State), Starts (.spoolClose c release) c s →
     let p := c.handle.toNat
     let u := begun (.spoolClose c release) c s
     let mine := spoolOwner s c.spool = 0 ∨ spoolOwner s p = spoolOwner s c.spool
     let others := orphanKeys s p ≠ [] ∨ ∃ o ∈ (u.spool p).out, ¬ (p = c.spool ∧ o.seq = c.seq)
     let busy := (sessionsOf s p).filter fun i => (s.sess i).st == .busy || (s.sess i).st == .starved
     (4096 ≤ p ∨ (p = 0 ∧ mine ∧ (s.spool 0).st ≠ .closed) →
       exec (.spoolClose c release) s = .next (errorAt u c 0x0105 [])) ∧
     (p < 4096 → ¬ mine → exec (.spoolClose c release) s = .next (errorAt u c 0x0402 [])) ∧
     (p < 4096 → mine → (s.spool p).st = .closed → exec (.spoolClose c release) s = .next (errorAt u c 0x0205 [])) ∧
     (1 ≤ p → p < 4096 → mine → (s.spool p).st ≠ .closed →
       (release = false → (sessionsOf s p ≠ [] ∨ others) →
         exec (.spoolClose c release) s = .next (errorAt u c 0x0206 [])) ∧
       (release = false → sessionsOf s p = [] → ¬ others → c.quiet = false →
         exec (.spoolClose c release) s = .next
           (sendSignal (finishRaw u c.spool c.seq 0 [] (some p)).1 (finishRaw u c.spool c.seq 0 [] (some p)).2)) ∧
       (release = false → sessionsOf s p = [] → ¬ others → c.quiet = true →
         exec (.spoolClose c release) s = .next (runningAt (closeWhenWritten (doneAt u c []) p) c (.close p))) ∧
       (release = true → exec (.spoolClose c release) s = .next
         (runningAt (atEdge (busy.foldl maskLane u) [.closeSpool p c.spool c.seq]) c (.close p))))) ∧
  (∀ (s : State) (p : Nat),
     ((s.spool p).due = [] → ((closeWhenWritten s p).spool p).st = .closed) ∧
     ((s.spool p).due ≠ [] → (s.spool p).st = .opened → (s.spool p).cqFault = false → s.bus.viral = false →
       (closeWhenWritten s p).spool p = { s.spool p with closing := true })) ∧
  (∀ (s : State) (p q : Nat) (seq : W32), ∀ i ∈ sessionsOf s p, ((closeAtEdge s p q seq).sess i).st = .closed) ∧
  (∀ (c : Cmd) (s : State), Starts (.spoolAdopt c) c s →
     let p := c.handle.toNat
     let u := begun (.spoolAdopt c) c s
     let mine := spoolOwner s c.spool = 0 ∨ spoolOwner s p = spoolOwner s c.spool
     (4096 ≤ p → exec (.spoolAdopt c) s = .next (errorAt u c 0x0105 [])) ∧
     (p < 4096 → ¬ mine → exec (.spoolAdopt c) s = .next (errorAt u c 0x0402 [])) ∧
     (p < 4096 → mine → (s.spool p).st ≠ .orphaned → exec (.spoolAdopt c) s = .next (errorAt u c 0x0205 [])) ∧
     (p < 4096 → mine → (s.spool p).st = .orphaned → ∃ x,
       exec (.spoolAdopt c) s = .next (doneAt x c (toLe 4 (sessionsOf s p).length)) ∧
       (x.spool p).st = .closed ∧
       (∀ i ∈ sessionsOf s p, (x.sess i).spool = c.spool ∧
         ((s.sess i).st = .held → (x.sess i).st = if inFlight s i then .busy else .idle) ∧
         ((s.sess i).st ≠ .held → (x.sess i).st = (s.sess i).st)) ∧
       (∀ i, i ∉ sessionsOf s p → x.sess i = s.sess i) ∧ (∀ r, r ≠ p → x.spool r = u.spool r) ∧
       x = { u with sessions := x.sessions, spools := x.spools }))

/-- SPOOL_TIMEOUT orphans a spool whose IDLE_TIME exceeds the option SPOOL_TIMEOUT; with the option 0, or at or below it, it
does nothing (R376). FLR of a VF records its cause and its number and orphans the function's spools; of the PF, every spool,
and spool 0 closes, the VFs are gone and no HDM range is programmed (R378, R539). VIRAL orphans every spool and closes spool 0,
and the module sends nothing more (R468). Orphaning an open or halted spool leaves it ORPHANED, with its duplicate store and
quotas, no command of its own and no record due but those held after a failed write; every one of its sessions is HELD and
starts nothing further; what had not started is dropped, and a started command that is no session command and moves no data
goes on apart from it (R244, R345, R377, R386). -/
def Obligations.SpoolEvents : Prop :=
  ((∀ (p : Nat) (s : State), (Instr.spoolTimeout p).wf = true →
     exec (.spoolTimeout p) s = .next
       (if opt s oSpoolTimeout ≠ 0 ∧ opt s oSpoolTimeout < (s.tick.time - (s.spool p).lastFetch) / 1000000 then orphanSpool s p
        else s)) ∧
   (∀ (fn : Nat) (s : State), (Instr.flr fn).wf = true → s.boot.ready = true →
     (fn ≠ 0 → exec (.flr fn) s = .next
       (orphanAll { s with boot := { s.boot with cause := s.boot.cause ||| 0x10#9, flrLast := fn } }
         fun p => spoolOwner s p == fn)) ∧
     (fn = 0 → ∃ t, exec (.flr fn) s = .next t ∧ (t.spool 0).st = .closed ∧ t.boot =
         { s.boot with cause := s.boot.cause ||| 0x10#9, flrLast := 0, vfEnable := false, imgJob := t.boot.imgJob } ∧
       t.bus.hdmBase = none ∧ t.sync = s.sync ∧
       ∀ p ∈ s.spools.map Prod.fst, p ≠ 0 → (t.spool p).st ≠ .opened ∧ (t.spool p).st ≠ .halted)) ∧
   (∀ s : State, s.boot.ready = true →
     ∃ t, exec .viral s = .next t ∧ t.bus.viral = true ∧ t.boot = { s.boot with imgJob := t.boot.imgJob } ∧
       (t.spool 0).st = .closed ∧
       ∀ p ∈ s.spools.map Prod.fst, p ≠ 0 → (t.spool p).st ≠ .opened ∧ (t.spool p).st ≠ .halted) ∧
   (∀ (fn : Nat) (s : State), s.boot.ready = false → exec (.flr fn) s = .next s ∧ exec .viral s = .next s)) ∧
  (∀ (s : State) (p : Nat), 1 ≤ p → p < 4096 → (s.spool p).st = .opened ∨ (s.spool p).st = .halted →
     (s.spool p).closing = false →
     let q := s.spool p
     let t := orphanSpool s p
     (t.spool p).st = .orphaned ∧ (t.spool p).out = [] ∧ (t.spool p).dup = q.dup ∧
     (t.spool p).sessQuota = q.sessQuota ∧ (t.spool p).frameQuota = q.frameQuota ∧
     (q.cqFault = false → (t.spool p).due = []) ∧
     (q.cqFault = true → (t.spool p).due.map DueRec.record = q.due.map DueRec.record) ∧
     (∀ i ∈ sessionsOf s p, (t.sess i).st = .held ∧
       ∀ r, (t.sess i).run = some r → r.tokens = [] ∧ r.left = 0) ∧
     (∀ o ∈ q.out, o.started = true → o.job.stops = false →
       ∃ k ∈ orphanKeys t p, { o with orphan := true, resv := 0 } ∈ (t.spool k).out) ∧
     (∀ k ∈ orphanKeys t p, ∀ o ∈ (t.spool k).out, o ∈ (s.spool k).out ∨ o.started = true) ∧
     t.opts = s.opts ∧ t.arr = s.arr ∧ t.nv = s.nv ∧ t.sync = s.sync ∧
     t.boot = { s.boot with imgJob := t.boot.imgJob } ∧
     t.tick = { s.tick with acts := t.tick.acts, pend := t.tick.pend } ∧ t.tick.acts.length = s.tick.acts.length)

/-- The doorbells (R341, R343, R386). A tail index below the ring size becomes SQ_TAIL, any other is ignored and flagged; a head
index up to CQ_TAIL consumes the records before it, any other is ignored and flagged. A function that does not own the spool
changes nothing (R333, R334), nor does a doorbell of a CLOSED spool or SQ_TAIL of spool 0. Nothing but the spool's own registers
changes. SPOOL_CTRL: OPEN opens a CLOSED spool whose ring registers are in range, with RESYNC_SEQ as NEXT_SEQ, PHASE 1, empty
rings and the quotas of the options in force, and otherwise sets OPEN_ERROR; on another spool it does nothing (R346). RESYNC
acts on a HALTED or ORPHANED spool, which becomes OPEN with NEXT_SEQ = RESYNC_SEQ and SQ_HEAD = RESYNC_HEAD, taken modulo the ring's
size where it lies above it (the model's choice, log 85), its commands still outstanding and IDLE_TIME going on, and on the others
but spool 0 does nothing (R343, R360, R361); on spool 0, while it is OPEN, it clears CQ_FAULT (R384). -/
def Obligations.SpoolRegisters : Prop :=
  (∀ (fn p v : Nat) (s : State), fn < 65 → p < 4096 → s.boot.ready = true →
     let i := v % 65536
     let q := s.spool p
     let size := 2 ^ q.useCqOrd
     let n := (i + size - q.cqHead) % size
     (spoolOwner s p ≠ fn ∨ q.st = .closed →
       exec (.sqTailDoorbell fn p v) s = .next s ∧ exec (.cqHeadWrite fn p v) s = .next s) ∧
     (p = 0 → exec (.sqTailDoorbell fn p v) s = .next s) ∧
     (spoolOwner s p = fn → q.st ≠ .closed →
       (p ≠ 0 → ∃ t, exec (.sqTailDoorbell fn p v) s = .next t ∧
         t.spool p = (if i < 2 ^ q.useSqOrd then { q with sqTail := i } else { q with doorbellErr := true }) ∧
         (∀ r, r ≠ p → t.spool r = s.spool r) ∧ t = { s with spools := t.spools }) ∧
       ∃ t, exec (.cqHeadWrite fn p v) s = .next t ∧
         t.spool p = (if i < size ∧ n ≤ (q.cqTail + size - q.cqHead) % size then { q with cqHead := i, ring := q.ring.drop n }
           else { q with doorbellErr := true }) ∧
         (∀ r, r ≠ p → t.spool r = s.spool r) ∧ t = { s with spools := t.spools })) ∧
  ((∀ (fn p : Nat) (s : State), fn < 65 → p < 4096 → s.boot.ready = true → spoolOwner s p = fn →
     (s.spool p).st = .closed →
     (ringsOk p (s.spool p) = true → ∃ t, exec (.spoolCtrlOpen fn p) s = .next t ∧ (t.spool p).st = .opened ∧
       (t.spool p).nextSeq = (s.spool p).resyncSeq ∧ (t.spool p).phase = true ∧ (t.spool p).useSq = (s.spool p).sqBase ∧
       (t.spool p).useCq = (s.spool p).cqBase ∧ (t.spool p).sqHead = 0 ∧ (t.spool p).sqTail = 0 ∧ (t.spool p).cqHead = 0 ∧
       (t.spool p).cqTail = 0 ∧ (t.spool p).out = [] ∧ sessQuota t p = opt s oSpoolSessionQuota ∧
       frameQuota t p = opt s oSpoolFrameQuota ∧ (∀ r, r ≠ p → t.spool r = s.spool r) ∧ t = { s with spools := t.spools }) ∧
     (ringsOk p (s.spool p) = false → ∃ t, exec (.spoolCtrlOpen fn p) s = .next t ∧
       t.spool p = { s.spool p with openErr := true } ∧ (∀ r, r ≠ p → t.spool r = s.spool r) ∧
       t = { s with spools := t.spools })) ∧
   (∀ (fn p : Nat) (s : State), fn < 65 → p < 4096 → spoolOwner s p ≠ fn ∨ (s.spool p).st ≠ .closed →
     exec (.spoolCtrlOpen fn p) s = .next s) ∧
   (∀ (fn p v : Nat) (s : State), fn < 65 → p < 4096 → s.boot.ready = false ∨ spoolOwner s p ≠ fn →
     exec (.spoolCtrlOpen fn p) s = .next s ∧ exec (.spoolCtrlResync fn p) s = .next s ∧
     exec (.sqTailDoorbell fn p v) s = .next s ∧ exec (.cqHeadWrite fn p v) s = .next s) ∧
   (∀ s : State, s.boot.ready = true → spoolOwner s 0 = 0 → (s.spool 0).st = .opened → ∃ t,
     exec (.spoolCtrlResync 0 0) s = .next t ∧ (t.spool 0).cqFault = false ∧ (t.spool 0).st = .opened ∧
     ((s.spool 0).dirty = false → t.spool 0 = { s.spool 0 with cqFault := false }) ∧
     (∀ r, r ≠ 0 → t.spool r = s.spool r) ∧ t = { s with spools := t.spools }) ∧
   (∀ (fn p : Nat) (s : State), fn < 65 → p < 4096 → p ≠ 0 → s.boot.ready = true → spoolOwner s p = fn →
     ((s.spool p).st = .halted ∨ (s.spool p).st = .orphaned → ∃ t, exec (.spoolCtrlResync fn p) s = .next t ∧
       (t.spool p).st = .opened ∧ (t.spool p).nextSeq = (s.spool p).resyncSeq ∧
       (t.spool p).sqHead = (s.spool p).resyncHead % 2 ^ (t.spool p).useSqOrd ∧ (t.spool p).fetchFault = false ∧
       (t.spool p).cqFault = false ∧ (t.spool p).due = (s.spool p).due ∧ (t.spool p).lastFetch = (s.spool p).lastFetch ∧
       (t.spool p).out = (s.spool p).out.map (fun o => { o with stale := true }) ∧
       ((s.spool p).dirty = true → (t.spool p).phase = true ∧ (t.spool p).cqHead = 0 ∧ (t.spool p).cqTail = 0 ∧
         (t.spool p).sqTail = (t.spool p).sqHead ∧ (t.spool p).useSq = (s.spool p).sqBase ∧
         (t.spool p).useCq = (s.spool p).cqBase) ∧
       (∀ e ∈ (t.spool p).dup, (((s.spool p).resyncSeq - 1 - e.seq).toNat < 256)) ∧
       (∀ i ∈ sessionsOf s p, (s.spool p).st = .orphaned → (t.sess i).st ≠ .held) ∧
       (∀ r, r ≠ p → t.spool r = s.spool r) ∧ t = { s with spools := t.spools, sessions := t.sessions }) ∧
     ((s.spool p).st = .opened ∨ (s.spool p).st = .closed → exec (.spoolCtrlResync fn p) s = .next s)))

/-- PACKET_FETCH from a spool that intake may fetch from now. The expected sequence number with the checks passed: NEXT_SEQ
and SQ_HEAD move on and the command is outstanding, last in order, one left with that number by a resynchronisation going on under
another name and keeping its number; with a check failed the command is refused with its code,
which the duplicate store keeps. A later number: SEQUENCE_GAP, SQ_HEAD left, the spool HALTED. One of the last 256: never run
again, answered from the duplicate store with DUPLICATE set, or with 0x0204 where the opcode differs and 0x0202 where nothing
is stored. An older one: 0x0203. A read that fails: HOST_FAULT and HALTED. Any packet resets IDLE_TIME. From any other spool
nothing is fetched (R340, R356–R361, R364, R376, R386). Intake may fetch from an OPEN spool with packets, two credits and
fewer than 256 commands outstanding, and serves such spools in ascending order, round robin, up to 8 packets in a turn
(R362, R364, R369; log 120). -/
def Obligations.PacketFetch : Prop :=
  (∀ (p : Nat) (b : List Byte) (blk : Option (List Byte)) (s : State), 1 ≤ p → p < 4096 →
    let q := s.spool p
    let f := readPacket (spoolOwner s p) (fun n => counterOwner s n == spoolOwner s p) p q.sqHead ((b ++ zeros 64).take 64) blk
    let d := (f.seq - q.nextSeq).toNat
    let bus := { s.bus with turn := p, served := if s.bus.turn = p ∧ s.bus.served < 8 then s.bus.served + 1 else 1 }
    (canFetch s p = false → exec (.packetFetch p (some b) blk) s = .next s ∧ exec (.packetFetch p none blk) s = .next s) ∧
    (canFetch s p = true →
      ∃ t, exec (.packetFetch p (some b) blk) s = .next t ∧ (∀ r, r ≠ p → t.spool r = s.spool r) ∧
        (d ≠ 0 ∨ findOut s p f.seq = none → t = { s with spools := t.spools, bus := bus }) ∧
        let u := t.spool p
        let kept := q.out.map fun x => if x.seq = f.seq then { x with shown := some x.number, seq := freeName q f.seq } else x
        let ans := u.due.getLast?.map DueRec.record
        u.lastFetch = s.tick.time ∧
        (d = 0 → fetchCode s f = none → ∀ i, f.instr = some i →
          u.nextSeq = q.nextSeq + 1 ∧ u.sqHead = (q.sqHead + 1) % 2 ^ q.useSqOrd ∧ u.due = q.due ∧ u.st = .opened ∧
          ∃ o, u.out = kept ++ [o] ∧ o.seq = f.seq ∧ o.instr = i ∧ o.fetched = s.tick.count ∧ o.opcode = f.op ∧ o.slot = q.sqHead ∧ o.started = false ∧
            (o.released = true ↔ f.mode ≠ 1 ∨ s.counter f.counter ≠ 0)) ∧
        (d = 0 → ∀ code, fetchCode s f = some code →
          u.nextSeq = q.nextSeq + 1 ∧ u.sqHead = (q.sqHead + 1) % 2 ^ q.useSqOrd ∧ u.out = q.out ∧
          ans.map Rec.cls = some 4 ∧ ans.map Rec.code = some code ∧ ∃ e ∈ u.dup, e.seq = f.seq ∧ e.stored = ans) ∧
        (1 ≤ d → u.out = q.out ∧ u.nextSeq = q.nextSeq ∧ u.dup = q.dup) ∧
        (1 ≤ d → d < 2 ^ 31 → u.st = .halted ∧ u.sqHead = q.sqHead ∧ ans.map Rec.code = some 0x0201) ∧
        (2 ^ 31 ≤ d → u.st = .opened ∧ u.sqHead = (q.sqHead + 1) % 2 ^ q.useSqOrd) ∧
        (2 ^ 31 ≤ d → d < 2 ^ 32 - 256 → ans.map Rec.code = some 0x0203) ∧
        (2 ^ 32 - 256 ≤ d → q.dup.find? (fun x => x.seq == f.seq) = none → ans.map Rec.code = some 0x0202) ∧
        (2 ^ 32 - 256 ≤ d → ∀ e, q.dup.find? (fun x => x.seq == f.seq) = some e →
          (e.opcode ≠ f.op → ans.map Rec.code = some 0x0204) ∧
          (e.opcode = f.op → e.stored = none → ans.map Rec.code = some 0x0202) ∧
          (e.opcode = f.op → ∀ r, e.stored = some r → ans = some { r with dup := true }))) ∧
    (canFetch s p = true →
      ∃ t, exec (.packetFetch p none blk) s = .next t ∧ (t.spool p).st = .halted ∧ (t.spool p).fetchFault = true ∧
        (t.spool p).out = q.out ∧ ((t.spool p).due.getLast?.map DueRec.record).map Rec.code = some 0x0501 ∧
        (∀ r, r ≠ p → t.spool r = s.spool r) ∧ t = { s with spools := t.spools, bus := bus })) ∧
  (∀ (s : State) (p : Nat), fetchable s p = true ↔ intakeOpen s = true ∧ p ≠ 0 ∧ (s.spool p).st = .opened ∧
     (s.spool p).sqHead ≠ (s.spool p).sqTail ∧ 2 ≤ credits (s.spool p) ∧ outstanding s p < 256) ∧
  (∀ s : State, (s.spools.map Prod.fst).Pairwise (· < ·) →
     ((∃ p, fetchable s p = true) → ∃ p, canFetch s p = true) ∧
     ∀ p, canFetch s p = true → fetchable s p = true ∧
       (s.bus.served < 8 → fetchable s s.bus.turn = true → p = s.bus.turn) ∧
       (8 ≤ s.bus.served ∨ fetchable s s.bus.turn = false → ∀ r, fetchable s r = true →
         (s.bus.turn < p → s.bus.turn < r → p ≤ r) ∧ (p ≤ s.bus.turn → r ≤ s.bus.turn ∧ p ≤ r)))

/-- A command outstanding whose turn it is runs by COMMAND_START as its own row does, with the accesses to host memory that it
meets now. One that waits for its counter, that FENCE holds behind an earlier command of its spool, or that has started, stays
as it is (R365, R366, R375). A row that brings its command makes it outstanding unstarted where FENCE or WAIT holds it, and is
refused with an ERROR where a check at fetch fails; a row that is not the command fetched under its number, or whose turn has not
come, has no effect (R363, R365; log 22). A command whose number one outstanding from before a
resynchronisation still has starts beside it (R354, R361, R365). STATUS_RECORD_WRITE puts the oldest record due at
CQ_TAIL as its 32 bytes with the slot's PHASE, advances CQ_TAIL, which turns PHASE where it wraps, and then sends the record's
signal; a record that closes a spool then does so, and a spool that waited for its last record closes. A write that fails
halts the spool and keeps the record; on spool 0 the records due are discarded and counted (R341, R342, R348, R353, R372,
R384, R386). -/
def Obligations.StartAndWrite : Prop :=
  (∀ (p : Nat) (seq : W32) (io : Io) (s : State) (o : OutCmd) (c : Cmd), 1 ≤ p → p < 4096 → findOut s p seq = some o →
     outCmd o = some c → c.wf = true →
     (myTurn s p o = true → ∃ t,
       exec (o.instr.withCmd { c with seq := seq, io := io }) (onOut s p seq fun x => { x with stale := false }) = .next t ∧
       exec (.commandStart p seq io) s = .next (onOut t p seq fun x => { x with stale := o.stale })) ∧
     (s.spools = [(p, s.spool p)] → (s.spool p).out = [o] → o.started = false → o.orphan = false → o.released = true →
       myTurn s p o = true) ∧
     (o.started = true ∨ o.released = false ∨
       (c.fence = true ∧ ((s.spool p).out.takeWhile (fun x => x.seq != o.seq) ≠ [] ∨ orphanKeys s p ≠ [])) →
       exec (.commandStart p seq io) s = .next s)) ∧
  (∀ (i : Instr) (c : Cmd) (s : State), i.cmd? = some c → c.wf = true → canStart s c = true → findOut s c.spool c.seq = none →
     let bad := (headerCheck s c (opcodeOf i)).or (((paramCheck i).or (bankExtent s i)).or (syncCheck s c))
     (∀ code, bad = some code → ∃ t, exec i s = .next t ∧ (t.spool c.spool).out = (s.spool c.spool).out ∧
       (∃ r, (t.spool c.spool).due.getLast?.map DueRec.record = some r ∧ r.cls = 4 ∧ r.code = code ∧ r.seq = c.seq) ∧
       (∀ n, n ≠ c.spool → t.spool n = s.spool n) ∧ t = { s with spools := t.spools }) ∧
     (bad = none → mayStart s c = false → ∃ t o, exec i s = .next t ∧
       (t.spool c.spool).out = (s.spool c.spool).out ++ [o] ∧ o.seq = c.seq ∧ o.instr = i ∧ o.started = false ∧
       (o.released = true ↔ c.mode ≠ .wait ∨ s.counter c.counter ≠ 0) ∧
       (∀ n, n ≠ c.spool → t.spool n = s.spool n) ∧ t = { s with spools := t.spools })) ∧
  (∀ (i : Instr) (c : Cmd) (s : State) (o : OutCmd), i.cmd? = some c → findFetched s c = some o →
     o.opcode ≠ opcodeOf i ∨ sameCommand o i c = false ∨ myTurn s c.spool o = false → exec i s = .next s) ∧
  (∀ (c : Cmd) (s : State), c.wf = true → canStart s c = true → findFetched s c = none → headerCheck s c 0 = none →
     syncCheck s c = none → mayStart s c = true →
     let u := begun (.nop c) c s
     exec (.nop c) s = .next (doneAt u c []) ∧
     (u.spool c.spool).out.map OutCmd.number = (s.spool c.spool).out.map OutCmd.number ++ [c.seq]) ∧
  (∀ (p : Nat) (s : State) (d : DueRec) (ds : List DueRec), p < 4096 → (s.spool p).due = d :: ds →
     writesRecords s p = true → closeWaits s p d = false →
     let q := s.spool p
     let wrap := q.cqTail + 1 = 2 ^ q.useCqOrd
     (recordBytes d.record q.phase).length = 32 ∧
     (∃ x, exec (.statusRecordWrite p true) s = .next
         (let y := sendSignal x d.signal
          match d.closes with
          | some t => closeSpool y t
          | none => if (y.spool p).closing = true ∧ (y.spool p).due = [] then closeSpool y p else y) ∧
       (x.spool p).due = ds ∧ (x.spool p).ring = q.ring ++ [d.record] ∧ (x.spool p).cqTail = (if wrap then 0 else q.cqTail + 1) ∧
       (x.spool p).phase = (if wrap then !q.phase else q.phase) ∧ (x.spool p).st = q.st ∧ (x.spool p).out = q.out ∧
       (x.spool p).closing = q.closing ∧ (∀ r, r ≠ p → x.spool r = s.spool r) ∧
       x = { s with spools := x.spools,
                    bus := { s.bus with
                             host := s.bus.host.writeBytes (q.useCq + 32 * q.cqTail) (recordBytes d.record q.phase) } }) ∧
     (p ≠ 0 → q.closing = false → ∃ t, exec (.statusRecordWrite p false) s = .next t ∧
       t.spool p = { q with cqFault := true, st := .halted } ∧
       (∀ r, r ≠ p → t.spool r = s.spool r) ∧ t = { s with spools := t.spools }) ∧
     (p ≠ 0 → q.closing = true → exec (.statusRecordWrite p false) s = .next (closeSpool s p)) ∧
     (p = 0 → ∃ x, exec (.statusRecordWrite 0 false) s = .next ((q.due.filterMap DueRec.closes).foldl closeSpool x) ∧
       (x.spool 0).due = [] ∧ (x.spool 0).cqFault = true ∧ (x.spool 0).st = q.st ∧
       (x.spool 0).eventsLost = satAdd 32 q.eventsLost (ds.length + 1) ∧ (∀ r, r ≠ 0 → x.spool r = s.spool r) ∧
       x = { s with spools := x.spools })) ∧
  (∀ (p : Nat) (ok : Bool) (s : State), (s.spool p).due = [] ∨ writesRecords s p = false →
     exec (.statusRecordWrite p ok) s = .next s)

/-- The end of a command (R354, R355, R358, R372, R377): it is no longer outstanding; its one final record is DONE,
ERROR or, after an ACCEPTED, an EVENT, with its opcode, sequence number and the tick; the record is due on its spool
with the signal its MODE asks for, and stands in the duplicate store. QUIET leaves a DONE out and sends the signal at
once. A command whose number another has taken after a resynchronisation keeps its number in its record, and the duplicate store is the
other's (R358, R361). Of a command that goes on after an orphaning the record is an EVENT on spool 0 with the spool's number as HANDLE, or
counts there as lost. The codes of R385 carry NEXT_SEQ and the packet's slot (R385). -/
def Obligations.FinalRecord : Prop :=
  (∀ (s : State) (p : Nat) (seq : W32) (code : Nat) (res : List Byte) (o : OutCmd) (c : Cmd), findOut s p seq = some o →
    outCmd o = some c → p < 4096 →
    let q := s.spool p
    let r : Rec := finalRecord s q o code res
    let quiet := c.quiet = true ∧ o.accepted = false ∧ code = 0
    r.opcode = o.opcode ∧ r.seq = o.number ∧ r.code = code ∧ r.handle = c.handle ∧ r.tick = s.tick.count ∧ r.dup = false ∧
    r.cls = (if o.accepted then 2 else if code = 0 then 0 else 4) ∧
    r.results = (if protocolCode code then toLe 4 q.nextSeq.toNat ++ toLe 2 o.slot else res) ∧
    ∃ x, finish s p seq code res = (if quiet then sendSignal x (signalOf c code) else x) ∧
      findOut x p seq = none ∧
      (x.spool p).due = (if quiet then q.due else q.due ++ [{ record := r, signal := signalOf c code, closes := none }]) ∧
      (o.shown = none → (q.nextSeq - 1 - seq).toNat < 256 → ∃ e ∈ (x.spool p).dup, e.seq = seq ∧ e.stored = some r) ∧
      (x.spool p).st = q.st ∧ (∀ n, n ≠ p → x.spool n = s.spool n) ∧
      x = { s with spools := x.spools, bus := { s.bus with wakes := x.bus.wakes } }) ∧
  (∀ (s : State) (k : Nat) (seq : W32) (code : Nat) (res : List Byte) (o : OutCmd) (c : Cmd), findOut s k seq = some o →
    outCmd o = some c → 4096 ≤ k →
    let home := k % 4096
    let r : Rec := finalRecord s (s.spool home) o code res
    let x := finish s k seq code res
    findOut x k seq = none ∧
    (takesEvent s 0 = true → (x.spool 0).due = (s.spool 0).due ++
      [{ record := { r with cls := 2, handle := BitVec.ofNat 32 home }, signal := signalOf c code, closes := none }]) ∧
    (takesEvent s 0 = false → (x.spool 0).due = (s.spool 0).due ∧
      (x.spool 0).eventsLost = satAdd 32 (s.spool 0).eventsLost 1) ∧
    (x.spool home).out = (s.spool home).out ∧ (∀ n, n ≠ k → n ≠ home → n ≠ 0 → x.spool n = s.spool n) ∧
    x = { s with spools := x.spools })

/-! Registers, the CXL port and reset. -/

/-- R11, R12: a naturally aligned read of 4 or 8 bytes answers the register, any other reads 0. A 4-byte read of a low half
latches the high half of that instant; the next 4-byte read of the high half answers the latched value and releases it, and
one with no latch held answers the high half of its own instant; an 8-byte read answers both halves of one instant, and it and
every other read leave the latches. CAL_SNAP: a keel with no snapshot pending takes the panel now selected; one
that has keeps its panel (R116, R117). A naturally aligned write of 4 or 8 bytes to BAR0 or BAR2 writes its words, low
word first (the order is the model's choice, log 85); any other size or alignment writes nothing, and a VF writes nothing outside its own counters and doorbell
pages (R11, R333). Before ready none of them does anything (R543). -/
def Obligations.RegisterAccess : Prop :=
  (∀ (fn bar o : Nat) (s : State), fn < 65 → bar = 0 ∨ bar = 2 → s.boot.ready = true → latched bar o = true →
     ∃ t, exec (.latchedLowRead fn bar ⟨o, 4⟩) s = .next t ∧
       t.bus.rdata = BitVec.ofNat 64 (readWord s fn bar o) ∧ t = { s with bus := t.bus, free := t.free } ∧
       ∀ x : State, x.boot.ready = true → x.bus.latch = t.bus.latch →
         ∃ y, exec (.latchedHighRead fn bar (o + 4)) x = .next y ∧
           y.bus.rdata = BitVec.ofNat 64 (BitVec.ofNat 32 (readWord s fn bar (o + 4))).toNat ∧
           y.bus.latch.find (latchKey fn bar o) = none ∧ y = { x with bus := y.bus, free := y.free }) ∧
  ((∀ (fn bar o : Nat) (s : State), fn < 65 → bar = 0 ∨ bar = 2 → s.boot.ready = true → o % 4 = 0 →
     latched bar (o - 4) = false ∨ s.bus.latch.find (latchKey fn bar (o - 4)) = none →
     ∃ t, exec (.latchedHighRead fn bar o) s = .next t ∧ exec (.latchedLowRead fn bar ⟨o, 4⟩) s = .next t ∧
       t.bus.rdata = BitVec.ofNat 64 (readWord s fn bar o) ∧ (latched bar o = false → t.bus.latch = s.bus.latch) ∧
       t = { s with bus := { s.bus with rdata := t.bus.rdata, latch := t.bus.latch }, free := t.free }) ∧
   (∀ (fn bar o : Nat) (s : State), fn < 65 → bar = 0 ∨ bar = 2 → s.boot.ready = true → o % 8 = 0 →
     ∃ t, exec (.latchedLowRead fn bar ⟨o, 8⟩) s = .next t ∧
       t.bus.rdata = BitVec.ofNat 64 (readWord s fn bar o + 4294967296 * readWord s fn bar (o + 4)) ∧
       t = { s with bus := { s.bus with rdata := t.bus.rdata }, free := t.free }) ∧
   (∀ (fn bar o size : Nat) (s : State), fn < 65 → bar = 0 ∨ bar = 2 → s.boot.ready = true → 1 ≤ size → size ≤ 64 →
     o % size ≠ 0 ∨ (size ≠ 4 ∧ size ≠ 8) →
     ∃ t, exec (.latchedLowRead fn bar ⟨o, size⟩) s = .next t ∧ t.bus.rdata = 0 ∧
       t = { s with bus := { s.bus with rdata := 0 }, free := t.free })) ∧
  (∀ (k : Nat) (s : State), k < 8 → s.boot.ready = true →
     ∃ t, exec (.calSnap k) s = .next t ∧
       (t.arr.wins.get CalWin.init k).busy = some ((s.arr.wins.get CalWin.init k).busy.getD
         ((4 * k + (s.arr.wins.get CalWin.init k).position) * 2048 + (s.arr.wins.get CalWin.init k).panel)) ∧
       (∀ j, j ≠ k → t.arr.wins.get CalWin.init j = s.arr.wins.get CalWin.init j) ∧
       t = { s with arr := { s.arr with wins := t.arr.wins } }) ∧
  (∀ (fn bar o size k : Nat) (v : W64) (s : State), s.boot.ready = false →
     exec (.latchedLowRead fn bar ⟨o, size⟩) s = .next s ∧ exec (.latchedHighRead fn bar o) s = .next s ∧
     exec (.calSnap k) s = .next s ∧ exec (.registerWrite fn bar o size v) s = .next s) ∧
  ((∀ (fn bar o : Nat) (v : W64) (s : State), fn < 65 → bar = 0 ∨ bar = 2 → s.boot.ready = true →
     ¬ (bar = 0 ∧ 0x80000 ≤ o ∧ o < 0x90000) →
     (o % 4 = 0 → exec (.registerWrite fn bar o 4 v) s = .next (writeWord fn bar o (v.toNat % 4294967296) s)) ∧
     (o % 8 = 0 → exec (.registerWrite fn bar o 8 v) s = .next
       (writeWord fn bar (o + 4) (v.toNat / 4294967296) (writeWord fn bar o (v.toNat % 4294967296) s)))) ∧
   (∀ (fn o : Nat) (v : W64) (s : State), fn < 65 → s.boot.ready = true → 0x80000 ≤ o → o < 0x90000 →
     (counterOwner s ((o - 0x80000) / 8) = fn → o % 8 = 0 →
       exec (.registerWrite fn 0 o 8 v) s = .next (updateCounter s (.put ((o - 0x80000) / 8) v))) ∧
     (counterOwner s ((o - 0x80000) / 8) ≠ fn → exec (.registerWrite fn 0 o 8 v) s = .next s) ∧
     exec (.registerWrite fn 0 o 4 v) s = .next s) ∧
   (∀ (fn bar o size : Nat) (v : W64) (s : State), fn < 65 → bar = 0 ∨ bar = 2 → 1 ≤ size → size ≤ 64 →
     o % size ≠ 0 ∨ (size ≠ 4 ∧ size ≠ 8) → exec (.registerWrite fn bar o size v) s = .next s) ∧
   (∀ (fn bar o size : Nat) (v : W64) (s : State), fn < 65 → fn ≠ 0 → bar = 0 ∨ bar = 2 → 1 ≤ size → size ≤ 64 →
     ¬ (bar = 0 ∧ 0x80000 ≤ o ∧ o < 0x90000) → ¬ (bar = 0 ∧ 0x100000 ≤ o ∧ o < 0x200000) →
     exec (.registerWrite fn bar o size v) s = .next s))

/-- Isolation of functions, while every outstanding command keeps to its own function (`Owned`: its waits and MODE name the function's
counters, and a VF's is none that only the PF may send). Whatever a VF does, a register access, a packet, a command or the end of its
wait, every spool, counter, open session and adapter of another function stays as it is, but for the event spool and but for the
numbers under which commands go on (R330, R333–R337); so do the options, the module's models and arrays, its logs, links, supplies
and NV flash. Every step that leaves the allotment of R331 as it is keeps `Owned`, and it holds at reset. -/
def Obligations.FunctionIsolation : Prop :=
  (∀ (i : Instr) (fn : Nat) (s t : State), Owned s → issuer s i = some fn → fn ≠ 0 → exec i s = .next t →
    (∀ p, p ≠ 0 → spoolOwner s (p % 4096) ≠ fn → t.spool p = s.spool p) ∧
    (∀ n, counterOwner s n ≠ fn → t.counter n = s.counter n) ∧
    (∀ k, (s.sess k).st ≠ .closed → spoolOwner s (s.sess k).spool ≠ fn → namelessSession (t.sess k) = namelessSession (s.sess k)) ∧
    (∀ k, (s.adapter k).used = true → (s.adapter k).resident = true ∨ (s.adapter k).cmd ≠ none → (s.adapter k).fn ≠ fn →
      namelessAdapter (t.adapter k) = namelessAdapter (s.adapter k)) ∧
    (∀ k, namelessModel (t.model k) = namelessModel (s.model k)) ∧ namelessBoot t.boot = namelessBoot s.boot ∧
    t.nv = s.nv ∧ t.opts = s.opts ∧ t.arr = s.arr ∧ t.chk = s.chk ∧ t.links = s.links ∧ t.cvu = s.cvu ∧ t.arb = s.arb ∧
    t.supply = s.supply ∧ t.thermal = s.thermal ∧ t.adc = s.adc ∧ t.pending = s.pending) ∧
  (∀ s t : State, Owned s → step s = .next t → opt t oVfSpools = opt s oVfSpools → opt t oVfCounters = opt s oVfCounters → Owned t) ∧
  Owned State.reset

/-- The sideband answers from the end of step 2, ready or not, and not before (R560). SETDASA to 0x50 + MOD_ADDR gives the target a
dynamic address, once (the model's choice, log 150); private transfers reach it there and nowhere else, the data of one private write
at consecutive offsets (the model's choice, log 64). A write of bytes to the image buffer with control puts them there; a write of one
word to RESET_CAUSE clears the bits written 1, and one to RESET_CTRL with control, its key and GO resets the module (R562, R563); a
write at a misaligned offset, or to no register, only sets the offset of the next read; a read answers the four bytes at the offset
last written. IMAGE_GO while bring-up waits for an image: the check's code becomes A_STATUS, and a buffer that passes is loaded and
bring-up goes on from step 6; one that fails leaves it waiting, and with no wait or no control nothing happens (R551, R560).
IMAGE_WRITE of an accepted image leaves the copy invalid and starts the erase pulse; each pulse that ends counts, the next starts at
the next edge until 257 have ended (the model's choice, log 47), and NV_PROGRAM_DONE puts the bytes there, or sets NV_FAULT and ends
the command with NV_FAULT; an image that is not accepted or cannot be read changes no copy; while one is in progress another gives
UNIT_BUSY (R386, R422, R424, R552, R553). -/
def Obligations.SidebandImages : Prop :=
  ((∀ (a o : Nat) (d : List Byte) (s : State), a < 128 → sidebandTo s a = true → 0x80000000 ≤ o → o < 0x80010000 →
     (sidebandControl s = true → exec (.sidebandWrite (.priv a o d)) s = .next { s with boot := { s.boot with
       sbOffset := o, buffer := s.boot.buffer.writeBytes (o - 0x80000000) (d.take (0x80010000 - o)) } }) ∧
     (sidebandControl s = false →
       exec (.sidebandWrite (.priv a o d)) s = .next { s with boot := { s.boot with sbOffset := o } })) ∧
   (∀ (a : Nat) (d : List Byte) (s : State), a < 128 → sidebandTo s a = true → d.length = 4 →
     exec (.sidebandWrite (.priv a 0x10000 d)) s = .next { s with boot := { s.boot with
       sbOffset := 0x10000, cause := s.boot.cause &&& ~~~(BitVec.ofNat 9 (le d 0 4)) } }) ∧
   (∀ (a : Nat) (d : List Byte) (s : State), a < 128 → sidebandTo s a = true → d.length = 4 →
     let go := sidebandControl s = true ∧ le d 0 4 / 256 % 256 = 0xA5 ∧ le d 0 4 % 2 = 1
     (go → s.boot.pulse = false → s.supply.stopping = false → ∃ t, exec (.sidebandWrite (.priv a 0x10008 d)) s = .next t ∧
       t.boot.ready = false ∧ ResetSrc.register ∈ t.boot.arriving ∧ t.sessions = [] ∧ t.models = [] ∧ t.nv = s.nv) ∧
     (go → s.boot.pulse = true → ∃ t, exec (.sidebandWrite (.priv a 0x10008 d)) s = .next t ∧
       ResetSrc.register ∈ t.boot.latched ∧
       t = { s with boot := { s.boot with sbOffset := 0x10008, latched := t.boot.latched } }) ∧
     (¬ go → exec (.sidebandWrite (.priv a 0x10008 d)) s = .next { s with boot := { s.boot with sbOffset := 0x10008 } })) ∧
   (∀ (a o : Nat) (d : List Byte) (s : State), a < 128 → sidebandTo s a = true →
     (o < 0x80000000 ∧ o % 4 ≠ 0) ∨ o + d.length ≤ 0x10000 ∨ (0x30000 ≤ o ∧ o + d.length ≤ 0x80000000) →
     exec (.sidebandWrite (.priv a o d)) s = .next { s with boot := { s.boot with sbOffset := o } }) ∧
   (∀ (a : Nat) (d : List Byte) (s : State), a < 128 → sidebandTo s a = true → d ≠ [] →
     exec (.sidebandWrite (.priv a 0x80010000 d)) s =
       exec .imageGo { s with boot := { s.boot with sbOffset := 0x80010000 } }) ∧
   (∀ (a : Nat) (s : State), a < 128 → sidebandTo s a = true →
     let o := s.boot.sbOffset
     (0x80000000 ≤ o → o < 0x80010000 → ∃ t, exec (.sidebandRead a) s = .next t ∧
       t.bus.rdata = BitVec.ofNat 64 (le (s.boot.buffer.readBytes (o - 0x80000000) 4) 0 4) ∧ t = { s with bus := t.bus }) ∧
     (0x10000 ≤ o → o < 0x30000 → o % 4 = 0 → latched 0 o = false → latched 0 (o - 4) = false →
       exec (.sidebandRead a) s = .next { s with bus := { s.bus with rdata := BitVec.ofNat 64 (bar0Word s o) } }) ∧
     (0x30000 ≤ o → o < 0x80000000 → exec (.sidebandRead a) s = .next { s with bus := { s.bus with rdata := 0 } })) ∧
   (∀ (a o : Nat) (d : List Byte) (s : State),
     (sidebandTo s a = true ↔ s.boot.powered = true ∧ 3 ≤ s.boot.step ∧ s.boot.sbAddr = some a) ∧
     (sidebandTo s a = false → exec (.sidebandWrite (.priv a o d)) s = .next s ∧ exec (.sidebandRead a) s = .next s)) ∧
   (∀ (st d : Nat) (s : State), st < 128 → d < 128 →
     (s.boot.powered = true → 3 ≤ s.boot.step → s.boot.sbAddr = none → st = 0x50 + s.boot.strapAddr →
       exec (.sidebandWrite (.setdasa st d)) s = .next { s with boot := { s.boot with sbAddr := some d } }) ∧
     (s.boot.powered = false ∨ s.boot.step < 3 ∨ s.boot.sbAddr ≠ none ∨ st ≠ 0x50 + s.boot.strapAddr →
       exec (.sidebandWrite (.setdasa st d)) s = .next s))) ∧
  (∀ s : State,
     (s.boot.waitImage = false ∨ sidebandControl s = false → exec .imageGo s = .next s) ∧
     (s.boot.waitImage = true → sidebandControl s = true →
       let c := hostImageStatus s (s.boot.buffer.readBytes 0 65536)
       ∃ t, exec .imageGo s = .next t ∧
         (c ≠ 0 → t = { s with boot := { s.boot with aStatus := c } }) ∧
         (c = 0 → t.boot.waitImage = false ∧ t.boot.step = 6 ∧ t.boot.aStatus = 0 ∧ t.boot.inUse = 3 ∧
           t.boot.image = some (s.boot.buffer.readBytes 0 65536)))) ∧
  ((∀ (c : Cmd) (a k : Nat) (s : State), Starts (.imageWrite c a k) c s →
     (s.boot.imgJob.isSome = true →
       exec (.imageWrite c a k) s = .next (errorAt (begun (.imageWrite c a k) c s) c 0x0211 [])) ∧
     (s.boot.imgJob = none → Unread (.imageWrite c a k) c s a 65536 →
       exec (.imageWrite c a k) s = .next (acceptedDone (begun (.imageWrite c a k) c s) c 0x0501 [])) ∧
     (∀ b v, s.boot.imgJob = none → Reads (.imageWrite c a k) c s a 65536 b v →
       (imageAccepted v (b.take 65536) = false →
         exec (.imageWrite c a k) s = .next (acceptedDone v c 0x0112 [])) ∧
       (imageAccepted v (b.take 65536) = true → ∃ x,
         exec (.imageWrite c a k) s = .next (acceptedAt x c [] .image) ∧
         x.nv = (if k = 0 then { s.nv with copyA := .torn } else { s.nv with copyB := .torn }) ∧
         x.boot = { s.boot with imageBusy := true, pulse := true,
                                imgJob := some { spool := c.spool, seq := c.seq, copy := k, bytes := b.take 65536,
                                                 pulses := 0 } } ∧
         x = { v with nv := x.nv, boot := x.boot }))) ∧
   (∀ (ok : Bool) (s : State),
     (s.boot.imgJob = none → exec (.nvProgramDone ok) s = .next s) ∧
     (s.boot.imgJob ≠ none → s.boot.pulse = true → s.boot.latched ≠ [] →
       exec (.nvProgramDone ok) s = exec .resetAfterNvPulse s) ∧
     (∀ j, s.boot.imgJob = some j → s.boot.pulse = false ∨ s.boot.latched = [] → ∃ x,
       exec (.nvProgramDone ok) s = .next (finish x j.spool j.seq (if ok then 0 else 0x0505) []) ∧
       x.boot = { s.boot with imageBusy := false, pulse := false, imgJob := none, nvFault := s.boot.nvFault || !ok } ∧
       (ok = true → x.nv = (if j.copy = 0 then { s.nv with copyA := .image j.bytes }
         else { s.nv with copyB := .image j.bytes })) ∧
       (ok = false → x.nv = s.nv) ∧ x = { s with nv := x.nv, boot := x.boot })) ∧
   (∀ s : State, nextPulse s = { s with boot := { s.boot with pulse := (nextPulse s).boot.pulse } } ∧
     ((nextPulse s).boot.pulse = true ↔ s.boot.pulse = true ∨ ∃ j, s.boot.imgJob = some j ∧ j.pulses < 257)))

/-- The host context of a check-value unit (R488, R489): a new algorithm loads its initial value; 3 and the algorithm
in force change nothing; INIT loads the initial value; a value written whole or by halves loses the bits above the
algorithm's width; 4 or 8 bytes of data are fed low byte first, and any other size changes nothing (R11). No other context or
unit changes, nor the context shown. Feeding a check-value unit its bytes in two accesses gives what one access gives. A stream of the
unit leaves its algorithm and value in the first free context of 0 to 14 (R487, R488); the final value is the value with the algorithm's
final XOR, and 0 until the context is used (R489, R500; log 65). -/
def Obligations.CheckValueUnit : Prop :=
  (∀ (u : Nat) (s : State), u < 9 → s.boot.ready = true →
     let c := hostCtx s u
     (∀ v, ∃ t, exec (.cvuHostPoly u v) s = .next t ∧
       hostCtx t u = (if v % 4 = 3 ∨ v % 4 = c.alg then { c with used := true }
         else { c with alg := v % 4, value := crcInit (crcOfNat (v % 4)), used := true }) ∧
       (∀ w, w ≠ u → t.cvu.get Cvu.init w = s.cvu.get Cvu.init w) ∧ sameButHost s t u ∧ t = { s with cvu := t.cvu }) ∧
     (∃ t, exec (.cvuHostInit u) s = .next t ∧ hostCtx t u = { c with value := crcInit (crcOfNat c.alg), used := true } ∧
       (∀ w, w ≠ u → t.cvu.get Cvu.init w = s.cvu.get Cvu.init w) ∧ sameButHost s t u ∧ t = { s with cvu := t.cvu }) ∧
     (∀ v : W64, ∃ t, exec (.cvuHostValueWrite u 0x18 8 v) s = .next t ∧
       hostCtx t u = { c with value := BitVec.ofNat 64 (v.toNat % 2 ^ crcWidth (crcOfNat c.alg)), used := true } ∧
       (∀ w, w ≠ u → t.cvu.get Cvu.init w = s.cvu.get Cvu.init w) ∧ sameButHost s t u ∧ t = { s with cvu := t.cvu }) ∧
     (∀ v : W64, ∃ t, exec (.cvuHostValueWrite u 0x18 4 v) s = .next t ∧
       (let x := c.value.toNat / 2 ^ 32 * 2 ^ 32 + v.toNat % 2 ^ 32
        hostCtx t u = { c with value := BitVec.ofNat 64 (x % 2 ^ crcWidth (crcOfNat c.alg)), used := true }) ∧
       (∀ w, w ≠ u → t.cvu.get Cvu.init w = s.cvu.get Cvu.init w) ∧ sameButHost s t u ∧ t = { s with cvu := t.cvu }) ∧
     (∀ v : W64, ∃ t, exec (.cvuHostValueWrite u 0x1C 4 v) s = .next t ∧
       (let x := v.toNat % 2 ^ 32 * 2 ^ 32 + c.value.toNat % 2 ^ 32
        hostCtx t u = { c with value := BitVec.ofNat 64 (x % 2 ^ crcWidth (crcOfNat c.alg)), used := true }) ∧
       (∀ w, w ≠ u → t.cvu.get Cvu.init w = s.cvu.get Cvu.init w) ∧ sameButHost s t u ∧ t = { s with cvu := t.cvu }) ∧
     (∀ (size : Nat) (v : W64), size ≠ 4 → size ≠ 8 → exec (.cvuHostData u size v) s = .next s) ∧
     (∀ (size : Nat) (v : W64), size = 4 ∨ size = 8 → ∃ t, exec (.cvuHostData u size v) s = .next t ∧
       hostCtx t u = { c with value := crcFeed (crcOfNat c.alg) c.value (toLe size v.toNat), used := true } ∧
       (∀ w, w ≠ u → t.cvu.get Cvu.init w = s.cvu.get Cvu.init w) ∧ sameButHost s t u ∧ t = { s with cvu := t.cvu })) ∧
  (∀ (u : Nat) (a b : W64) (s t x y : State), u < 9 → s.boot.ready = true →
     exec (.cvuHostData u 4 a) s = .next t → exec (.cvuHostData u 4 b) t = .next x →
     exec (.cvuHostData u 8 (BitVec.ofNat 64 (b.toNat % 2 ^ 32 * 2 ^ 32 + a.toNat % 2 ^ 32))) s = .next y →
     hostCtx x u = hostCtx y u) ∧
  (∀ (u alg : Nat) (b : List Byte) (s : State) (c : Nat), freeCtx s u = some c →
     let t := runStream s u alg b
     (t.cvu.get Cvu.init u).ctxs.get CvuCtx.init c =
       { alg := alg, value := crcFeed (crcOfNat alg) (crcInit (crcOfNat alg)) b, inUse := false, used := true } ∧
     (∀ k, k ≠ c → (t.cvu.get Cvu.init u).ctxs.get CvuCtx.init k = (s.cvu.get Cvu.init u).ctxs.get CvuCtx.init k) ∧
     (∀ w, w ≠ u → t.cvu.get Cvu.init w = s.cvu.get Cvu.init w) ∧ t = { s with cvu := t.cvu } ∧ c < 15) ∧
  (∀ x : CvuCtx, cvuFinal x = (if x.used then x.value ^^^ crcXor (crcOfNat x.alg) else 0))

/-- HDM: what a write within one line of the window stores is what a read of its 8 bytes returns, the write changes no other
byte of keel DRAM, and neither touches anything beyond memory, the line last read and the snoop filter; outside the window and
before ready neither acts (R470, R472). CONFIG_REQUEST is answered normally when ready, with retry status from step 3, and not
at all before or in reset hold; to the PF of a ready module it can set VF Enable, program or read the HDM range, or ask for a
measurement, which the next edge takes: the image digest, the trim digest or the digest of a model index, none for a free one;
slot 0 is read as the certificate chain (R332, R471, R543, R545, R558, R559). A buffer in the programmed range is written to the
module's own DRAM and not to host memory, the lines of it that the host held are snooped, and the host keeps no copy of them (R472,
R473). CXL_ERROR enters the AER status and writes a record of kind 0x0033 with it; IDE_STREAM_STATE notes the stream's state (R466,
R499, R548). That configuration requests reach VF Enable, the HDM range, the AER status, the port ID and SPDM, and the Register
Locator's entry, are the model's choices (logs 92, 145, 146). -/
def Obligations.CxlPort : Prop :=
  ((∀ (w : Nat) (d : List Byte) (keeps : Bool) (s : State), s.boot.ready = true →
     s.kv.dram.wf = true → w < opt s oHdmSize * 0x200000000 → w % 64 + d.length ≤ 64 →
     ∃ t, exec (.hdmAccess true w d keeps) s = .next t ∧
       (∀ i, i < d.length → t.kv.dram.read (hdmAddr s w + i) = d.getD i 0) ∧
       (∀ a, a < hdmAddr s w ∨ hdmAddr s w + d.length ≤ a → t.kv.dram.read a = s.kv.dram.read a) ∧
       t = { s with kv := { s.kv with dram := t.kv.dram }, bus := { s.bus with snoop := t.bus.snoop } } ∧
       (w / 64 ∈ t.bus.snoop ↔ keeps = true)) ∧
   (∀ (w : Nat) (keeps : Bool) (s : State), s.boot.ready = true → w < opt s oHdmSize * 0x200000000 →
     ∃ t, exec (.hdmAccess false w [] keeps) s = .next t ∧
       t.bus.line = s.kv.dram.readBytes (hdmAddr s (64 * (w / 64))) 64 ∧
       t.bus.rdata = BitVec.ofNat 64 (le t.bus.line (w % 64 / 8 * 8) 8) ∧ (w / 64 ∈ t.bus.snoop ↔ keeps = true) ∧
       t = { s with bus := { s.bus with line := t.bus.line, rdata := t.bus.rdata, snoop := t.bus.snoop } }) ∧
   (∀ (write : Bool) (w : Nat) (d : List Byte) (keeps : Bool) (s : State),
     s.boot.ready = false ∨ opt s oHdmSize * 0x200000000 ≤ w → exec (.hdmAccess write w d keeps) s = .next s)) ∧
  (∀ (c : Cmd) (ch a base : Nat) (s : State), Starts (.adcRead c ch a) c s → s.bus.hdmBase = some base → opt s oHdmSize ≤ 32 →
     s.kv.dram.wf = true →
     let b := (maskBits ch 64).flatMap fun k => toLe 2 (adcValue (s.adc.chans.get AdcChan.init k))
     base ≤ a → a + b.length ≤ base + opt s oHdmSize * 0x200000000 →
     ∃ x, exec (.adcRead c ch a) s = .next (doneAt x c []) ∧
       (∀ i, i < b.length → x.kv.dram.read (hdmAddr s (a - base + i)) = b.getD i 0) ∧
       (∀ i, i < b.length → (a - base + i) / 64 ∉ x.bus.snoop) ∧
       let u := begun (.adcRead c ch a) c s
       x = { u with kv := { s.kv with dram := x.kv.dram }, bus := { u.bus with snoop := x.bus.snoop, snooped := x.bus.snooped } } ∧
       (∀ l, l ∈ x.bus.snooped ↔ l ∈ s.bus.snoop ∧ 64 * l < a - base + b.length ∧ a - base < 64 * l + 64) ∧
       (∀ l, l ∈ x.bus.snoop ↔ l ∈ s.bus.snoop ∧ l ∉ x.bus.snooped)) ∧
  ((∀ (fn : Nat) (op : CfgOp) (s : State), fn < 65 → ∃ t, exec (.configRequest fn op) s = .next t ∧
     (t.bus.resp = 0 ↔ s.boot.ready = true) ∧
     (s.boot.ready = false → (t.bus.resp = 1 ↔ s.boot.powered = true ∧ 3 ≤ s.boot.step ∧ s.boot.hold = 0)) ∧
     (s.boot.ready = false ∨ fn ≠ 0 ∨ op = .other → t = { s with bus := { s.bus with resp := t.bus.resp } }) ∧
     (s.boot.ready = true → fn = 0 →
       (∀ on, op = .vfEnable on →
         t = { s with boot := { s.boot with vfEnable := on }, bus := { s.bus with resp := 0 } }) ∧
       (∀ base, op = .hdmRange base → t = { s with bus := { s.bus with resp := 0, hdmBase := base } }) ∧
       (op = .hdmSize → t = { s with bus := { s.bus with resp := 0, rdata := t.bus.rdata } } ∧
         t.bus.rdata = BitVec.ofNat 64 (opt s oHdmSize * 0x200000000)) ∧
       (op = .registerLocator → t = { s with bus := { s.bus with resp := 0, rdata := 0x102 } }) ∧
       (∀ id, op = .portId id → t = { s with bus := { s.bus with resp := 0, portId := id % 4096 } }) ∧
       (op = .aerStatus → t = { s with bus := { s.bus with resp := 0, rdata := BitVec.ofNat 64 s.bus.aer.toNat } }) ∧
       (∀ v, op = .aerClear v → t = { s with bus := { s.bus with resp := 0, aer := s.bus.aer &&& ~~~v } }) ∧
       (∀ slot, op = .certificate slot →
         t = { s with bus := { s.bus with resp := 0, spdm := if slot = 0 then Config.certChain else [], spdmSig := [] } }) ∧
       (∀ k n, op = .measurement k n →
         t = { s with bus := { s.bus with resp := 0 },
                      tick := { s.tick with acts := s.tick.acts ++ [.measure k n] } }))) ∧
   (∀ (l : List EdgeAct) (n : List Byte) (s : State) (k : Nat), ∃ x, applyAct l s (.measure k n) = x ∧
     x = { s with bus := { s.bus with spdm := x.bus.spdm, spdmSig := x.bus.spdmSig } } ∧
     (k = 1 → x.bus.spdm = imageDigest s) ∧ (k = 2 → x.bus.spdm = trimDigest s) ∧
     (∀ i m, k = 4 + i → s.models = [(i, m)] →
       x.bus.spdm = (if m.st = .closed ∨ m.st = .staging then [] else slice m.bytes 88 64))) ∧
   (∀ (w : W32) (s : State), s.boot.ready = true → ∃ t, exec (.cxlError w) s = .next t ∧
     (∃ r, t.chk.log.getLast? = some r ∧ r.kind = 0x0033 ∧ r.source = 8 ∧ r.detail = (s.bus.aer ||| w).toNat ∧
       r.index = s.chk.next ∧ r.recovered = false) ∧
     t = { s with chk := { s.chk with log := t.chk.log, next := t.chk.next }, bus := { s.bus with aer := s.bus.aer ||| w } }) ∧
   (∀ (w : W32) (s : State), s.boot.ready = false → exec (.cxlError w) s = .next s) ∧
   (∀ (mem secure : Bool) (s : State), exec (.ideStreamState mem secure) s = .next
     { s with boot := { s.boot with ideMem := if mem then secure else s.boot.ideMem,
                                    ideIo := if mem then s.boot.ideIo else secure } }))

/-- A full reset (R287, R535–R539): PERST and MRST of 1 µs or more, HOT_RESET and RESET_CTRL with its key begin
bring-up again with their cause, everything volatile as after reset; during an NV pulse they wait for its end, which
RESET_AFTER_NV_PULSE brings. A pin still low is held until it rises. A pulse under 100 ns does nothing, and one from 100 ns to 1 µs may
or may not reset (R535; log 18). An unpowered module takes no reset, and a stop that has begun, or a brownout, ends in power removed
with the brownout recorded unless the word records a trip (R506, R536; log 133). -/
def Obligations.FullReset : Prop :=
  ∀ s : State,
    let low := fun p => { s with boot := { s.boot with pins := addSource s.boot.pins p } }
    (∀ ns held, ns < 100 → (ResetSrc.perst ∉ s.boot.pins → exec (.perst ns held) s = .next s) ∧
      (ResetSrc.mrst ∉ s.boot.pins → exec (.mrst ns held) s = .next s)) ∧
    (∀ ns, 1000 ≤ ns →
      (ResetSrc.perst ∉ s.boot.pins → exec (.perst ns false) s = .next (startReset s .perst) ∧
        exec (.perst ns true) s = .next (startReset (low .perst) .perst)) ∧
      (ResetSrc.mrst ∉ s.boot.pins → exec (.mrst ns false) s = .next (startReset s .mrst) ∧
        exec (.mrst ns true) s = .next (startReset (low .mrst) .mrst))) ∧
    (∀ ns, 100 ≤ ns → ns < 1000 →
      let u := { s with free := s.free + 1 }
      (ResetSrc.perst ∉ s.boot.pins → exec (.perst ns true) s = .next s ∧
        (exec (.perst ns false) s = .next u ∨ exec (.perst ns false) s = .next (startReset u .perst))) ∧
      (ResetSrc.mrst ∉ s.boot.pins → exec (.mrst ns true) s = .next s ∧
        (exec (.mrst ns false) s = .next u ∨ exec (.mrst ns false) s = .next (startReset u .mrst)))) ∧
    (∀ ns, (ResetSrc.perst ∈ s.boot.pins → exec (.perst ns true) s = .next s ∧ ∃ t, exec (.perst ns false) s = .next t ∧
        t = { s with boot := { s.boot with pins := t.boot.pins } } ∧
        ∀ p, p ∈ t.boot.pins ↔ p ∈ s.boot.pins ∧ p ≠ .perst) ∧
      (ResetSrc.mrst ∈ s.boot.pins → exec (.mrst ns true) s = .next s ∧ ∃ t, exec (.mrst ns false) s = .next t ∧
        t = { s with boot := { s.boot with pins := t.boot.pins } } ∧
        ∀ p, p ∈ t.boot.pins ↔ p ∈ s.boot.pins ∧ p ≠ .mrst)) ∧
    exec .hotReset s = .next (startReset s .hotReset) ∧
    (∀ v : W32, s.boot.ready = true → exec (.resetCtrl v) s = .next
      (if v.toNat / 256 % 256 = 0xA5 ∧ v.toNat % 2 = 1 then startReset s .register else s)) ∧
    (∀ v : W32, s.boot.ready = false → exec (.resetCtrl v) s = .next s) ∧
    (s.boot.pulse = false → exec .resetAfterNvPulse s = .next s) ∧
    (s.boot.pulse = true → s.boot.latched = [] → exec .resetAfterNvPulse s = .next { s with boot := { s.boot with
      pulse := false, imgJob := s.boot.imgJob.map fun j => { j with pulses := j.pulses + 1 } } }) ∧
    (s.boot.pulse = true → s.boot.latched ≠ [] → s.boot.powered = true → ∃ t, exec .resetAfterNvPulse s = .next t ∧
      t.boot.ready = false ∧ t.boot.pulse = false ∧ t.boot.latched = [] ∧ t.sessions = [] ∧ t.boot.imgJob = none ∧
      t.nv = { s.nv with cause := t.nv.cause } ∧
      (s.supply.stopping = false → ResetSrc.brownout ∉ s.boot.latched →
        t.nv = s.nv ∧ t.boot.powered = true ∧ ∀ r ∈ s.boot.latched, r ∈ t.boot.arriving) ∧
      (s.supply.stopping = true ∨ ResetSrc.brownout ∈ s.boot.latched →
        t.boot.powered = false ∧ t.boot.arriving = [] ∧
        t.nv.cause = if s.nv.cause = .thermalTrip then .thermalTrip else .brownout)) ∧
    ∀ src, (s.boot.pulse = true → startReset s src = { s with boot := (startReset s src).boot } ∧
        src ∈ (startReset s src).boot.latched) ∧
      (s.boot.pulse = false → s.boot.powered = false → startReset s src = s) ∧
      (s.boot.pulse = false → s.boot.powered = true →
        let t := startReset s src
        t.boot.ready = false ∧ t.boot.step = 0 ∧ t.boot.cause = s.boot.cause ∧ t.boot.pins = s.boot.pins ∧
        t.spools = [] ∧ t.sync = [] ∧ t.models = [] ∧ t.sessions = [] ∧ t.adapters = [] ∧ t.kv = Kv.init ∧
        t.pipe = Pipe.init ∧ t.arr = Arrays.init ∧ t.chk = Checks.init ∧ t.links = [] ∧ t.ends = [] ∧ t.opts = Opts.init ∧
        t.tick.count = 0 ∧ t.pending = s.pending ∧
        (src ≠ .brownout → s.supply.stopping = false →
          src ∈ t.boot.arriving ∧ t.boot.powered = true ∧ t.nv = s.nv) ∧
        (src = .brownout ∨ s.supply.stopping = true → t.boot.arriving = [] ∧ t.boot.powered = false ∧
          t.nv = { s.nv with cause := if s.nv.cause = .thermalTrip then .thermalTrip else .brownout }))

/-- POWER_ON on an unpowered module starts bring-up with that cause; on a powered one it does nothing (R535, R536).
BRING_UP of a powered module that no bring-up has begun (R540–R545): CLK_SEL 3, a failing BIST, a bad factory region or DRAM
that does not train puts it in reset hold with its code; BOOT_SEL 3 leaves it waiting for an image. With nothing failing it
loads the image that BOOT_SEL selects and becomes ready, its straps sampled, its RESET_CAUSE formed, the NV cause erased, and
link 0 at the width and rate negotiated; without CXL operation it never becomes ready and link 0 shows LOST (R466, R467). It
goes on from step 6 once an image has been given, and does nothing when ready, unpowered, in hold or waiting, at step 8 without CXL, or
while a reset pin is low, which then is one of the sources that arrive at power-on (R467, R537; log 127). Keel 8 of a BIST stands for
the service die, which has no bit in BIST_FAIL (R545, R563). -/
def Obligations.BringUpRuns : Prop :=
  (∀ (backup : Bool) (s : State),
     (s.boot.powered = true → exec (.powerOn backup) s = .next s) ∧
     (s.boot.powered = false → ResetSrc.brownout ∉ s.boot.pins →
       ∃ t, exec (.powerOn backup) s = .next t ∧ t.boot.powered = true ∧ t.boot.ready = false ∧
       ResetSrc.powerOn ∈ t.boot.arriving ∧ (∀ p ∈ s.boot.pins, p ∈ t.boot.arriving) ∧ t.boot.pins = s.boot.pins ∧
       t.nv = s.nv ∧ t.spools = [] ∧ t.models = [] ∧ t.sessions = [] ∧
       (if backup then t.supply.backupGood = true ∧ t.supply.backupOv = false
        else t.supply.mainGood = true ∧ t.supply.mainOv = false ∧ t.supply.mainAbove = true))) ∧
  (∀ (b : BringUp) (s : State), (Instr.bringUp b).wf = true → s.boot.powered = true → s.boot.ready = false →
     s.boot.hold = 0 → s.boot.waitImage = false → s.boot.step = 0 → s.boot.pins = [] →
     (b.clkSel = 3 → ∃ t, exec (.bringUp b) s = .next t ∧ t.boot.hold = 3 ∧ t.boot.ready = false ∧
       t.boot.cause.getLsbD 7 = true) ∧
     (b.clkSel ≠ 3 → b.bistFail ≠ [] → ∃ t, exec (.bringUp b) s = .next t ∧ t.boot.hold = 1 ∧
       t.boot.bistFail = keelMask b.bistFail ∧ (b.bistFail = [8] → t.boot.bistFail = 0) ∧ t.boot.ready = false ∧ t.boot.cause.getLsbD 7 = true) ∧
     (b.clkSel ≠ 3 → b.bistFail = [] → b.factoryBad = true → ∃ t, exec (.bringUp b) s = .next t ∧ t.boot.hold = 2 ∧
       t.boot.ready = false) ∧
     (b.clkSel ≠ 3 → b.bistFail = [] → b.factoryBad = false → b.bootSel = 3 → ∃ t, exec (.bringUp b) s = .next t ∧
       t.boot.waitImage = true ∧ t.boot.step = 5 ∧ t.boot.ready = false ∧ t.boot.hold = 0) ∧
     (b.clkSel ≠ 3 → b.bistFail = [] → b.factoryBad = false → b.bootSel ≠ 3 →
       let ch := chooseCopy s.nv (b.bootSel == 1)
       (b.dramFail ≠ [] → ∃ t, exec (.bringUp b) s = .next t ∧ t.boot.hold = 4 ∧ t.boot.bistFail = keelMask b.dramFail ∧
         t.boot.ready = false) ∧
       (b.dramFail = [] → b.cxl = false → ∃ t, exec (.bringUp b) s = .next t ∧ t.boot.ready = false ∧ t.boot.step = 8 ∧
         (t.link 0).st = .lost) ∧
       (b.dramFail = [] → b.cxl = true → ∃ t, exec (.bringUp b) s = .next t ∧ t.boot.ready = true ∧ t.boot.step = 9 ∧
         t.boot.hold = 0 ∧
         t.boot.aStatus = (if b.bootSel = 2 then (copyStatus s.nv.part s.nv.copyA).1 else ch.1) ∧
         t.boot.bStatus = (if b.bootSel = 2 then (copyStatus s.nv.part s.nv.copyB).1 else ch.2.1) ∧
         t.boot.inUse = (if b.bootSel = 2 then 2 else ch.2.2.1) ∧ t.boot.image = (if b.bootSel = 2 then none else ch.2.2.2) ∧
         (∀ o, opt t o = (match t.boot.image with
           | some x => (imageOptions s.nv.part x).get (optDefault s.nv.part o) o
           | none => optDefault s.nv.part o)) ∧
         t.boot.cause = formCause s ∧ t.nv = { s.nv with cause := .none } ∧
         t.boot.trimBad = (distinct b.trimBad).length ∧ t.boot.strapBoot = b.bootSel ∧ t.boot.strapClk = b.clkSel ∧
         t.boot.strapAddr = b.modAddr ∧ (t.link 0).lanes = b.lanes ∧ (t.link 0).speed = b.rate ∧
         (t.link 0).st = (if b.lanes = 8 then .up else .degraded) ∧ (t.link 1).st = .training ∧ (t.link 2).st = .training ∧
         t.spools = s.spools ∧ t.sessions = s.sessions))) ∧
  (∀ (b : BringUp) (s : State), (Instr.bringUp b).wf = true →
     (s.boot.powered = false ∨ s.boot.ready = true ∨ s.boot.hold ≠ 0 ∨ s.boot.waitImage = true ∨ s.boot.pins ≠ [] →
       exec (.bringUp b) s = .next s) ∧
     (s.boot.powered = true → s.boot.ready = false → s.boot.hold = 0 → s.boot.waitImage = false → s.boot.step = 8 →
       exec (.bringUp b) s = .next s) ∧
     (s.boot.powered = true → s.boot.ready = false → s.boot.hold = 0 → s.boot.waitImage = false → s.boot.step = 6 → s.boot.pins = [] →
       b.dramFail = [] → b.cxl = true → ∃ t, exec (.bringUp b) s = .next t ∧ t.boot.ready = true ∧
         t.boot.image = s.boot.image ∧ t.boot.strapBoot = s.boot.strapBoot ∧ t.opts = s.opts))

/-! Links and DRAM channels. -/

/-- LANE_FAULT on a working lane of a link that carries traffic stops the link for retraining without the lane;
REWIDEN retrains it on every lane that passes; neither acts on link 0 (R481, R482). RETRAIN_DONE: a retrain comes back
at the width its working lanes allow, no wider than before unless REWIDEN asked, UP at full width and DEGRADED below;
with too few lanes the link is LOST. LINK_LOST counts a failed training, and the third in succession does the same
(R481–R483). LINK_TRAIN_RETRY brings a lost link back at the width its lanes allow, unless it was lost to a wrong order;
CHAIN_NEIGHBOUR_LEARN notes the neighbour, and one that breaks the order of addresses leaves the port LOST with a record (R474,
R475, R483). That such a port stays lost until a neighbour in order is learnt and it trains again is the model's reading (log 58). -/
def Obligations.LinkWidth : Prop :=
  (∀ (l : Nat) (s : State), linkOk l = true → l ≠ 0 → linkUp s l = true →
     (∀ lane, lane ∉ (s.link l).working → exec (.laneFault l lane) s = .next s) ∧
     (∀ lane, lane ∈ (s.link l).working → ∃ t, exec (.laneFault l lane) s = .next t ∧ (t.link l).st = .training ∧
       lane ∉ (t.link l).working ∧ (∀ i, i ≠ lane → (i ∈ (t.link l).working ↔ i ∈ (s.link l).working)) ∧
       (t.link l).faultLane = lane ∧ (t.link l).lanes = (s.link l).lanes ∧
       (∀ m, m ≠ l → t.link m = s.link m) ∧
       (∀ k, t.linkEnd k = { s.linkEnd k with resends := if k ∈ linkEnds l then 0 else (s.linkEnd k).resends }) ∧
       t = { s with links := t.links, ends := t.ends }) ∧
     (s.boot.ready = true → ∃ t, exec (.rewiden l) s = .next t ∧
       t.link l = { s.link l with st := .training, rewidening := true } ∧
       (∀ m, m ≠ l → t.link m = s.link m) ∧ t = { s with links := t.links }) ∧
     (s.boot.ready = false → exec (.rewiden l) s = .next s)) ∧
  (∀ (l lane : Nat) (s : State), l = 0 ∨ linkUp s l = false →
     exec (.laneFault l lane) s = .next s ∧ exec (.rewiden l) s = .next s) ∧
  ((∀ (l : Nat) (ws : List Nat) (s : State), l = 0 ∨ (s.link l).st ≠ .training → exec (.retrainDone l ws) s = .next s) ∧
   (∀ (l : Nat) (ws : List Nat) (s : State), linkOk l = true → l ≠ 0 → (s.link l).st = .training →
     let x := s.link l
     let lanes := (allLanes l).filter fun i => ws.contains i && (x.rewidening || x.lanes == 0 || x.working.contains i)
     let w := widthOf l lanes.length
     let new := if x.rewidening ∨ x.lanes = 0 then w else min w x.lanes
     ∃ t, exec (.retrainDone l ws) s = .next t ∧
       (w = 0 → (t.link l).st = .lost ∧ (t.link l).lanes = 0) ∧
       (w ≠ 0 → (t.link l).lanes = new ∧ (t.link l).st = (if new = lanesMax l then .up else .degraded) ∧
         (t.link l).working = lanes ∧ (t.link l).rewidening = false ∧
         (t.link l).degrades = (if new < x.lanes then satAdd 16 x.degrades 1 else x.degrades) ∧
         (t.link l).restores = (if x.lanes ≠ 0 ∧ x.lanes < new then satAdd 16 x.restores 1 else x.restores)) ∧
       t.models = s.models ∧ t.sessions = s.sessions ∧ t.kv = s.kv ∧ t.pipe = s.pipe ∧ t.arr = s.arr) ∧
   (∀ (l : Nat) (f : Bool) (s : State), linkOk l = true →
     (l ≠ 0 → (s.link l).st = .training →
       (f = true ∧ 2 ≤ (s.link l).failed) ∨ (f = false ∧ (s.link l).lanes ≠ 0 ∧ widthOf l (s.link l).working.length = 0) →
       ∃ t, exec (.linkLost l f) s = .next t ∧ (t.link l).st = .lost ∧ (t.link l).lanes = 0 ∧ t.ends = s.ends ∧
         (∀ m, m ≠ l → t.link m = s.link m) ∧
         ∃ r, t.chk.log.getLast? = some r ∧ r.kind = 0x0032 ∧ r.location = l ∧ r.detail = if f then 1 else 0) ∧
     (l ≠ 0 → (s.link l).st = .training → f = true → (s.link l).failed < 2 → ∃ t, exec (.linkLost l f) s = .next t ∧
       t.link l = { s.link l with failed := (s.link l).failed + 1 } ∧ (∀ m, m ≠ l → t.link m = s.link m) ∧
       t = { s with links := t.links }) ∧
     (l = 0 ∨ (s.link l).st ≠ .training ∨
       (f = false ∧ ((s.link l).lanes = 0 ∨ widthOf l (s.link l).working.length ≠ 0)) →
       exec (.linkLost l f) s = .next s))) ∧
  ((∀ (l : Nat) (ws : List Nat) (s : State), linkOk l = true → l ≠ 0 → (s.link l).st = .lost → (s.link l).orderErr = false →
     let lanes := (allLanes l).filter ws.contains
     let w := widthOf l lanes.length
     (w = 0 → exec (.linkTrainRetry l ws) s = .next s) ∧
     (w ≠ 0 → ∃ t, exec (.linkTrainRetry l ws) s = .next t ∧ (t.link l).lanes = w ∧ (t.link l).working = lanes ∧
       (t.link l).st = (if w = lanesMax l then .up else .degraded))) ∧
   (∀ (l : Nat) (ws : List Nat) (s : State), l = 0 ∨ (s.link l).st ≠ .lost ∨ (s.link l).orderErr = true →
     exec (.linkTrainRetry l ws) s = .next s) ∧
   (∀ (l a : Nat) (s : State), (s.link l).st = .down → exec (.chainNeighbourLearn l a) s = .next s) ∧
   (∀ (l a : Nat) (s : State), l = 1 ∨ l = 2 → (s.link l).st ≠ .down →
     let ok := if l = 2 then s.boot.strapAddr < a % 16 else a % 16 < s.boot.strapAddr
     ∃ t, exec (.chainNeighbourLearn l a) s = .next t ∧ (t.link l).neighbour = some (a % 16) ∧
       (ok → (t.link l).st = (if (s.link l).orderErr = true then .training else (s.link l).st) ∧
         (t.link l).orderErr = false) ∧
       (¬ ok → (t.link l).st = .lost ∧ (t.link l).orderErr = true ∧
         ∃ r, t.chk.log.getLast? = some r ∧ r.kind = 0x0032 ∧ r.detail = 2)))

/-- ACK_TIMEOUT resends every frame outstanding, oldest first, after the frames put on the wire before have gone; one resent 8 times
makes a lane faulty. ACK_ONLY_TIMER sends on each end a frame of type ACK with the end's NAK and the last SEQ accepted, and counts the
intervals in which a chain port's codewords could not be corrected: two in a row make a lane faulty (R480, R481). Which lane that is
is free, and that two timers make an interval is the model's choice (log 148). A frame that a link receives is its header, payload and
check value: one that fails its check, or breaks the header's reserved bits (the model's choice, log 147), is counted, discarded and
asks for a NAK; of the rest, ACK frees the frames up to it, and a data frame is accepted only where its SEQ follows the last accepted,
any other asking for a NAK (R477, R480, R485, R500). Bulk data crosses the bridle in frames of at most 4,096 bytes (R25, R485). A link that is not up takes nothing. A TICK_COUNT broadcast for a follower is what
it then holds as the master's count (R166). -/
def Obligations.LinkFrames : Prop :=
  ((∀ (l : Nat) (s : State), linkOk l = true →
     (linkUp s l = false → exec (.ackTimeout l) s = .next s) ∧
     (linkUp s l = true → exec (.ackTimeout l) s = .next ((linkEnds l).foldl resendFault ((linkEnds l).foldl resend (clearWire s l)))) ∧
     exec (.ackOnlyTimer l) s = .next (fecInterval ((linkEnds l).foldl sendAck (clearWire s l)) l)) ∧
   (∀ (s : State) (k : Nat), ((resend s k).linkEnd k).wire.map Frame.seq =
       (s.linkEnd k).wire.map Frame.seq ++ (s.linkEnd k).buffer.map Frame.seq ∧
     ((resend s k).linkEnd k).buffer.map Frame.seq = (s.linkEnd k).buffer.map Frame.seq ∧
     ((resend s k).linkEnd k).txSeq = (s.linkEnd k).txSeq ∧
     ((s.linkEnd k).buffer ≠ [] → ((resend s k).linkEnd k).resends = (s.linkEnd k).resends + 1)) ∧
   (∀ (s : State) (k : Nat), (linkUp s (endLink k) = false → sendAck s k = s) ∧
     (linkUp s (endLink k) = true → ∃ g, (sendAck s k).linkEnd k =
         { s.linkEnd k with sinceAck := 0, wire := (s.linkEnd k).wire ++ [g] } ∧
       g.typ = 1 ∧ g.nak = (s.linkEnd k).nak ∧ g.ack = (s.linkEnd k).rxLast ∧ g.payload = .bytes [] ∧
       sendAck s k = { s with ends := (sendAck s k).ends } ∧ ∀ j, j ≠ k → (sendAck s k).linkEnd j = s.linkEnd j)) ∧
   (∀ (s : State) (k : Nat), ((s.linkEnd k).resends < 8 → resendFault s k = s) ∧
     (8 ≤ (s.linkEnd k).resends → endLink k ≠ 0 → linkUp s (endLink k) = true → (s.link (endLink k)).working ≠ [] →
       ∃ lane ∈ (s.link (endLink k)).working, resendFault s k = laneFault (endLink k) lane { s with free := s.free + 1 })) ∧
   (∀ (s : State) (l : Nat), l = 1 ∨ l = 2 →
     ((s.link l).timers = 0 → fecInterval s l = s.onLink l fun x => { x with timers := 1 }) ∧
     ((s.link l).timers ≠ 0 → (s.link l).fecNow = false ∨ (s.link l).fecBefore = false →
       fecInterval s l = s.onLink l fun x => { x with timers := 0, fecBefore := x.fecNow, fecNow := false }) ∧
     ((s.link l).timers ≠ 0 → (s.link l).fecNow = true → (s.link l).fecBefore = true → linkUp s l = true →
       (s.link l).working ≠ [] → (((fecInterval s l).link l).st = .training ∧
         ((fecInterval s l).link l).faultLane ∈ (s.link l).working)))) ∧
  (∀ (l : Nat) (up : Bool) (raw : List Byte) (g u : Nat) (p : Payload) (s : State), linkOk l = true → l ≠ 0 →
     let k := endKey l (up && isBridle l)
     let f := headerFrame raw p
     (linkUp s l = false → exec (.linkFrameReceive l up raw g u p) s = .next s) ∧
     (linkUp s l = true → freeCtx s (endKeel k) ≠ none →
       (frameGood l raw = false → ∃ t, exec (.linkFrameReceive l up raw g u p) s = .next t ∧ (t.linkEnd k).nak = true ∧
         (t.link l).fecGood = (if isBridle l then (s.link l).fecGood else satAdd 32 (s.link l).fecGood g) ∧
         (t.link l).fecBad = (if isBridle l then (s.link l).fecBad else satAdd 16 (s.link l).fecBad u) ∧
         (t.linkEnd k).rxLast = (s.linkEnd k).rxLast ∧ (t.link l).crcErrors = satAdd 32 (s.link l).crcErrors 1 ∧
         t = { s with links := t.links, ends := t.ends, chk := t.chk, cvu := t.cvu }) ∧
       (frameGood l raw = true → f.typ = 0 → f.seq = ((s.linkEnd k).rxLast + 1) % 4096 →
         ∃ t, exec (.linkFrameReceive l up raw g u p) s = .next t ∧ (t.linkEnd k).rxLast = f.seq) ∧
       (frameGood l raw = true → f.typ = 0 → f.seq ≠ ((s.linkEnd k).rxLast + 1) % 4096 →
         ∃ t, exec (.linkFrameReceive l up raw g u p) s = .next t ∧ (t.linkEnd k).rxLast = (s.linkEnd k).rxLast ∧
           (t.linkEnd k).nak = true ∧ t = { s with links := t.links, ends := t.ends, cvu := t.cvu, free := t.free }) ∧
       (frameGood l raw = true → f.typ = 1 → (s.linkEnd k).queue = [] → f.nak = false →
         ∃ t, exec (.linkFrameReceive l up raw g u p) s = .next t ∧
           (t.linkEnd k).buffer = (ackEnd (s.linkEnd k) f.ack).buffer ∧
           (t.linkEnd k).rxLast = (s.linkEnd k).rxLast))) ∧
  ((∀ (e : LinkEnd) (a : Nat) (pre post : List Frame) (x : Frame), e.buffer = pre ++ x :: post → x.seq = a →
     (∀ y ∈ pre, y.seq ≠ a) → ackEnd e a = { e with buffer := post, resends := 0 }) ∧
   (∀ (e : LinkEnd) (a : Nat), (∀ y ∈ e.buffer, y.seq ≠ a) → ackEnd e a = e) ∧
   (∀ (s : State) (src dest k n : Nat) (b : List Byte), bridleHop src dest = some (k, n) →
     let t := sendBulk s src dest b
     (carried t k).Perm (carried s k ++ (List.range ((b.length + 4095) / 4096)).map fun i =>
       .bytes ((b.drop (4096 * i)).take 4096)) ∧ (∀ j, j ≠ k → t.linkEnd j = s.linkEnd j) ∧ t = { s with ends := t.ends }) ∧
   (∀ (f : Frame) (data : List Byte), f.cls < 3 → f.typ < 3 → f.srcKeel < 8 → f.dest < 16 → f.seq < 4096 → f.ack < 4096 →
     data.length ≤ 4096 → ∀ l, l = 1 ∨ l = 2 →
     let b := frameHeader f data.length ++ data
     let raw := b ++ toLe 8 (crc .crc64 b)
     frameGood l raw = true ∧ headerFrame raw f.payload = f)) ∧
  (∀ (l g u : Nat) (n : W64) (raw : List Byte) (s : State), l = 1 ∨ l = 2 → linkUp s l = true → freeCtx s (endKeel l) ≠ none →
     frameGood l raw = true →
     let f := headerFrame raw (.ctrl (.countBroadcast n))
     f.typ = 0 → f.seq = ((s.linkEnd l).rxLast + 1) % 4096 → f.dest = s.boot.strapAddr →
     ∃ t, exec (.linkFrameReceive l false raw g u (.ctrl (.countBroadcast n))) s = .next t ∧
       t.tick = { s.tick with master := if s.tick.role = 2 then some n else s.tick.master })

/-- R493: at each grant the winner is the unmasked request of the lowest class, and within that class of the lowest
index. A channel grants when it is idle, when the last beat of its transfer starts, and when a request of class 1 or 2
that is not masked revokes a transfer of class 3 or more, which counts; otherwise the transfer goes on. A request stays raised until it
is granted, and one that is revoked stays raised to start again. Every boundary counts a beat, and after 4,096 the next window starts
with nothing granted; the window's end changes nothing before (R490–R492, R494, R496; that a row is one boundary of one channel is the
model's choice, log 57). -/
def Obligations.Arbitration : Prop :=
  (∀ (k ch : Nat) (new : List ArbReq) (s : State), (Instr.dramArbitration k ch new).wf = true →
    let a := rollWindow (s.arb.chans.get ArbChan.init (k * 96 + ch))
    let raised := raiseReqs a.raised new
    let free := raised.filter fun r => !classMasked s k a raised r.cls
    let revoked := ∃ r n, a.cur = some (r, n) ∧ 1 < n ∧ 3 ≤ r.cls ∧ ∃ x ∈ free, x.cls ≤ 2
    ∃ t, exec (.dramArbitration k ch new) s = .next t ∧ t = { s with arb := t.arb } ∧
      let b := t.arb.chans.get ArbChan.init (k * 96 + ch)
      (∀ j, j ≠ k * 96 + ch → t.arb.chans.get ArbChan.init j = s.arb.chans.get ArbChan.init j) ∧ b.beats = a.beats + 1 ∧
      (a.cur = none ∨ (∃ r n, a.cur = some (r, n) ∧ n ≤ 1) ∨ revoked →
        (∀ r n, b.cur = some (r, n) → r ∈ free ∧ n = r.beats ∧ ∀ x ∈ free, r.cls < x.cls ∨ (r.cls = x.cls ∧ r.idx ≤ x.idx)) ∧
        (free ≠ [] → b.cur ≠ none) ∧
        (∀ r ∈ raised, r ∈ b.raised ∨ ∃ n, b.cur = some (r, n))) ∧
      (revoked → t.arb.revokes.get 0 k = satAdd 32 (s.arb.revokes.get 0 k) 1 ∧
        ∀ r n, a.cur = some (r, n) → ∃ x ∈ b.raised, x.cls = r.cls ∧ x.idx = r.idx) ∧
      (∀ r n, a.cur = some (r, n) → 1 < n → ¬ revoked →
        b.cur = some (r, n - 1) ∧ b.raised = raised ∧ t.arb.revokes = s.arb.revokes)) ∧
  (∀ (old new : List ArbReq) (r : ArbReq), r ∈ raiseReqs old new ↔
    r ∈ old ∨ (r ∈ new ∧ ∀ x ∈ old, x.cls ≠ r.cls ∨ x.idx ≠ r.idx)) ∧
  (∀ a : ArbChan, (a.beats / 4096 ≤ a.ended → rollWindow a = a) ∧
    (a.ended < a.beats / 4096 → rollWindow a =
      { a with grants1 := 0, grants2 := 0, grants15 := 0, masked12 := false, hitReserve := false, ended := a.beats / 4096 })) ∧
  (∀ (k ch : Nat) (s : State), k < 8 → ch < 96 →
    ∃ t, exec (.arbWindowEnd k ch) s = .next t ∧ t = { s with arb := { s.arb with chans := t.arb.chans } } ∧
      t.arb.chans.get ArbChan.init (k * 96 + ch) = rollWindow (s.arb.chans.get ArbChan.init (k * 96 + ch)) ∧
      ∀ j, j ≠ k * 96 + ch → t.arb.chans.get ArbChan.init j = s.arb.chans.get ArbChan.init j)

/-! Models and panels. -/

/-- BUNDLE_STAGE (R284–R286, R297, R299, R405–R407). MODE NEW takes the lowest free model index under a new generation and
replies ACCEPTED with its handle; MODE TARGET, on a COMMITTED model without a pending bundle, and RESTAGE keep the handle. No
free index, a LENGTH that is not the header's, a region that does not hold the bundle, and a model in another state or with a
command at work are refused with their codes, the tests of handle and state before anything is read (R405), a read that fails with
HOST_FAULT. When the bundle has arrived, from the module's own DRAM over the bridle where its buffer lies in the window (R25, R473; the
frames are the model's choice, log 112): with a check
failed or a read failed the command ends with that code and NEW frees its index; otherwise NEW leaves the model STAGED with
the bytes, TARGET makes them pending, and RESTAGE replaces the sections it names and clears their MASTER_LOST marks. -/
def Obligations.BundleStage : Prop :=
  (∀ (c : Cmd) (a n mode f k : Nat) (ks : Option (List Nat)) (s : State),
    let i := Instr.bundleStage c a n mode f k ks
    Starts i c s →
    let u := begun i c s
    (mode = 0 → leastBelow 16 (modelIndexFree u c) = none → exec i s = .next (errorAt u c 0x0302 [])) ∧
    (mode = 1 ∨ mode = 2 → findModel u c.handle = none → exec i s = .next (errorAt u c 0x0401 [])) ∧
    (∀ j, findModel u c.handle = some j →
      (mode = 1 → modelBusy u j false = true ∨ (s.model j).st ≠ .committed ∨ (s.model j).pendB.isSome = true →
        exec i s = .next (errorAt u c 0x0209 [])) ∧
      (mode = 2 → modelBusy u j true = true ∨ (s.model j).st = .staging → exec i s = .next (errorAt u c 0x0209 []))) ∧
    ∀ j, (mode = 0 ∧ leastBelow 16 (modelIndexFree u c) = some j) ∨
        (mode = 1 ∧ findModel u c.handle = some j ∧ modelBusy u j false = false ∧ (s.model j).st = .committed ∧
          (s.model j).pendB = none) ∨
        (mode = 2 ∧ findModel u c.handle = some j ∧ modelBusy u j true = false ∧ (s.model j).st ≠ .staging) →
      let m := s.model j
      (Unread i c s a n → exec i s = .next (errorAt u c 0x0501 [])) ∧
      ∀ b v, Reads i c s a n b v →
        let bs := b.take n
        let keels := ks.getD (basicKeels bs)
        let bad := bLength bs ≠ n ∨ ∃ l, ks = some l ∧ l.length ≠ bSections bs
        let fits := regionFits v (stagedRoom bs keels)
        (mode ≠ 2 → bad → exec i s = .next (errorAt v c 0x0105 [])) ∧
        (mode ≠ 2 → ¬ bad → fits = false → exec i s = .next (errorAt v c 0x0307 [])) ∧
        (mode = 0 → ¬ bad → fits = true →
          let g := nextGen m.used m.gen
          exec i s = .next (acceptedAt
            { v with models := v.models.set j { Model.init with gen := g, used := true, st := .staging } } c
            (toLe 4 (modelHandle j g).toNat) (.stage j 0 0 0 bs keels))) ∧
        (mode = 1 → ¬ bad → fits = true → exec i s = .next
          (acceptedAt v c (toLe 4 c.handle.toNat) (.stage j 1 0 0 bs keels))) ∧
        (mode = 2 → bSections m.bytes < f + k ∨ bLength bs ≠ n → exec i s = .next (errorAt v c 0x0105 [])) ∧
        (mode = 2 → f + k ≤ bSections m.bytes → bLength bs = n → exec i s = .next
          (acceptedAt v c (toLe 4 c.handle.toNat) (.stage j 2 f k bs [])))) ∧
  (∀ (p : Nat) (seq : W32) (s : State) (o : OutCmd) (j mode f k : Nat) (b : List Byte) (ks : List Nat), 1 ≤ p → p < 4096 →
    s.bus.viral = false → findOut s p seq = some o → o.job = .stage j mode f k b ks →
    let m := s.model j
    let v := moverTraffic s o
    let res := fun (i : Nat) => toLe 4 (modelHandle j m.gen).toNat ++ toLe 4 i
    let dropped := if mode = 0 then
        { v with models := s.models.set j { Model.init with gen := m.gen, used := true } } else v
    let idx := (List.range k).map (f + ·)
    (v = { s with ends := v.ends } ∧
      ((∀ c a n md fi co kl, o.instr = .bundleStage c a n md fi co kl → hdmOffset s a n = none) → v = s)) ∧
    (bufferHere s o = false → exec (.hostDmaTransfer p seq false) s = .next (finish dropped p seq 0x0501 (res 0xFFFFFFFF))) ∧
    (mode ≠ 2 → ∀ code i, bundleCheck s b = some (code, i) →
      exec (.hostDmaTransfer p seq true) s = .next (finish dropped p seq code (res i))) ∧
    (mode ≠ 2 → bundleCheck s b = none → ∃ x,
      exec (.hostDmaTransfer p seq true) s = .next (finish x p seq 0 (res 0xFFFFFFFF)) ∧
      x.model j = (if mode = 0 then { m with st := .staged, bytes := b, keels := ks }
        else { m with pendB := some (b, ks), pendLost := [] }) ∧
      (∀ l, l ≠ j → x.model l = s.model l) ∧ x = { v with models := x.models }) ∧
    (mode = 2 → ∀ code i, firstBad (stagedFrame m.bytes b) idx = some (code, i) →
      exec (.hostDmaTransfer p seq true) s = .next (finish v p seq code (res i))) ∧
    (mode = 2 → firstBad (stagedFrame m.bytes b) idx = none → ∃ x,
      exec (.hostDmaTransfer p seq true) s = .next (finish x p seq 0 (res 0xFFFFFFFF)) ∧
      x.model j = { m with
        bytes := idx.foldl (fun y i => let e := dirEntry m.bytes i
          overlay y e.off (slice b e.off e.len)) m.bytes,
        lost := (x.model j).lost } ∧
      (∀ l ∈ (x.model j).lost, l ∈ m.lost ∧ ∀ i ∈ idx, sectUnit m.bytes i ≠ l.1) ∧
      (∀ l, l ≠ j → x.model l = s.model l) ∧
      x = { v with models := x.models, chk := { s.chk with badLines := x.chk.badLines, badSects := x.chk.badSects } }))

/-- MODEL_PLACE of a STAGED model: refused with the code and the stage of the first test that fails; otherwise it is
PLACED with the stage map, its units bound to their slots, its layers' KV formats those given or the option's, and answers
the first module stage index (R286, R302, R405, R565). A model in any other state gives MODEL_STATE, no model
STALE_HANDLE. -/
def Obligations.ModelPlace : Prop :=
  ∀ (c : Cmd) (st : List StageRec) (f : Option (List Nat)) (s : State) (i : Nat), Starts (.modelPlace c st f) c s →
    let u := begun (.modelPlace c st f) c s
    (findModel u c.handle = none → exec (.modelPlace c st f) s = .next (errorAt u c 0x0401 [])) ∧
    (findModel u c.handle = some i →
    ((s.model i).st ≠ .staged ∨ modelBusy u i false = true →
      exec (.modelPlace c st f) s = .next (errorAt u c 0x0209 (toLe 1 0xFF))) ∧
    ((s.model i).st = .staged → modelBusy u i false = false →
      (∀ code at_, placeRefusal u (s.model i) st f = some (code, at_) →
        exec (.modelPlace c st f) s = .next (errorAt u c code (toLe 1 at_))) ∧
      (placeRefusal u (s.model i) st f = none → ∃ x base, stageBase u st.length = some base ∧
        exec (.modelPlace c st f) s = .next (doneAt x c (toLe 2 base)) ∧
        x.model i = { s.model i with
          st := .placed, stages := st, base := base, units := mapUnits (s.model i).bytes st,
          fmts := f.getD (List.replicate (bLayers (s.model i).bytes) (opt s oKvFormat)) } ∧
        (∀ j, j ≠ i → x.model j = s.model j) ∧ x = { u with models := x.models })))

/-- MODEL_WRITE of a PLACED model queues every tile of its map for writing, with its epoch 1, and of a WRITTEN one
those that failed or whose panel is not calibrated (R286, R308, R309); a record staged on another keel crosses the bridle (R25). A tile whose record is MASTER_LOST is not written and
stands failed, with a record of kind 0x0006 (R298, R308; log 119). With every tile written and calibrated the model is WRITTEN
and the command ends: with 0x0502 where a failed tile's record is lost, with 0 where no tile failed and no panel is
uncalibrated, otherwise with 0x0503, and both counts (R308). MODEL_COMMIT of a WRITTEN model with every tile of its units
holding weights on a calibrated panel: COMMITTED at epoch 1; with a tile or panel that is not, or a slot bound to nothing,
WRITE_INCOMPLETE (R309, R328). In another state or with a command at work MODEL_STATE, no model STALE_HANDLE. -/
def Obligations.ModelWriteCommit : Prop :=
  (∀ (c : Cmd) (s : State), Starts (.modelWrite c) c s →
     let u := begun (.modelWrite c) c s
     (findModel u c.handle = none → exec (.modelWrite c) s = .next (errorAt u c 0x0401 [])) ∧
     ∀ i, findModel u c.handle = some i →
       let m := s.model i
       let l := if m.st = .placed then modelTiles s m
         else (modelTiles s m).filter fun t => (s.tileAt t.1).fail || !(s.panelAt (t.1 / 8)).cal
       ((m.st ≠ .placed ∧ m.st ≠ .written) ∨ modelBusy u i false = true →
         exec (.modelWrite c) s = .next (errorAt u c 0x0209 [])) ∧
       (m.st = .placed ∨ m.st = .written → modelBusy u i false = false →
         ∃ x, exec (.modelWrite c) s = .next (acceptedAt x c [] (.write i)) ∧
           (∀ t ∈ l, (∀ w ∈ l, w.1 = t.1 → w = t) →
             (recordLost m 1 t.2.1 t.2.2 = false →
               (x.tileAt t.1).under = some { model := i, unit := t.2.1, record := t.2.2, epoch := 1 } ∧
               (x.tileAt t.1).fail = false ∧ (x.tileAt t.1).rows = 0) ∧
             (recordLost m 1 t.2.1 t.2.2 = true →
               (x.tileAt t.1).fail = true ∧ (x.tileAt t.1).holds = none ∧ (x.tileAt t.1).under = none)) ∧
           (∀ t, l = [t] → recordLost m 1 t.2.1 t.2.2 = true →
             ∃ r, x.chk.log.getLast? = some r ∧ r.kind = 0x0006 ∧ r.location = t.1) ∧
           ((∀ t ∈ l, recordLost m 1 t.2.1 t.2.2 = false) → x.chk = s.chk) ∧
           (∀ n, n ∉ l.map Prod.fst → x.tileAt n = s.tileAt n) ∧
           ((∀ t ∈ l, stagingKeel m 1 t.2.1 = some (tileKeel t.1)) → x.ends = s.ends) ∧
           (∀ t, l = [t] → recordLost m 1 t.2.1 t.2.2 = false →
             x.ends = (recordTraffic s t.1 { model := i, unit := t.2.1, record := t.2.2, epoch := 1 }).ends) ∧
           x = { u with arr := { u.arr with tiles := x.arr.tiles }, chk := { u.chk with log := x.chk.log, next := x.chk.next },
                        ends := x.ends })) ∧
  (∀ (s : State) (p : Nat) (q : Spool) (o : OutCmd) (i : Nat), s.spools = [(p, q)] → q.out = [o] → o.job = .write i →
     let m := s.model i
     let ts := modelTiles s m
     let fails := ts.countP fun t => (s.tileAt t.1).fail
     let uncal := (distinct (ts.map fun t => t.1 / 8)).countP fun n => !(s.panelAt n).cal
     ((∃ t ∈ ts, (s.tileAt t.1).under.isSome = true ∨ (s.panelAt (t.1 / 8)).fresh = true) → settleWrites s = s) ∧
     ((∀ t ∈ ts, (s.tileAt t.1).under = none ∧ (s.panelAt (t.1 / 8)).fresh = false) →
       settleWrites s = finish { s with models := s.models.set i { m with st := .written } } p o.seq
         (if ∃ t ∈ ts, (s.tileAt t.1).fail = true ∧ t.2 ∈ m.lost then 0x0502
          else if fails = 0 ∧ uncal = 0 then 0 else 0x0503) (toLe 4 fails ++ toLe 4 uncal))) ∧
  (∀ (c : Cmd) (s : State), Starts (.modelCommit c) c s →
     let u := begun (.modelCommit c) c s
     (findModel u c.handle = none → exec (.modelCommit c) s = .next (errorAt u c 0x0401 [])) ∧
     ∀ i, findModel u c.handle = some i →
       let m := s.model i
       let whole := (modelTiles s m).length = modelSize m ∧
         ∀ t ∈ modelTiles s m, (s.tileAt t.1).holds.isSome = true ∧ (s.panelAt (t.1 / 8)).cal = true
       (m.st ≠ .written ∨ modelBusy u i false = true → exec (.modelCommit c) s = .next (errorAt u c 0x0209 [])) ∧
       (m.st = .written → modelBusy u i false = false →
         (¬ whole → exec (.modelCommit c) s = .next (errorAt u c 0x0503 [])) ∧
         (whole → ∃ x, exec (.modelCommit c) s = .next (doneAt x c (toLe 2 1)) ∧ (x.model i).st = .committed ∧
           (x.model i).epoch = 1 ∧ (∀ v ∈ (x.model i).units, v.2.epoch = 1) ∧
           x.model i = { m with st := .committed, epoch := 1, units := (x.model i).units } ∧
           (∀ j, j ≠ i → x.model j = s.model j) ∧ x = { u with models := x.models })))

/-- MODEL_REPLACE of a COMMITTED model with a pending bundle and no command at work: REPLACING, with the next epoch, its
fate, mask (that of the differing sections where none is given) and pairs; ACCEPTED carries the new epoch. Otherwise
MODEL_STATE; a mask that names no unit BAD_PARAMETER, a bundle of another shape 0x060C, a DELTA_MAP that does not fit 0x020E,
no model STALE_HANDLE (R310, R312–R314, R408). The next epoch is the one after the model's unless that is 0 or still named,
and never 0 or one still named by a session, an entry in flight or an adapter (R310). -/
def Obligations.ModelReplace : Prop :=
  (∀ (c : Cmd) (fate : Nat) (e : Option ReplaceExt) (s : State), Starts (.modelReplace c fate e) c s →
     let u := begun (.modelReplace c fate e) c s
     (findModel u c.handle = none → exec (.modelReplace c fate e) s = .next (errorAt u c 0x0401 [])) ∧
     ∀ i, findModel u c.handle = some i →
     let m := s.model i
     (m.pendB = none ∨ m.st ≠ .committed ∨ modelBusy u i false = true →
       exec (.modelReplace c fate e) s = .next (errorAt u c 0x0209 [])) ∧
     (∀ nb ks, m.pendB = some (nb, ks) → m.st = .committed → modelBusy u i false = false →
       let mask := (e.map ReplaceExt.mask).getD (changedUnits m.bytes nb)
       let pairs := (e.map ReplaceExt.pairs).getD []
       let ep := nextEpoch u i c.handle m.epoch
       let known := ∀ v ∈ mask, (unitDir m.bytes v).isSome = true
       let mapped := pairs.all (pairOk u c.handle m.epoch ep) = true ∧ (distinct (pairs.map Prod.fst)).length = pairs.length
       (¬ known → exec (.modelReplace c fate e) s = .next (errorAt u c 0x0105 [])) ∧
       (known → bundleShapeSame m.bytes nb = false → exec (.modelReplace c fate e) s = .next (errorAt u c 0x060C [])) ∧
       (known → bundleShapeSame m.bytes nb = true → ¬ mapped →
         exec (.modelReplace c fate e) s = .next (errorAt u c 0x020E [])) ∧
       (known → bundleShapeSame m.bytes nb = true → mapped →
         ∃ x, exec (.modelReplace c fate e) s = .next (acceptedAt x c (toLe 2 ep) (.replace i)) ∧
           x.model i = { m with
             st := .replacing,
             repl := some
               { spool := c.spool, seq := c.seq, newEpoch := ep, fate := fate,
                 prewrite := (e.map ReplaceExt.prewrite).getD true, mask := mask, pairs := pairs, cut := false, units := [],
                 blocked := [] } } ∧
           (∀ j, j ≠ i → x.model j = s.model j) ∧ x = { u with models := x.models }))) ∧
  (∀ (s : State) (mi : Nat) (mh : W32) (e : Nat),
     ((∃ v, v < 65536 ∧ v ≠ 0 ∧ epochNamed s mi mh v = false) →
       nextEpoch s mi mh e ≠ 0 ∧ nextEpoch s mi mh e < 65536 ∧ epochNamed s mi mh (nextEpoch s mi mh e) = false) ∧
     ((e + 1) % 65536 ≠ 0 → epochNamed s mi mh ((e + 1) % 65536) = false → nextEpoch s mi mh e = (e + 1) % 65536))

/-- MODEL_UNLOAD of a model that nothing uses frees its index and its tiles, and what it keeps for sessions of other modules;
one that a session, an entry in flight, an adapter or a command still uses gives MODEL_STATE. With PENDING it drops the
pending bundle; before cut-over it ends the replacement, whose command ends CANCELLED (the model's choice, log 28): the shadow copies
go, every unit that BARRIER mode has started is rewritten from the old master copy, and sessions opened at the new epoch go back to the
old one; after cut-over, and with nothing pending, it gives MODEL_STATE; no model STALE_HANDLE (R286, R324, R405). -/
def Obligations.ModelUnload : Prop :=
  (∀ (c : Cmd) (pend : Bool) (s : State), Starts (.modelUnload c pend) c s →
    findModel (begun (.modelUnload c pend) c s) c.handle = none →
    exec (.modelUnload c pend) s = .next (errorAt (begun (.modelUnload c pend) c s) c 0x0401 [])) ∧
  ∀ (c : Cmd) (s : State) (i : Nat),
    (Starts (.modelUnload c false) c s →
      let u := begun (.modelUnload c false) c s
      let used := (s.model i).st = .replacing ∨ (s.model i).st = .staging ∨ modelBusy u i false = true ∨
        (∃ x ∈ s.sessions, x.2.st ≠ .closed ∧ (x.2.model = c.handle ∨ x.2.draft = some c.handle)) ∨
        (∃ e ∈ s.pipe.entries, e.model = i) ∨
        (∃ x ∈ s.adapters, (x.2.resident = true ∨ x.2.cmd.isSome = true) ∧ x.2.model = c.handle)
      findModel u c.handle = some i →
      (used → exec (.modelUnload c false) s = .next (errorAt u c 0x0209 [])) ∧
      (¬ used → ∃ x, exec (.modelUnload c false) s = .next (acceptedDone x c 0 []) ∧
        x.model i = { Model.init with gen := (s.model i).gen, used := true } ∧
        (∀ t ∈ x.arr.tiles, t.2.holds.map TileSrc.model ≠ some i ∧ t.2.under.map TileSrc.model ≠ some i) ∧
        (∀ j, j ≠ i → x.model j = s.model j) ∧ (∀ k, k < 65536 → x.sess k = s.sess k) ∧
        ((∀ e ∈ s.sessions, e.1 < 65536 ∨ modelOf e.2 ≠ i) → x.sessions = s.sessions ∧ x.kv = s.kv) ∧
        x = { u with models := x.models, arr := { u.arr with tiles := x.arr.tiles }, sessions := x.sessions, kv := x.kv })) ∧
    (Starts (.modelUnload c true) c s →
      let u := begun (.modelUnload c true) c s
      let m := s.model i
      findModel u c.handle = some i →
      (m.repl = none → m.pendB.isSome = true → m.st = .committed → modelBusy u i false = false →
        ∃ x, exec (.modelUnload c true) s = .next (acceptedDone x c 0 []) ∧
          x.model i = { m with pendB := none, pendLost := [] } ∧ (∀ j, j ≠ i → x.model j = s.model j) ∧
          x = { u with models := x.models }) ∧
      (m.repl = none → m.pendB = none ∨ m.st ≠ .committed ∨ modelBusy u i false = true →
        exec (.modelUnload c true) s = .next (errorAt u c 0x0209 [])) ∧
      (∀ r, m.repl = some r →
        (r.cut = true → exec (.modelUnload c true) s = .next (errorAt u c 0x0209 [])) ∧
        (r.cut = false → ∃ x, exec (.modelUnload c true) s =
            .next (acceptedDone (finish x r.spool r.seq 0x0210 (toLe 2 m.epoch)) c 0 []) ∧
          x.model i = { m with st := .committed, repl := none, pendB := none, pendLost := [] } ∧
          (∀ j, j ≠ i → x.model j = s.model j) ∧
          (∀ k, x.sess k = if (s.sess k).st ≠ .closed ∧ (s.sess k).model = c.handle ∧ (s.sess k).epoch = r.newEpoch
            then { s.sess k with epoch := m.epoch } else s.sess k) ∧
          (∀ v ru pl, r.units = [(v, ru)] → m.units.find v = some pl → ru.barrier = false → ru.switched = false →
            ∀ t ∈ unitTiles s m.bytes v pl.keel ru.first, (x.tileAt t.1).holds = none ∧ (x.tileAt t.1).under = none) ∧
          (∀ v ru pl, r.units = [(v, ru)] → m.units.find v = some pl → ru.barrier = true →
            ∀ t ∈ unitTiles s m.bytes v pl.keel pl.first, (∀ w ∈ unitTiles s m.bytes v pl.keel pl.first, w.1 = t.1 → w = t) →
              recordLost (x.model i) m.epoch v t.2 = false → (x.tileAt t.1).under =
                some { model := i, unit := v, record := t.2, epoch := m.epoch } ∧ (x.tileAt t.1).rows = 0) ∧
          ((∀ v ∈ r.units, v.2.barrier = false) → x.chk = s.chk ∧ x.ends = s.ends) ∧
          x = { u with models := x.models, arr := { u.arr with tiles := x.arr.tiles }, sessions := x.sessions,
                       chk := { u.chk with log := x.chk.log, next := x.chk.next }, ends := x.ends })))

/-- PANEL_RETIRE of a free or spare panel takes place at the next edge, which ends the command; PANEL_REMAP of a free
panel exchanges it at the next edge with the spare named, or the lowest, and for one that holds weights the tile records its
units place on it are first written to the spare; once that is written and calibrated the exchange waits for the edge, and a
spare that failed gives WRITE_INCOMPLETE, or MASTER_LOST where the record to move is lost (R424). The exchange retires the panel, empties its tiles and ends their redundancy entries.
READ writes the map's records. A panel in another state, under write or covered by a replacement gives PANEL_STATE, no spare
NO_SPARE (R323, R326–R328, R406). -/
def Obligations.PanelMap : Prop :=
  (∀ (c : Cmd) (p : Nat) (s : State), Starts (.panelRetire c p) c s →
    let u := begun (.panelRetire c p) c s
    exec (.panelRetire c p) s = .next
      (if panelBusy u p = false ∧ (panelState s p = 0 ∨ panelState s p = 3) then
        runningAt (atEdge u [.retire p, .finish c.spool c.seq 0 []]) c .tick
      else errorAt u c 0x020C [])) ∧
  (∀ (c : Cmd) (p a : Nat) (sp : W32) (s : State), Starts (.panelRemap c 0 p sp a) c s →
    let u := begun (.panelRemap c 0 p sp a) c s
    (lowestSpare s (panelDie p) = none → exec (.panelRemap c 0 p sp a) s = .next (errorAt u c 0x0308 [])) ∧
    (∀ low, lowestSpare s (panelDie p) = some low →
      let q := if sp = noHandle then low else sp.toNat
      let ok := panelBusy u p = false ∧ panelBusy u q = false ∧ panelDie q = panelDie p ∧ panelState s q = 3
      (¬ ok ∨ (panelState s p ≠ 0 ∧ panelState s p ≠ 1) →
        exec (.panelRemap c 0 p sp a) s = .next (errorAt u c 0x020C [])) ∧
      (ok → panelState s p = 0 → exec (.panelRemap c 0 p sp a) s = .next (acceptedAt
        (atEdge u [.remap p q, .finish c.spool c.seq 0 (toLe 4 q)]) c [] (.remap p q))) ∧
      (ok → panelState s p = 1 → ∃ x, exec (.panelRemap c 0 p sp a) s = .next (acceptedAt x c [] (.remap p q)) ∧
        (∀ w ∈ panelRecords s p, (∀ v ∈ panelRecords s p, v.1 = w.1 → v = w) →
          recordLost (s.model w.2.model) w.2.epoch w.2.unit w.2.record = false →
          (x.tileAt (8 * q + w.1)).under = some w.2 ∧ (x.tileAt (8 * q + w.1)).rows = 0) ∧
        (∀ t, t / 8 ≠ q → x.tileAt t = s.tileAt t) ∧
        x = { u with arr := { u.arr with tiles := x.arr.tiles }, chk := { u.chk with log := x.chk.log, next := x.chk.next },
                     ends := x.ends }))) ∧
  (∀ (s : State) (n : Nat) (q0 : Spool) (o : OutCmd) (p q : Nat) (acts : List EdgeAct), s.spools = [(n, q0)] →
    q0.out = [o] → o.job = .remap p q → o.accepted = true → panelUnder s q = false → (s.panelAt q).fresh = false →
    EdgeAct.remap p q ∉ acts →
    settleRemaps acts s =
      (if panelHolds s p = true ∧ ((s.panelAt q).cal = false ∨ (List.range 8).any (fun i => (s.tileAt (8 * q + i)).fail) = true) then
        finish s n o.seq (if (List.range 8).any (fun i => (s.tileAt (8 * q + i)).fail &&
          (s.tileAt (8 * p + i)).holds.any fun y => recordLost (s.model y.model) y.epoch y.unit y.record) then 0x0502
          else 0x0503) (toLe 4 p)
      else atEdge s [.remap p q, .finish n o.seq 0 (toLe 4 q)])) ∧
  (∀ (s : State) (p q : Nat), let t := exchangePanels s p q
    t.arr.retired = s.arr.retired ++ [p] ∧
    (∀ i, i < 8 → (t.tileAt (8 * p + i)).holds = none ∧ (t.tileAt (8 * p + i)).red = []) ∧
    (∀ n, n / 8 ≠ p → t.tileAt n = s.tileAt n) ∧ (∀ d, d ≠ panelDie p → liveOrder t d = liveOrder s d) ∧
    (∀ i : Nat, (liveOrder s (panelDie p))[i]? = some (p % 2048) → (liveOrder t (panelDie p))[i]? = some (q % 2048)) ∧
    t = { s with arr := { s.arr with places := t.arr.places, retired := t.arr.retired, tiles := t.arr.tiles } }) ∧
  (∀ (c : Cmd) (m a : Nat) (sp : W32) (s : State), Starts (.panelRemap c 1 m sp a) c s →
    let u := begun (.panelRemap c 1 m sp a) c s
    let b := (maskBits m 32).flatMap (mapRecords u)
    exec (.panelRemap c 1 m sp a) s = .next (acceptedAt u c [] (.output [(a, b)] (toLe 4 b.length))))

/-! Sessions, frames and adapters. -/

/-- SESSION_OPEN on a COMMITTED or REPLACING model takes the lowest free session index under a new generation,
allocates its page-list runs, and leaves the session IDLE and empty with its epoch, context, bindings, draft and class; it
answers the handle and the epoch. The first test that fails gives its code: the model's handle and state, MAX_CONTEXT and
the stop tokens, TOP_K, the draft, the bindings, the quota, an index, the runs (R220, R221, R238, R241, R261, R279, R314,
R409; SEED of the basic form is free, log 16). -/
def Obligations.SessionOpen : Prop :=
  ∀ (c : Cmd) (ctx : Nat) (st de : W32) (e : Option OpenExt) (s : State), Starts (.sessionOpen c ctx st de e) c s →
    let u := begun (.sessionOpen c ctx st de e) c s
    let fn := spoolOwner s c.spool
    let draft := e.bind fun x => optHandle x.draft
    (findModel u c.handle = none → exec (.sessionOpen c ctx st de e) s = .next (errorAt u c 0x0401 [])) ∧
    (∀ mi, findModel u c.handle = some mi →
      let m := s.model mi
      let stops := (e.map OpenExt.stops).getD (bEndTokens m.bytes)
      let ready := m.st = .committed ∨ m.st = .replacing
      let sized := 1 ≤ ctx ∧ ctx ≤ bMaxCtx m.bytes ∧ tokensOk m stops = true
      let sampled := ∀ x, e = some x → x.params.topK ≤ bVocab m.bytes
      let later := firstCode [draftCheck u m draft, bindCheck u fn 0 c.handle (openEpoch m) (optHandle st),
        bindCheck u fn 1 c.handle (openEpoch m) (optHandle de), need (sessQuotaOk u c.spool) 0x0609]
      (¬ ready → exec (.sessionOpen c ctx st de e) s = .next (errorAt u c 0x0209 [])) ∧
      (ready → ¬ sized → exec (.sessionOpen c ctx st de e) s = .next (errorAt u c 0x0105 [])) ∧
      (ready → sized → ¬ sampled → exec (.sessionOpen c ctx st de e) s = .next (errorAt u c 0x010B [])) ∧
      (ready → sized → sampled →
        (∀ k, later = some k → exec (.sessionOpen c ctx st de e) s = .next (errorAt u c k [])) ∧
        (later = none → leastBelow 65536 (sessIndexFree u c) = none →
          exec (.sessionOpen c ctx st de e) s = .next (errorAt u c 0x0303 [])) ∧
        (∀ i, later = none → leastBelow 65536 (sessIndexFree u c) = some i → allocSession u m draft ctx = none →
          exec (.sessionOpen c ctx st de e) s = .next (errorAt u c 0x0304 [])) ∧
        (∀ i runs druns s1, later = none → leastBelow 65536 (sessIndexFree u c) = some i →
          allocSession u m draft ctx = some (runs, druns, s1) →
          let g := nextGen (s.sess i).used (s.sess i).gen
          ∃ x, exec (.sessionOpen c ctx st de e) s =
              .next (doneAt x c (toLe 4 (sessHandle i g).toNat ++ toLe 2 (openEpoch m))) ∧
            (x.sess i).st = .idle ∧ (x.sess i).gen = g ∧ (x.sess i).spool = c.spool ∧ (x.sess i).model = c.handle ∧
            (x.sess i).epoch = openEpoch m ∧ (x.sess i).maxCtx = ctx ∧ (x.sess i).length = 0 ∧ (x.sess i).pend = none ∧
            (x.sess i).history = [] ∧ (x.sess i).steer = optHandle st ∧ (x.sess i).delta = optHandle de ∧
            (x.sess i).draft = draft ∧ (x.sess i).runs = runs ∧ (x.sess i).druns = druns ∧
            (x.sess i).cls = (e.map OpenExt.cls).getD (opt s oSessionClass) ∧ (x.sess i).stops = stops ∧
            (x.sess i).params = (e.map OpenExt.params).getD (defaultParams u c) ∧
            x = { s1 with sessions := s1.sessions.set i (x.sess i) })))

/-- SESSION_PREFILL on an IDLE session whose K and V are current: the session is BUSY with PENDING first, unless it is
dropped, then the tokens read; past MAX_CONTEXT it gives CONTEXT_FULL, past the spool's frames QUOTA_FRAMES, a token not
below VOCAB BAD_PARAMETER, a failed read HOST_FAULT, all with the session result (R196, R243, R245, R248, R254, R394).
SESSION_STEP on an IDLE session with PENDING and room: the session is BUSY with COUNT steps to run from PENDING; without
PENDING SESSION_STATE (log 27), full CONTEXT_FULL (R245, R253, R254). SPEC_VERIFY by draft model or list begins its run of
PENDING and K drafts likewise (R254, R262). Each of the three gives SESSION_STATE on a session that is not IDLE or is
importing, KV_STALE on one whose K and V are stale, and an unknown handle STALE_HANDLE (R239, R245, R317). -/
def Obligations.SessionRuns : Prop :=
  (∀ (i : Instr) (c : Cmd) (s : State), (∃ a n p d, i = .sessionPrefill c a n p d) ∨ (∃ n, i = .sessionStep c n) ∨
       (∃ k r l a, i = .specVerify c k r l a) → Starts i c s →
     let u := begun i c s
     (findSession u c = none → exec i s = .next (errorAt u c 0x0401 [])) ∧
     (∀ k, findSession u c = some k →
       let x := s.sess k
       ((x.st ≠ .idle ∨ x.importing = true) → exec i s = .next (errorAt u c 0x0208 (sessResult x 0 0))) ∧
       (x.st = .idle → x.importing = false → x.kvStale = true →
         exec i s = .next (errorAt u c 0x020A (sessResult x 0 0))))) ∧
  (∀ (c : Cmd) (a n : Nat) (sample drop : Bool) (s : State) (i : Nat), Starts (.sessionPrefill c a n sample drop) c s →
     let u := begun (.sessionPrefill c a n sample drop) c s
     let x := s.sess i
     findSession u c = some i → x.st = .idle → x.importing = false → x.kvStale = false →
     (Unread (.sessionPrefill c a n sample drop) c s a (4 * n) →
       exec (.sessionPrefill c a n sample drop) s = .next (errorAt u c 0x0501 (sessResult x 0 0))) ∧
     ∀ b v, Reads (.sessionPrefill c a n sample drop) c s a (4 * n) b v →
       let toks := words b n
       let all := (if drop then [] else x.pend.toList) ++ toks
       (tokensOk (s.model (modelOf x)) toks = false →
         exec (.sessionPrefill c a n sample drop) s = .next (errorAt v c 0x0105 (sessResult x 0 0))) ∧
       (tokensOk (s.model (modelOf x)) toks = true → x.maxCtx < x.length + all.length →
         exec (.sessionPrefill c a n sample drop) s = .next (errorAt v c 0x0301 (sessResult x 0 0))) ∧
       (tokensOk (s.model (modelOf x)) toks = true → x.length + all.length ≤ x.maxCtx →
         exec (.sessionPrefill c a n sample drop) s = .next
           (if frameQuotaOk v i (x.length + all.length) false = true then
             runBegun v c i
               { Run.blank c 0x21 .prefill with
                 tokens := all, pos := x.length, total := all.length, sample := sample, chunk := opt s oPrefillChunk }
               all.head?
           else errorAt v c 0x060A (sessResult x 0 0)))) ∧
  (∀ (c : Cmd) (s : State) (i : Nat),
     (∀ n, Starts (.sessionStep c n) c s →
       let u := begun (.sessionStep c n) c s
       let x := s.sess i
       findSession u c = some i → x.st = .idle → x.importing = false → x.kvStale = false →
       (x.pend = none → exec (.sessionStep c n) s = .next (errorAt u c 0x0208 (sessResult x 0 0))) ∧
       (∀ t, x.pend = some t →
         (x.maxCtx ≤ x.length → exec (.sessionStep c n) s = .next (errorAt u c 0x0301 (sessResult x 0 0))) ∧
         (x.length < x.maxCtx → exec (.sessionStep c n) s = .next
           (if frameQuotaOk u i (min x.maxCtx (x.length + n)) false = true then
             runBegun u c i
               { Run.blank c 0x22 .step with tokens := [t], pos := x.length, total := n, sample := true, left := n }
               (some t)
           else errorAt u c 0x060A (sessResult x 0 0))))) ∧
     (∀ k rj l a, Starts (.specVerify c k rj l a) c s →
       let u := begun (.specVerify c k rj l a) c s
       let x := s.sess i
       findSession u c = some i → x.st = .idle → x.importing = false → x.kvStale = false →
       (x.pend = none → exec (.specVerify c k rj l a) s = .next (errorAt u c 0x0208 (sessResult x 0 0))) ∧
       (∀ t, x.pend = some t → l = true → Unread (.specVerify c k rj l a) c s a ((if rj then 8 else 4) * k) →
         exec (.specVerify c k rj l a) s = .next (errorAt u c 0x0501 (sessResult x 0 0))) ∧
       (∀ t b v, x.pend = some t →
         (l = true ∧ Reads (.specVerify c k rj l a) c s a ((if rj then 8 else 4) * k) b v) ∨ (l = false ∧ b = [] ∧ v = u) →
         let ds := if l then words b k else []
         let qs := if l && rj then (words (b.drop (4 * k)) k).map (BitVec.ofNat 32) else []
         exec (.specVerify c k rj l a) s = .next
           (if l = false ∧ x.draft = none then errorAt v c 0x0110 (sessResult x 0 0)
           else if tokensOk (s.model (modelOf x)) ds = false then errorAt v c 0x0105 (sessResult x 0 0)
           else if ∃ q ∈ qs, probOk q = false then errorAt v c 0x0111 (sessResult x 0 0)
           else if x.maxCtx < x.length + k + 1 then errorAt v c 0x0301 (sessResult x 0 0)
           else if frameQuotaOk v i (x.length + k + 1) (!l) = true then
             runBegun v c i
               { Run.blank c 0x2A .verify with
                 tokens := t :: ds, pos := x.length, total := k + 1, sample := true, k := k, rejection := rj,
                 list := l, drafts := ds, probs := qs.map fun q => [q] } (some t)
           else errorAt v c 0x060A (sessResult x 0 0)))))

/-- SESSION_CANCEL of an IDLE session answers at once, emptied with FREE; of a BUSY or STARVED one it masks the lane,
so that no entry of the session but those whose seal decision stands may seal, and waits for the edge, which completes it; a
HELD session gives SESSION_STATE, and so does FREE of one that is importing (R245, R267–R271, R416). -/
def Obligations.SessionCancel : Prop :=
  ∀ (c : Cmd) (free : Bool) (s : State), Starts (.sessionCancel c free) c s →
    let u := begun (.sessionCancel c free) c s
    (findSession u c = none → exec (.sessionCancel c free) s = .next (errorAt u c 0x0401 [])) ∧
    (∀ i, findSession u c = some i →
      let x := s.sess i
      (x.st = .held ∨ (x.importing = true ∧ free = true) →
        exec (.sessionCancel c free) s = .next (errorAt u c 0x0208 (sessResult x 0 0))) ∧
      (x.st = .idle → free = false → exec (.sessionCancel c free) s = .next (doneAt u c (sessResult x 0 0))) ∧
      (x.st = .idle → free = true → x.importing = false → exec (.sessionCancel c free) s = .next
        (doneAt (freeSession u i) c (sessResult ((freeSession u i).sess i) 0 0)) ∧
        ((freeSession u i).sess i).length = 0 ∧ ((freeSession u i).sess i).pend = none ∧
        ((freeSession u i).sess i).history = [] ∧ ((freeSession u i).sess i).st = .idle) ∧
      (x.st = .busy ∨ x.st = .starved → ¬ (x.importing = true ∧ free = true) →
        ∃ t, exec (.sessionCancel c free) s = .next (runningAt t c (.session i)) ∧
        t.tick.acts = s.tick.acts ++ [.cancel i c.spool c.seq free] ∧
        (∀ e ∈ t.pipe.entries, e.sess = i → e.sealing = false → e.masked = true) ∧
        t.pipe.entries.length = s.pipe.entries.length ∧
        (∀ e ∈ s.pipe.entries, e.sess ≠ i ∨ e.sealing = true → e ∈ t.pipe.entries) ∧ t.sessions = s.sessions ∧
        t.kv = s.kv))

/-- SESSION_RELEASE closes an IDLE session, its generation kept (R246). SESSION_REBIND changes exactly the attributes
named, where tokens, TOP_K and the new bindings pass (R279, R412). SESSION_TRUNCATE keeps the sealed positions below its
length and takes the PENDING named: it clears each layer's page-list entries from ⌈n / ppf⌉ upward, in the draft's lists too, and
lowers the REFCOUNT of the frames they named, and every entry below stands (R229, R256). SESSION_RECOMPUTE leaves the positions below
FIRST in the same way and begins its run over the tokens read, KV_STALE standing until it completes; with COUNT 0 the shorter session is the result, and only an empty one
loses KV_STALE (R257, R317). A session in a state the command is not legal in gives SESSION_STATE, and so does one that is
importing for the last two, with the session result where R394 gives it and else 0; an unknown handle gives STALE_HANDLE
(R239, R245, R393, R394, R416). -/
def Obligations.SessionEdit : Prop :=
  ∀ (c : Cmd) (s : State),
    (∀ i : Instr, i = .sessionRelease c ∨ (∃ r, i = .sessionRebind c r) ∨ (∃ n p, i = .sessionTruncate c n p) ∨
        (∃ a f n, i = .sessionRecompute c a f n) → Starts i c s → findSession (begun i c s) c = none →
      exec i s = .next (errorAt (begun i c s) c 0x0401 [])) ∧
    (∀ i, Starts (.sessionRelease c) c s → findSession (begun (.sessionRelease c) c s) c = some i →
      let u := begun (.sessionRelease c) c s
      ((s.sess i).st = .idle → exec (.sessionRelease c) s = .next (doneAt (releaseSession u i) c []) ∧
        (releaseSession u i).sess i = { Session.init with gen := (s.sess i).gen, used := true }) ∧
      ((s.sess i).st ≠ .idle → exec (.sessionRelease c) s = .next (errorAt u c 0x0208 []))) ∧
    (∀ (r : Rebind) (i : Nat), Starts (.sessionRebind c r) c s →
      findSession (begun (.sessionRebind c r) c s) c = some i →
      let u := begun (.sessionRebind c r) c s
      let x := s.sess i
      let m := s.model (modelOf x)
      let fn := spoolOwner s c.spool
      let topOk := ∀ p, r.params = some p → p.topK ≤ bVocab m.bytes
      let bound := firstCode [bindNew u fn 0 x.model x.epoch x.steer (r.steer.bind optHandle),
        bindNew u fn 1 x.model x.epoch x.delta (r.delta.bind optHandle)]
      (x.st = .held → exec (.sessionRebind c r) s = .next (errorAt u c 0x0208 [])) ∧
      (x.st ≠ .held → tokensOk m (r.stops.getD []) = false →
        exec (.sessionRebind c r) s = .next (errorAt u c 0x0105 [])) ∧
      (x.st ≠ .held → tokensOk m (r.stops.getD []) = true → ¬ topOk →
        exec (.sessionRebind c r) s = .next (errorAt u c 0x010B [])) ∧
      (x.st ≠ .held → tokensOk m (r.stops.getD []) = true → topOk →
        (∀ k, bound = some k → exec (.sessionRebind c r) s = .next (errorAt u c k [])) ∧
        (bound = none → ∃ y, exec (.sessionRebind c r) s = .next (doneAt y c []) ∧
          y.sess i = { x with steer := (r.steer.map optHandle).getD x.steer, delta := (r.delta.map optHandle).getD x.delta,
                              cls := r.cls.getD x.cls, params := r.params.getD x.params, stops := r.stops.getD x.stops } ∧
          (∀ j, j ≠ i → y.sess j = s.sess j) ∧ y = { u with sessions := y.sessions }))) ∧
    (∀ (n : Nat) (p : W32) (i : Nat), Starts (.sessionTruncate c n p) c s →
      findSession (begun (.sessionTruncate c n p) c s) c = some i →
      let u := begun (.sessionTruncate c n p) c s
      let x := s.sess i
      let pend := (optHandle p).map BitVec.toNat
      (x.st ≠ .idle ∨ x.importing = true →
        exec (.sessionTruncate c n p) s = .next (errorAt u c 0x0208 (sessResult x 0 0))) ∧
      (x.st = .idle → x.importing = false →
        (x.length < n ∨ tokensOk (s.model (modelOf x)) pend.toList = false →
          exec (.sessionTruncate c n p) s = .next (errorAt u c 0x0105 (sessResult x 0 0))) ∧
        (n ≤ x.length → tokensOk (s.model (modelOf x)) pend.toList = true → ∃ y,
          exec (.sessionTruncate c n p) s = .next (doneAt y c (sessResult (y.sess i) 0 0)) ∧
          y.sess i = { x with history := historyAt x.history x.length n, length := n, draftLen := min n x.draftLen,
                              kvStale := x.kvStale && n != 0, mixed := x.mixed && n != 0, pend := pend } ∧
          (∀ j, j ≠ i → y.sess j = s.sess j) ∧ pagesCut u y x n ∧ y.kv = (truncSession u i n).kv ∧
          y = { u with sessions := y.sessions, kv := y.kv }))) ∧
    (∀ (a f n i : Nat), Starts (.sessionRecompute c a f n) c s →
      findSession (begun (.sessionRecompute c a f n) c s) c = some i →
      let u := begun (.sessionRecompute c a f n) c s
      let x := s.sess i
      (x.st ≠ .idle ∨ x.importing = true →
        exec (.sessionRecompute c a f n) s = .next (errorAt u c 0x0208 (sessResult x 0 0))) ∧
      (x.st = .idle → x.importing = false →
        (x.length < f ∨ n ≠ x.length - f →
          exec (.sessionRecompute c a f n) s = .next (errorAt u c 0x0105 (sessResult x 0 0))) ∧
        (f ≤ x.length → n = x.length - f →
          (Unread (.sessionRecompute c a f n) c s a (4 * n) →
            exec (.sessionRecompute c a f n) s = .next (errorAt u c 0x0501 (sessResult x 0 0))) ∧
          (∀ b v, Reads (.sessionRecompute c a f n) c s a (4 * n) b v →
            (tokensOk (s.model (modelOf x)) (words b n) = false →
              exec (.sessionRecompute c a f n) s = .next (errorAt v c 0x0105 (sessResult x 0 0))) ∧
            (tokensOk (s.model (modelOf x)) (words b n) = true →
              let y := { x with history := historyAt x.history x.length f, length := f, draftLen := min f x.draftLen,
                                mixed := x.mixed && f != 0 }
              ∃ t, exec (.sessionRecompute c a f n) s = .next
                  (if n = 0 then doneAt t c (sessResult (t.sess i) 0 0) else runningAt t c (.session i)) ∧
                t.sess i =
                  (if n = 0 then { y with kvStale := x.kvStale && f != 0 }
                  else { y with st := .busy, run := some { Run.blank c 0x28 .recompute with
                    tokens := words b n, pos := f, total := n, chunk := opt s oPrefillChunk, keep := x.pend } }) ∧
                (∀ j, j ≠ i → t.sess j = s.sess j) ∧ pagesCut v t x f ∧ t.kv = (truncSession v i f).kv ∧
                t = { v with sessions := t.sessions, kv := t.kv })))))

/-- SESSION_FORK of an IDLE session: a new IDLE session of the same model, length, PENDING and history, with the parameters and
class named if any; its page lists hold the parent's entries from 0 to ⌈n / ppf⌉ − 1 of each layer, the draft's too, the last, open
frame among them, and each frame so named counts one more REFCOUNT; what refuses it gives its code and changes nothing
(R230, R247, R282, R317). SESSION_QUERY answers the session's state and changes nothing but the record's 64 bytes (R411).
FRAME_QUOTA sets both quotas of the spool named and no other register of it; FRAME_QUERY answers its frames, sessions and
the parked lanes, and writes the report of the eight keels, but a VF asking of another function's spool gets UNKNOWN_SPOOL
(R233, R382, R413, R414). -/
def Obligations.SessionViews : Prop :=
  ((∀ (c : Cmd) (e : Option (SampleParams × Nat)) (s : State) (i : Nat), Starts (.sessionFork c e) c s →
     let u := begun (.sessionFork c e) c s
     let x := s.sess i
     let m := s.model (modelOf x)
     let retiring := fun (h : Option W32) =>
       ∃ w k a, h = some w ∧ findAdapter u 0 w = some (k, a) ∧ (s.adapter (adapterKey k a)).retiring = true
     let current := x.st = .idle ∧ x.importing = false
     let topOk := ∀ p, e = some p → p.1.topK ≤ bVocab m.bytes
     let free := ¬ retiring x.steer ∧ ¬ retiring x.delta
     findSession u c = some i →
     (¬ current → exec (.sessionFork c e) s = .next (errorAt u c 0x0208 [])) ∧
     (current → x.kvStale = true → exec (.sessionFork c e) s = .next (errorAt u c 0x020A [])) ∧
     (current → x.kvStale = false → ¬ topOk → exec (.sessionFork c e) s = .next (errorAt u c 0x010B [])) ∧
     (current → x.kvStale = false → topOk → ¬ free → exec (.sessionFork c e) s = .next (errorAt u c 0x020D [])) ∧
     (current → x.kvStale = false → topOk → free →
       (sessQuotaOk u c.spool = false → exec (.sessionFork c e) s = .next (errorAt u c 0x0609 [])) ∧
       (sessQuotaOk u c.spool = true →
         (leastBelow 65536 (sessIndexFree u c) = none → exec (.sessionFork c e) s = .next (errorAt u c 0x0303 [])) ∧
         (∀ j, leastBelow 65536 (sessIndexFree u c) = some j →
           (allocSession u m x.draft x.maxCtx = none → exec (.sessionFork c e) s = .next (errorAt u c 0x0304 [])) ∧
           (∀ runs druns s1, allocSession u m x.draft x.maxCtx = some (runs, druns, s1) →
             let g := nextGen (s.sess j).used (s.sess j).gen
             ∃ t, exec (.sessionFork c e) s = .next (doneAt t c (toLe 4 (sessHandle j g).toNat)) ∧
               t.sess j = { x with gen := g, used := true, runs := runs, druns := druns, run := none,
                                   params := (e.map Prod.fst).getD x.params, cls := (e.map Prod.snd).getD x.cls } ∧
               (∀ k, k ≠ j → t.sess k = s.sess k) ∧
               forkShares s1 t (sharedKeys m x.runs runs x.length ++ match draftOf x with
                 | none => []
                 | some d => sharedKeys (s.model d) x.druns druns x.draftLen) ∧
               t = { s1 with sessions := t.sessions, kv := { s1.kv with pages := t.kv.pages, frames := t.kv.frames } }))))) ∧
   (∀ (c : Cmd) (a : Nat) (s : State) (i : Nat), Starts (.sessionQuery c a) c s →
     findSession (begun (.sessionQuery c a) c s) c = some i →
     let u := begun (.sessionQuery c a) c s
     let x := s.sess i
     let res := toLe 1 (sessStateCode x) ++ toLe 1 (sessFlags x) ++ toLe 2 x.epoch ++ toLe 4 x.length ++
       toLe 4 (pendField x.pend)
     exec (.sessionQuery c a) s = .next
       (if a = 0 then doneAt u c res
        else outputAt u c a (queryRecord u i) res)) ∧
   (∀ (c : Cmd) (i : Instr), (∃ e, i = .sessionFork c e) ∨ (∃ a, i = .sessionQuery c a) → ∀ s, Starts i c s →
     findSession (begun i c s) c = none → exec i s = .next (errorAt (begun i c s) c 0x0401 []))) ∧
  (∀ (c : Cmd) (s : State) (p : Nat), c.handle.toNat = p →
     (∀ q f, Starts (.frameQuota c q f) c s →
       let u := begun (.frameQuota c q f) c s
       (p = 0 ∨ 4096 ≤ p → exec (.frameQuota c q f) s = .next (errorAt u c 0x0105 [])) ∧
       (1 ≤ p → p < 4096 → ∃ x, exec (.frameQuota c q f) s = .next (doneAt x c []) ∧
         x.spool p = { u.spool p with sessQuota := some q, frameQuota := some f } ∧ sessQuota x p = q ∧ frameQuota x p = f ∧
         (∀ r, r ≠ p → x.spool r = u.spool r) ∧ x = { u with spools := x.spools })) ∧
     (∀ a, Starts (.frameQuery c a) c s →
       let u := begun (.frameQuery c a) c s
       let mine := spoolOwner s c.spool = 0 ∨ spoolOwner s p = spoolOwner s c.spool
       let res := toLe 4 (spoolFrames u p) ++ toLe 4 (spoolSessions u p) ++ toLe 4 s.kv.parked.length
       (4096 ≤ p → exec (.frameQuery c a) s = .next (errorAt u c 0x0105 [])) ∧
       (p < 4096 → ¬ mine → exec (.frameQuery c a) s = .next (errorAt u c 0x0402 [])) ∧
       (p < 4096 → mine → exec (.frameQuery c a) s = .next
         (if a = 0 then doneAt u c res
          else outputAt u c a ((List.range 8).flatMap (keelRecord u)) res))))

/-- KV_EXPORT holds every frame it reads by one more reference and replies ACCEPTED; a LIMIT below the stream's length
gives that length with 0x0114, and a HELD session SESSION_STATE (R234, R245, R415). KV_IMPORT on an IDLE session of
LENGTH 0 marks it importing and replies ACCEPTED; any other session gives SESSION_STATE, a PENDING not below VOCAB
BAD_PARAMETER, and a stream that cannot be read completes the command with HOST_FAULT (R235, R386, R416). When an output
has moved, an export's frames lose that reference and the command ends with its byte count; a stream that has arrived and
fails a check, or finds no frames, changes nothing, and one that passes reserves fresh frames, writes each frame record's contents
and scales into the frame of its page-list entry, and gives the session its LENGTH and PENDING, its HISTORY empty. A transfer that
fails gives HOST_FAULT (R235, R386, R415, R416). Where the buffer lies in the window, the records cross the bridle between its keels
and their own in the bulk class (R25, R473; log 112). -/
def Obligations.KvMove : Prop :=
  (∀ (c : Cmd) (s : State),
    (∀ i : Instr, (∃ a l, i = .kvExport c a l) ∨ (∃ a n p, i = .kvImport c a n p) → Starts i c s →
      findSession (begun i c s) c = none → exec i s = .next (errorAt (begun i c s) c 0x0401 [])) ∧
    (∀ a lim i, Starts (.kvExport c a lim) c s → findSession (begun (.kvExport c a lim) c s) c = some i →
      let u := begun (.kvExport c a lim) c s
      let x := s.sess i
      let m := s.model (modelOf x)
      let fs := exportFrames u m x
      (x.st = .held → exec (.kvExport c a lim) s = .next (errorAt u c 0x0208 [])) ∧
      (x.st ≠ .held → lim < exportLen m x.length →
        exec (.kvExport c a lim) s = .next (errorAt u c 0x0114 (toLe 8 (exportLen m x.length)))) ∧
      (x.st ≠ .held → exportLen m x.length ≤ lim → exec (.kvExport c a lim) s = .next (acceptedAt (fs.foldl addRef u) c []
        (.kvExport fs [(a, exportStream u m x)] (toLe 8 (exportLen m x.length)))))) ∧
    (∀ a n p i, Starts (.kvImport c a n p) c s → findSession (begun (.kvImport c a n p) c s) c = some i →
      let u := begun (.kvImport c a n p) c s
      let x := s.sess i
      let legal := x.st = .idle ∧ x.length = 0 ∧ x.importing = false
      let known := tokensOk (s.model (modelOf x)) ((optHandle p).map BitVec.toNat).toList = true
      (¬ legal → exec (.kvImport c a n p) s = .next (errorAt u c 0x0208 (sessResult x 0 0))) ∧
      (legal → ¬ known → exec (.kvImport c a n p) s = .next (errorAt u c 0x0105 (sessResult x 0 0))) ∧
      (legal → known → Unread (.kvImport c a n p) c s a n →
        exec (.kvImport c a n p) s = .next (acceptedDone u c 0x0501 (sessResult x 0 0))) ∧
      (legal → known → ∀ b v, Reads (.kvImport c a n p) c s a n b v → ∃ y,
        exec (.kvImport c a n p) s = .next (acceptedAt y c [] (.kvImport i (b.take n) p)) ∧
        y.sess i = { x with importing := true } ∧ (∀ j, j ≠ i → y.sess j = s.sess j) ∧
        y = { v with sessions := y.sessions }))) ∧
  (∀ (p : Nat) (seq : W32) (ok : Bool) (s : State) (o : OutCmd), 1 ≤ p → p < 4096 → s.bus.viral = false → findOut s p seq = some o →
    let moved := ok = true ∨ bufferHere s o = true
    (∀ fs parts res, (o.job = .output parts res ∧ fs = []) ∨ o.job = .kvExport fs parts res →
      let u := fs.foldl dropRef (moverTraffic s o)
      (moved → exec (.hostDmaTransfer p seq ok) s = .next
        (finish (parts.foldl (fun v w => bufWrite v (outIo o) w.1 w.2) u) p seq 0 res)) ∧
      (¬ moved → exec (.hostDmaTransfer p seq ok) s = .next (finish u p seq 0x0501 []))) ∧
    (∀ i b pend, o.job = .kvImport i b pend → (s.sess i).importing = true →
      let x := s.sess i
      let m := s.model (modelOf x)
      let needs := needsOf s m x.runs 0 (le b 4 4)
      let short := (List.range 8).any (fun k => decide (freeFrames s k < needOn needs k)) = true
      let failed := fun code => ∃ y, exec (.hostDmaTransfer p seq ok) s = .next (finish y p seq code (sessResult x 0 0)) ∧
        y.sess i = { x with importing := false } ∧ (∀ j, j ≠ i → y.sess j = s.sess j) ∧
        y = { s with sessions := y.sessions, ends := (moverTraffic s o).ends }
      (¬ moved → failed 0x0501) ∧
      (∀ code, moved → checkStream m x.maxCtx b = some code → failed code) ∧
      (moved → checkStream m x.maxCtx b = none → short → failed 0x0305) ∧
      (moved → checkStream m x.maxCtx b = none → ¬ short → ∃ y,
        exec (.hostDmaTransfer p seq ok) s = .next (finish y p seq 0 (sessResult (y.sess i) 0 0)) ∧
        y.sess i = { x with importing := false, length := le b 4 4, pend := (optHandle pend).map BitVec.toNat,
                            history := [] } ∧
        (∀ j, j ≠ i → y.sess j = s.sess j) ∧
        y.kv = (((exportList m (le b 4 4)).zipIdx.foldl (fun t w =>
          importFrame t m x.runs w.1 (slice b (64 + 8 * bLayers m.bytes + 65616 * w.2) 65616))
          (reserveAll s i x.epoch m x.runs needs)).kv) ∧
        (∀ l k, layersHere m = [(l, k)] → k < 8 → 0 < le b 4 4 → le b 4 4 ≤ layerPpf m l →
          (s.page (pageAt x.runs (l, k) 0)).valid = false → s.kv.dram.wf = true →
          let e := y.page (pageAt x.runs (l, k) 0)
          let f := frameKey k e.frame
          e = { frame := e.frame, copy := false, old := 0, valid := true } ∧ (y.frame f).ref = 1 ∧ (y.frame f).owner = i ∧
          (y.frame f).layer = l ∧ (y.frame f).written = true ∧
          ∀ n, n < frameUsed m l → n < 65536 →
            y.kv.dram.read (frameAddr f + n) = b.getD (64 + 8 * bLayers m.bytes + 80 + n) 0) ∧
        y = { s with sessions := y.sessions, kv := y.kv, ends := (moverTraffic s o).ends }))) ∧
  (∀ (s : State) (o : OutCmd) (c : Cmd) (a' lim a : Nat) (b : List Byte) (fs : List Nat) (r : List (Nat × List Byte)) (res : List Byte),
    o.instr = .kvExport c a' lim → o.job = .kvExport fs ((a, b) :: r) res →
    let ps := streamParts (s.model (modelOf (s.sess (handleIndex c.handle)))) (le b 4 4) b
    (hdmOffset s a b.length = none → moverTraffic s o = s) ∧
    (∀ w, hdmOffset s a b.length = some w →
      moverTraffic s o = ps.foldl (fun t x => sendBulk t x.2.2 (hdmKeel s (w + x.1)) x.2.1) s))

/-- ADAPTER_LOAD takes the lowest free index of the image's kind under a new generation and replies ACCEPTED with the
handle; a model in another state, an image too short or of no kind, a pair that R408 refuses, no index and no room give
their codes. When the image has arrived, one that passes its checks is resident, with the pair of REPLACES, and the command
completes; one that fails frees the index (R240, R272, R276, R314, R408, R413). STEER_BANK_LOAD on a range that no resident
steering adapter names replies ACCEPTED, and the vectors enter the bank when they have arrived; a range in use gives
ADAPTER_STATE (R273, R413). ADAPTER_RETIRE of a resident adapter marks it retiring; once no session is bound to it and no
entry's snapshot names it ADAPTER_FREE leaves it to the next edge, which frees it and ends that command; before, ADAPTER_FREE
does nothing. ADAPTER_QUERY answers both counts, and changes nothing (R281, R282, R413; log 114). -/
def Obligations.Adapters : Prop :=
  ((∀ (c : Cmd) (a n : Nat) (r : Option W32) (s : State), Starts (.adapterLoad c a n r) c s →
     let u := begun (.adapterLoad c a n r) c s
     (findModel u c.handle = none → exec (.adapterLoad c a n r) s = .next (errorAt u c 0x0401 [])) ∧
     (∀ mi, findModel u c.handle = some mi →
       let m := s.model mi
       let ready := m.st = .committed ∨ m.st = .replacing
       (¬ ready → exec (.adapterLoad c a n r) s = .next (errorAt u c 0x0209 [])) ∧
       (ready → Unread (.adapterLoad c a n r) c s a n → exec (.adapterLoad c a n r) s = .next (errorAt u c 0x0501 [])) ∧
       (ready → ∀ b v, Reads (.adapterLoad c a n r) c s a n b v →
         let img := b.take n
         let kind := byteAt img 2
         let base := if kind = 0 then 0 else le img 8 2
         let room := leastBelow (if kind = 0 then 4096 else 256) (adapterIndexFree v c kind)
         let pair := replacesCheck v (spoolOwner s c.spool) m c.handle kind base r
         (1 < kind ∨ img.length < 32 → exec (.adapterLoad c a n r) s = .next (errorAt v c 0x010C [])) ∧
         (kind ≤ 1 → 32 ≤ img.length →
           (∀ k, pair = some k → exec (.adapterLoad c a n r) s = .next (errorAt v c k [])) ∧
           (pair = none → room = none → exec (.adapterLoad c a n r) s = .next (errorAt v c 0x0306 [])) ∧
           (∀ i, pair = none → room = some i →
             let key := adapterKey kind i
             let g := nextGen (s.adapter key).used (s.adapter key).gen
             (regionFits v (adapterRoom m img) = false → exec (.adapterLoad c a n r) s = .next (errorAt v c 0x0307 [])) ∧
             (regionFits v (adapterRoom m img) = true → exec (.adapterLoad c a n r) s = .next (acceptedAt
               (v.onAdapter key fun _ =>
                 { Adapter.init with
                   gen := g, used := true, fn := spoolOwner s c.spool, model := c.handle, base := base, bytes := img,
                   cmd := some (c.spool, c.seq) })
               c (toLe 4 (adapterHandle kind i g).toNat) (.adapterLoad kind i img)))))))) ∧
   (∀ (p : Nat) (seq : W32) (ok : Bool) (s : State) (o : OutCmd) (kind i : Nat) (b : List Byte), 1 ≤ p → p < 4096 →
     s.bus.viral = false → findOut s p seq = some o → o.job = .adapterLoad kind i b →
     let key := adapterKey kind i
     let a := s.adapter key
     let mi := a.model.toNat % 256
     let m := s.model mi
     let h := adapterHandle kind i a.gen
     let moved := ok = true ∨ bufferHere s o = true
     let epochOk := kind = 0 ∨ a.base = m.epoch ∨ ∃ r, m.repl = some r ∧ r.newEpoch = a.base
     let imageOk := (if kind = 0 then steerOk m a.bytes else deltaOk m a.bytes) = true
     let pair := replacesCheck s a.fn m a.model kind a.base (replacesOf o.instr)
     let failed := fun code => exec (.hostDmaTransfer p seq ok) s = .next
       (finish ((moverTraffic s o).onAdapter key fun _ => { Adapter.init with gen := a.gen, used := true }) p seq code (toLe 4 h.toNat))
     (¬ moved → failed 0x0501) ∧
     (moved → ¬ (epochOk ∧ imageOk) → failed 0x010C) ∧
     (∀ k, moved → epochOk → imageOk → pair = some k → failed k) ∧
     (moved → epochOk → imageOk → pair = none → ∃ x,
       exec (.hostDmaTransfer p seq ok) s = .next (finish x p seq 0 (toLe 4 h.toNat)) ∧
       x.adapter key = { a with resident := true, cmd := none } ∧
       (∀ old, replacesOf o.instr = some old →
         (x.model mi).repl = m.repl.map fun r => { r with pairs := r.pairs ++ [(old, h)] }) ∧
       (replacesOf o.instr = none → x.models = s.models) ∧
       x = { s with adapters := s.adapters.set key (x.adapter key), models := x.models, ends := (moverTraffic s o).ends }))) ∧
  ((∀ (c : Cmd) (a f n : Nat) (s : State), Starts (.steerBankLoad c a f n) c s →
     let u := begun (.steerBankLoad c a f n) c s
     (findModel u c.handle = none → exec (.steerBankLoad c a f n) s = .next (errorAt u c 0x0401 [])) ∧
     (∀ mi, findModel u c.handle = some mi →
       let w := 2 * bHidden (s.model mi).bytes * n
       ((s.model mi).st = .staging → exec (.steerBankLoad c a f n) s = .next (errorAt u c 0x0209 [])) ∧
       ((s.model mi).st ≠ .staging →
         (vectorInUse s c.handle f n = true → exec (.steerBankLoad c a f n) s = .next (errorAt u c 0x020D [])) ∧
         (vectorInUse s c.handle f n = false →
           (Unread (.steerBankLoad c a f n) c s a w →
             exec (.steerBankLoad c a f n) s = .next (acceptedDone u c 0x0501 [])) ∧
           (∀ b v, Reads (.steerBankLoad c a f n) c s a w b v →
             exec (.steerBankLoad c a f n) s = .next (acceptedAt v c [] (.bankLoad mi f (b.take w)))))))) ∧
   (∀ (p : Nat) (seq : W32) (ok : Bool) (s : State) (o : OutCmd) (mi f : Nat) (b : List Byte), 1 ≤ p → p < 4096 →
     s.bus.viral = false → findOut s p seq = some o → o.job = .bankLoad mi f b →
     let moved := ok = true ∨ bufferHere s o = true
     (¬ moved → exec (.hostDmaTransfer p seq ok) s = .next (finish s p seq 0x0501 [])) ∧
     (moved → 0 < bHidden (s.model mi).bytes →
       ∃ x, exec (.hostDmaTransfer p seq ok) s = .next (finish x p seq 0 []) ∧
         (∀ i, i < b.length / (2 * bHidden (s.model mi).bytes) → (x.model mi).bank.get [] (f + i) =
           slice b (2 * bHidden (s.model mi).bytes * i) (2 * bHidden (s.model mi).bytes)) ∧
         (∀ j, j < f ∨ f + b.length / (2 * bHidden (s.model mi).bytes) ≤ j →
           (x.model mi).bank.get [] j = (s.model mi).bank.get [] j) ∧
         (∀ j, j ≠ mi → x.model j = s.model j) ∧ x = { s with models := x.models }))) ∧
  ((∀ (c : Cmd) (s : State) (i : Instr), i = .adapterRetire c ∨ i = .adapterQuery c → Starts i c s →
     let u := begun i c s
     findAdapter u (spoolOwner s c.spool) c.handle = none → exec i s = .next (errorAt u c 0x0401 [])) ∧
   (∀ (c : Cmd) (s : State) (k i : Nat), Starts (.adapterRetire c) c s →
     let u := begun (.adapterRetire c) c s
     findAdapter u (spoolOwner s c.spool) c.handle = some (k, i) →
     let a := s.adapter (adapterKey k i)
     (a.retiring = true ∨ a.resident = false → exec (.adapterRetire c) s = .next (errorAt u c 0x020D [])) ∧
     (a.retiring = false → a.resident = true → exec (.adapterRetire c) s = .next (acceptedAt
       { u with adapters := u.adapters.set (adapterKey k i) { a with retiring := true, cmd := some (c.spool, c.seq) } } c []
       (.adapterRetire k i)))) ∧
   (∀ (k i : Nat) (s : State) (p : Nat) (seq : W32) (acts : List EdgeAct),
     let a := s.adapter (adapterKey k i)
     let unused := a.retiring = true ∧ refCount s (adapterHandle k i a.gen) = 0
     ((Instr.adapterFree k i).wf = true → exec (.adapterFree k i) s = .next
       (if unused ∧ EdgeAct.freeAdapter k i ∉ s.tick.acts then atEdge s [.freeAdapter k i] else s)) ∧
     (¬ unused → applyAct acts s (.freeAdapter k i) = s) ∧
     (unused → a.cmd = some (p, seq) → applyAct acts s (.freeAdapter k i) =
       finish { s with adapters := s.adapters.set (adapterKey k i) { Adapter.init with gen := a.gen, used := true } }
         p seq 0 [])) ∧
   (∀ (c : Cmd) (s : State) (k i : Nat), Starts (.adapterQuery c) c s →
     let u := begun (.adapterQuery c) c s
     findAdapter u (spoolOwner s c.spool) c.handle = some (k, i) →
     let a := s.adapter (adapterKey k i)
     exec (.adapterQuery c) s = .next (doneAt u c
       (toLe 1 (if a.retiring then 1 else 0) ++ toLe 1 k ++ toLe 2 a.base ++ toLe 4 (refCount s c.handle) ++
         toLe 4 (boundSessions s c.handle)))))

/-! Calibration, tests and reads. -/

/-- REFRESH_POLICY, CHECK_POLICY, CAL_WRITE, THERMAL_CONFIG, ADC_SEQUENCE and TRIM_WRITE take effect at the next edge,
which ends them: at their start they change nothing but what waits there. A record or block that fails its check gives
the command's code, a panel in a stage or given weights of a new epoch PANEL_STATE for TRIM_WRITE, one without weights for
CAL_WRITE, and a read that fails HOST_FAULT (R86, R90, R92, R93, R105, R418, R451, R522, R525; a CAL_WRITE of a panel that is
not installed log 29). -/
def Obligations.EdgeCommands : Prop :=
  ∀ (c : Cmd) (s : State),
    (∀ dies d, Starts (.refreshPolicy c dies d) c s →
      exec (.refreshPolicy c dies d) s = .next (edgeAt (begun (.refreshPolicy c dies d) c s) c [.refresh dies d])) ∧
    (∀ p v, Starts (.checkPolicy c p v) c s →
      exec (.checkPolicy c p v) s = .next (edgeAt (begun (.checkPolicy c p v) c s) c
        [if v = 3 then .clearSuspect p else .policy p v])) ∧
    (∀ a b u, Starts (.calWrite c a) c s → Reads (.calWrite c a) c s a 4128 b u →
      let p := le b 0 4
      (panelOk p = false → exec (.calWrite c a) s = .next (errorAt u c 0x0105 [])) ∧
      (panelOk p = true → calRecordOk b = false → exec (.calWrite c a) s = .next (errorAt u c 0x0113 [])) ∧
      (panelOk p = true → calRecordOk b = true → calReady u p = false →
        exec (.calWrite c a) s = .next (errorAt u c 0x020C [])) ∧
      (panelOk p = true → calRecordOk b = true → calReady u p = true →
        exec (.calWrite c a) s = .next (runningAt (atEdge u
          [.corrections p (halfs b 16 1024) (halfs b 2064 1024) (halfs b 4112 8) [] true, .calWriteDone c.spool c.seq p])
          c .tick))) ∧
    (∀ a b u, Starts (.thermalConfig c a) c s → Reads (.thermalConfig c a) c s a 32 b u →
      exec (.thermalConfig c a) s = .next (if thermalOk (b.take 32) then edgeAt u c [.thermal (b.take 32)]
        else errorAt u c 0x0105 [])) ∧
    (∀ a b u, Starts (.adcSequence c a) c s → Reads (.adcSequence c a) c s a (sequenceBytes s a) b u →
      exec (.adcSequence c a) s = .next (if sequenceOk b then edgeAt u c [.adcSeq (b.take (8 + 4 * byteAt b 0))]
        else errorAt u c 0x0105 [])) ∧
    (∀ a n b u, Starts (.trimWrite c a n) c s → Reads (.trimWrite c a n) c s a (1588 * n) b u →
      let rs := (List.range n).map fun i => slice b (1588 * i) 1588
      ((∃ r ∈ rs, trimRecordOk r = false) → exec (.trimWrite c a n) s = .next (errorAt u c 0x010D [])) ∧
      ((∀ r ∈ rs, trimRecordOk r = true) → (∃ r ∈ rs, panelStage u (le r 0 4) ≠ none ∨ replHolds u (le r 0 4) = true) →
        exec (.trimWrite c a n) s = .next (errorAt u c 0x020C [])) ∧
      ((∀ r ∈ rs, trimRecordOk r = true ∧ panelStage u (le r 0 4) = none ∧ replHolds u (le r 0 4) = false) →
        exec (.trimWrite c a n) s = .next (acceptedAt
          (atEdge u ((rs.map fun r => EdgeAct.trims (le r 0 4) (trimEntries r) (le r 8 2)) ++ [.finish c.spool c.seq 0 []]))
          c [] .tick))) ∧
    (∀ (i : Instr) (a n : Nat), (i = .calWrite c a ∧ n = 4128) ∨ (i = .thermalConfig c a ∧ n = 32) ∨
        (i = .adcSequence c a ∧ n = sequenceBytes s a) ∨ (∃ k, i = .trimWrite c a k ∧ n = 1588 * k) ∨
        (∃ k, i = .redundancyLoad c a k ∧ n = 36 * k) → Starts i c s → Unread i c s a n →
      exec i s = .next (errorAt (begun i c s) c 0x0501 []))

/-- CAL_READ of a panel ready for it writes its record of 4,128 bytes, any other gives PANEL_STATE; TRIM_READ writes
the records of COUNT installed panels from FIRST upward (R91, R417, R418). CAL_RUN of ready panels, one or every one of the
keels named that holds weights, makes their recalibrations due at the next free slots and leaves the command with those to
do; one not ready gives PANEL_STATE. REDUNDANCY_LOAD of records that pass gives each tile its record's 16 entries: they
replace the tile's map at the seal, or wait for a substitution write where the tile holds weights and an entry is newly VALID (R86,
R96–R98, R417; log 102). RECALIBRATION in its slot restarts the panel's interval and takes it out of its
die's order. Two passes that agree leave new corrections for the seal that ends the tick; two that disagree leave the
corrections, use up one of the tries that follow a write, count, and write a record of kind 0x0002 (R76, R80–R85). A panel
that may not be recalibrated, or finds no slot, is left as it is. -/
def Obligations.Calibration : Prop :=
  ((∀ (c : Cmd) (p a : Nat) (s : State), Starts (.calRead c p a) c s →
     let u := begun (.calRead c p a) c s
     (calRecord u p).length = 4128 ∧
     exec (.calRead c p a) s = .next
       (if calReady u p then outputAt u c a (calRecord u p) (toLe 8 s.tick.count.toNat) else errorAt u c 0x020C [])) ∧
   (∀ (c : Cmd) (f n a : Nat) (s : State), Starts (.trimRead c f n a) c s →
     let u := begun (.trimRead c f n a) c s
     (∀ p ∈ panelsFrom f n, f ≤ p ∧ panelOk p = true) ∧ (panelsFrom f n).length ≤ n ∧
     exec (.trimRead c f n a) s = .next (acceptedAt u c []
       (.output [(a, (panelsFrom f n).flatMap (trimRecord u))] (toLe 4 (panelsFrom f n).length))))) ∧
  ((∀ (c : Cmd) (w : W32) (ks : Nat) (s : State), Starts (.calRun c w ks) c s →
     let u := begun (.calRun c w ks) c s
     let ps := if w = noHandle then (holdingPanels s).filter fun p => bitOf ks (panelKeel p) else [w.toNat]
     ((∃ p ∈ ps, calReady u p = false) → exec (.calRun c w ks) s = .next (errorAt u c 0x020C [])) ∧
     ((∀ p ∈ ps, calReady u p = true) → ∃ x, exec (.calRun c w ks) s = .next (acceptedAt x c [] (.calRun ps 0 0 0)) ∧
       (∀ p ∈ ps, x.panelAt p = { s.panelAt p with calForced := true }) ∧
       (∀ q, q ∉ ps → x.panelAt q = s.panelAt q) ∧ x = { u with arr := { u.arr with panels := x.arr.panels } })) ∧
   (∀ (c : Cmd) (a n : Nat) (b : List Byte) (s u : State), Starts (.redundancyLoad c a n) c s →
     Reads (.redundancyLoad c a n) c s a (36 * n) b u →
     let rs := (List.range n).map fun i => slice b (36 * i) 36
     ((∃ r ∈ rs, redRecordOk r = false) → exec (.redundancyLoad c a n) s = .next (errorAt u c 0x010E [])) ∧
     ((∀ r ∈ rs, redRecordOk r = true) → ∃ x, exec (.redundancyLoad c a n) s =
         .next (acceptedAt x c [] (.redundancy (rs.map fun r => le r 0 4))) ∧
       (∀ r ∈ rs, redundancyOpen x (le r 0 4) = true) ∧
       (∀ r ∈ rs, (∀ v ∈ rs, le v 0 4 = le r 0 4 → v = r) →
         let t := le r 0 4
         let es := (List.range 16).map fun i => le r (4 + 2 * i) 2
         let newly := ∃ i, i < 16 ∧ redValid (es.getD i 0) = true ∧ es.getD i 0 ≠ (s.tileAt t).red.getD i 0
         (tileHolds s t = true → newly → x.tileAt t = { s.tileAt t with redWant := some es }) ∧
         (¬ (tileHolds s t = true ∧ newly) →
           x.tileAt t = { s.tileAt t with redWant := none } ∧ EdgeAct.substitution t es ∈ x.tick.acts)) ∧
       (∀ t, t ∉ rs.map (fun r => le r 0 4) → x.tileAt t = s.tileAt t) ∧
       (∀ a ∈ s.tick.acts, a ∈ x.tick.acts) ∧
       x = { u with arr := { u.arr with tiles := x.arr.tiles }, tick := { u.tick with acts := x.tick.acts } })) ∧
   (∀ (acts : List EdgeAct) (s : State) (t : Nat) (es : List Nat), let x := applyAct acts s (.substitution t es)
     x.tileAt t = { s.tileAt t with red := es } ∧ (∀ n, n ≠ t → x.tileAt n = s.tileAt n) ∧
     x = { s with arr := { s.arr with tiles := x.arr.tiles } })) ∧
  (∀ (p : Nat) (a b : CalPass) (s : State), panelOk p = true →
     let x := s.panelAt p
     let n := 8 * p + measuredTile s p
     let held := (List.range 8).filter fun i => tileHolds s (8 * p + i)
     let pa := passSums (s.tileAt n).counts a
     let pb := passSums (s.tileAt n).counts b
     let agree := passesAgree (opt s oCalAgree) pa pb (calCounts s n) held
     (mayRecalibrate s p = false ∨ ¬ slotFor s 3 (panelOp 6 p) → exec (.recalibration p a b) s = .next s) ∧
     (mayRecalibrate s p = true → slotFor s 3 (panelOp 6 p) →
       ∃ t, exec (.recalibration p a b) s = .next t ∧ (t.panelAt p).lastAttempt = s.tick.edges ∧
         (t.panelAt p).measured = measuredTile s p ∧ (t.panelAt p).calDue = false ∧ (t.panelAt p).calUrgent = false ∧
         (t.panelAt p).calForced = false ∧
         (t.panelAt p).o = x.o ∧ (t.panelAt p).gc = x.gc ∧ (t.panelAt p).gt = x.gt ∧ (t.panelAt p).cal = x.cal ∧
         (t.dieAt (panelDie p)).order = (s.dieAt (panelDie p)).order.filter (fun q => !(q == p)) ∧
         (∀ q, q ≠ p → t.panelAt q = s.panelAt q) ∧
         (agree = true → t.tick.acts = s.tick.acts ++
             [newCorrections s p (measuredTile s p) (measuredFormat s n) pa pb (calCounts s n) held] ∧
           (t.panelAt p).fresh = x.fresh ∧ (t.panelAt p).disRun = x.disRun ∧
           t.chk = (passFaults (passFaults s p held a) p held b).chk) ∧
         (agree = false → t.tick.acts = s.tick.acts ∧ (t.panelAt p).disRun = satAdd 8 x.disRun 1 ∧
           (t.panelAt p).disTot = satAdd 16 x.disTot 1 ∧ (t.panelAt p).tries = x.tries + 1 ∧
           (t.panelAt p).fresh = (x.fresh && decide (x.tries + 1 < opt s oCalDisagreeLimit)) ∧
           ∃ r, t.chk.log.getLast? = some r ∧ r.kind = 0x0002 ∧ r.location = p)))

/-- TEST_PANEL, TEST_CORE and BIST_RUN reply ACCEPTED and go on with their test; a panel that holds no weights takes
test images; a BIST_RUN on a keel with a placed stage, or beside another, gives KEEL_BUSY. BIST_RUN_DONE ends every BIST_RUN,
with 0 or with the mask of its keels that failed (R420, R454, R456). A field test that is due or asked for is counted. A panel's runs
four products on each tile that has an image, and fails where one of them fails the checksum or the comparison: the lowest such
tile is pattern-suspect (log 135), and the failure counts and is recorded as kind 0x0017. A test that is neither, or finds no slot,
does not run. A core whose reruns failed waits no longer once it has been tested (R438, R452–R455). -/
def Obligations.FieldTests : Prop :=
  (∀ (c : Cmd) (s : State),
     (∀ p, Starts (.testPanel c p) c s → ∃ x, exec (.testPanel c p) s = .next (acceptedAt x c [] (.testPanel p)) ∧
       (panelHolds s p = true → x = begun (.testPanel c p) c s) ∧
       (panelHolds s p = false → ∀ i, i < 8 →
         x.tileAt (8 * p + i) = { s.tileAt (8 * p + i) with testImage := true }) ∧
       (∀ t, t / 8 ≠ p → x.tileAt t = s.tileAt t)) ∧
     (∀ k, Starts (.testCore c k) c s →
       exec (.testCore c k) s = .next (acceptedAt (begun (.testCore c k) c s) c [] (.testCore k))) ∧
     (∀ ks, Starts (.bistRun c ks) c s →
       let u := begun (.bistRun c ks) c s
       exec (.bistRun c ks) s = .next
         (if bistBusy u ∨ ∃ k ∈ maskBits ks 8, keelStaged s k = true then errorAt u c 0x0211 []
          else acceptedAt u c [] (.bist ks))) ∧
     (∀ (p : Nat) (q : Spool) (o : OutCmd) (ks : Nat) (failed : List Nat), s.spools = [(p, q)] → q.out = [o] →
       o.job = .bist ks → (∀ k ∈ failed, k < 8) →
       let bad := (List.range 8).filter fun k => bitOf ks k && failed.contains k
       exec (.bistRunDone failed) s = .next
         (finish s p o.seq (if bad = [] then 0 else 0x0504) (toLe 1 ((bad.map fun k => 2 ^ k).sum))))) ∧
  ((∀ (p : Nat) (dev : List (List Charges)) (s : State), panelOk p = true →
     let fails := fun n => ∃ img, testImageOf s n = some img ∧ ∃ i, i < 4 ∧
       let codes := testCodes s n i
       let red := (s.tileAt n).red
       let terms := productTerms img.1 red codes (integrated img.1 red img.2 codes ((dev.getD (n % 8) []).getD i []))
       ¬ (checkPasses (opt s oTileCheckTol) img.1 (checkDiffs (s.panelAt p) n img.2 codes terms) = true ∧
         (spotResult s n img.1 img.2 codes terms).1 = true)
     let wanted := (asked s fun j => j == .testPanel p) = true ∨
       (opt s oFieldTests = 1 ∧ nextTestPanel s (panelKeel p) = some p ∧ failingCores s (panelKeel p) = [])
     (¬ wanted ∨ panelUnder s p = true ∨ ¬ slotFor s 8 (panelOp 8 p) → exec (.panelFieldTest p dev) s = .next s) ∧
     (wanted → panelUnder s p = false → slotFor s 8 (panelOp 8 p) →
       ∃ t, exec (.panelFieldTest p dev) s = .next t ∧ t.chk.testRuns = satAdd 16 s.chk.testRuns 1 ∧
         ((∀ n, n / 8 = p → ¬ fails n) → t.chk.testFails = satAdd 16 s.chk.testFails 0 ∧
           ∀ n, (t.tileAt n).suspect = (s.tileAt n).suspect) ∧
         (∀ n, n / 8 = p → fails n → (∀ j, j / 8 = p → j < n → ¬ fails j) →
           t.chk.testFails = satAdd 16 s.chk.testFails 1 ∧ (t.tileAt n).suspect = true ∧
           ∃ r, t.chk.log.getLast? = some r ∧ r.kind = 0x0017 ∧ r.location = n) ∧
         t.models = s.models ∧ t.sessions = s.sessions)) ∧
   (∀ (c : Nat) (pass : Bool) (s : State), c < 8192 →
     let fs := failingCores s (c / 1024)
     let due := if fs = [] then opt s oFieldTests = 1 ∧ s.chk.coreNext.get 0 (c / 1024) = c % 1024 else c ∈ fs
     let wanted := due ∨ (asked s fun j => j == .testCore c) = true
     (¬ wanted ∨ stackStopped s (c / 1024) = true → exec (.coreFieldTest c pass) s = .next s) ∧
     (wanted → stackStopped s (c / 1024) = false →
       ∃ t, exec (.coreFieldTest c pass) s = .next t ∧ t.chk.testRuns = satAdd 16 s.chk.testRuns 1 ∧
         t.chk.testFails = satAdd 16 s.chk.testFails (if pass then 0 else 1) ∧ c ∉ t.chk.failing ∧ t.arr = s.arr ∧
         t.models = s.models ∧ t.sessions = s.sessions ∧
         (pass = true → t.chk.log = s.chk.log) ∧
         (pass = false → ∃ r, t.chk.log.getLast? = some r ∧ r.kind = 0x0017 ∧ r.location = c))))

/-- FAULT_READ writes the records from FIRST, or from the oldest held where FIRST is older, and answers how many and
the next index (R463; "older" log 30); EXPOSURE_READ those that name the panel (R449); CAPTURE_READ the kept codes or
0 (R435). A fault record takes the next index and goes after those held; in a full log of 16,384 the oldest gives way, and
nothing else changes (R460, R461).
ADC_READ writes two bytes of each channel named, ascending; SUPPLY_STATUS answers the input in use, which inputs are
good, both voltages, the last scan's power and the switches (R421, R529). -/
def Obligations.LogReads : Prop :=
  (∀ (c : Cmd) (s : State),
     (∀ a f n, Starts (.faultRead c a f n) c s →
       let start := faultStart s f
       let rs := (s.chk.log.drop ((start + 2 ^ 32 - oldestFault s) % 2 ^ 32)).take n
       exec (.faultRead c a f n) s = .next (outputAt (begun (.faultRead c a f n) c s) c a (rs.flatMap faultBytes)
         (toLe 4 rs.length ++ toLe 4 ((start + rs.length) % 2 ^ 32)))) ∧
     (∀ p n a, Starts (.exposureRead c p n a) c s →
       let u := begun (.exposureRead c p n a) c s
       exec (.exposureRead c p n a) s = .next (outputAt u c a (((exposureOf u p).take n).flatMap expBytes)
         (toLe 4 ((exposureOf u p).take n).length)) ∧
       ∀ r ∈ exposureOf u p, (s.panelAt p).good.toNat < r.tick.toNat) ∧
     (∀ t a, Starts (.captureRead c t a) c s →
       (s.chk.captures.find t = none →
         exec (.captureRead c t a) s = .next (doneAt (begun (.captureRead c t a) c s) c [0])) ∧
       (∀ k, s.chk.captures.find t = some k → exec (.captureRead c t a) s = .next
         (outputAt (begun (.captureRead c t a) c s) c a ((List.range 1024).map fun r => BitVec.ofInt 8 (k.codes.getD r 0)) [1])))) ∧
  (∀ (s : State) (kind src : Nat) (rec_ : Bool) (loc : Nat) (h p : W32) (d : Nat),
     let t := faultRecord s kind src rec_ loc h p d
     t.chk.log.getLast? = some { index := s.chk.next, kind := kind, source := src, recovered := rec_, tick := s.tick.count,
                                 location := loc, session := h, position := p, detail := d } ∧
     (s.chk.log.length < 16384 → t.chk.log.take s.chk.log.length = s.chk.log ∧ t.chk.log.length = s.chk.log.length + 1) ∧
     (s.chk.log.length = 16384 → t.chk.log.take 16383 = s.chk.log.tail ∧ t.chk.log.length = 16384) ∧
     t.chk.next = (s.chk.next + 1) % 2 ^ 32 ∧ t = { s with chk := { s.chk with log := t.chk.log, next := t.chk.next } }) ∧
  ((∀ (c : Cmd) (ch a : Nat) (s : State), Starts (.adcRead c ch a) c s →
     exec (.adcRead c ch a) s = .next (outputAt (begun (.adcRead c ch a) c s) c a
       ((maskBits ch 64).flatMap fun k =>
         let x := s.adc.chans.get AdcChan.init k
         toLe 2 (x.code + (if x.highHit then 4096 else 0) + (if x.lowHit then 8192 else 0) + (if x.opened then 16384 else 0) +
           (if x.valid then 32768 else 0))) [])) ∧
   (∀ (c : Cmd) (s : State), Starts (.supplyStatus c) c s →
     exec (.supplyStatus c) s = .next (doneAt (begun (.supplyStatus c) c s) c
       (toLe 1 (if s.supply.backup then 1 else 0) ++
         toLe 1 ((if s.supply.mainGood then 1 else 0) + 2 * (if s.supply.backupGood then 1 else 0)) ++
         toLe 2 s.supply.mainV ++ toLe 2 s.supply.backupV ++ toLe 2 s.supply.pLast ++ toLe 4 s.supply.switches))))

/-- ATTEST whose buffer has room replies ACCEPTED and is measured at the next edge; a LIMIT below the report's length
gives that length. ATTEST_REPORT_DONE writes the finished report, to host memory or to the module's own DRAM in the HDM range,
and ends it, with HOST_FAULT where the write to the host failed; before the measurement it does nothing (R386, R473, R557,
R558). KEY_INFO writes the key block (R556). -/
def Obligations.AttestKeys : Prop :=
  (∀ (c : Cmd) (a lim : Nat) (n : List Byte) (s : State), Starts (.attest c a lim n) c s →
    let u := begun (.attest c a lim n) c s
    exec (.attest c a lim n) s = .next
      (if lim < reportLength s then errorAt u c 0x0114 (toLe 8 (reportLength s))
       else acceptedAt (atEdge u [.attest c.spool c.seq]) c [] (.attest a n []))) ∧
  (∀ (s : State) (p : Nat) (q : Spool) (o : OutCmd) (a : Nat) (n r : List Byte) (b : Byte), s.spools = [(p, q)] →
    q.out = [o] → o.job = .attest a n (b :: r) →
    (hdmOffset s a (b :: r).length = none →
      exec (.attestReportDone true) s = .next (finish (hostWrite s a (b :: r)) p o.seq 0 (toLe 4 (b :: r).length)) ∧
      exec (.attestReportDone false) s = .next (finish s p o.seq 0x0501 [])) ∧
    (∀ w ok, hdmOffset s a (b :: r).length = some w →
      let v := takeLines s w (b :: r).length (outIo o).back
      exec (.attestReportDone ok) s = .next (finish
        { v with kv := { v.kv with dram := windowWrite s w (b :: r) v.kv.dram } } p o.seq 0 (toLe 4 (b :: r).length)))) ∧
  (∀ (s : State) (p : Nat) (q : Spool) (o : OutCmd) (a : Nat) (n : List Byte), s.spools = [(p, q)] → q.out = [o] →
    o.job = .attest a n [] → ∀ ok, exec (.attestReportDone ok) s = .next s) ∧
  (∀ (c : Cmd) (a : Nat) (s : State), Starts (.keyInfo c a) c s →
    exec (.keyInfo c a) s = .next (outputAt (begun (.keyInfo c a) c s) c a (keyBlock s) []))

/-! The work of the pipeline. -/

/-- R54: with true counts in place of codes, I equals the exact dot product of the 1,024 A8 codes with the 1,024
weight values of the column. The plane terms and the fold are those of its table. -/
def Obligations.FoldExact : Prop :=
  (∀ c1 c0 sk : Int, planeTerm 0 c1 c0 sk = 4 * c1 + 2 * c0 - 3 * sk ∧ planeTerm 1 c1 c0 sk = c1 - c0 ∧
    planeTerm 2 c1 c0 sk = 2 * c1 - sk) ∧
  (∀ t : Nat → Int, foldBlock ((List.range 8).map t) =
    t 0 + 2 * t 1 + 4 * t 2 + 8 * t 3 + 16 * t 4 + 32 * t 5 + 64 * t 6 - 128 * t 7) ∧
  ∀ (fmt : Nat) (codes : List Int) (b1 b0 : Nat → Bool), fmt < 3 → codes.length = 1024 →
    (∀ x ∈ codes, -128 ≤ x ∧ x ≤ 127) →
    let count := fun (b : Nat → Bool) (k : Nat) => (List.range 1024).countP fun r => planeBit (codes.getD r 0) k && b r
    foldBlock ((List.range 8).map fun k => planeTerm fmt (count b1 k) (count b0 k) (bitSum codes k)) =
      ((List.range 1024).map fun r => codes.getD r 0 * weightVal fmt (b1 r) (b0 r)).sum

/-- R55: for any codes from 0 to 511 and any bit sums from 0 to 1,024 each plane term, each block result and each
intermediate value of the fold stays in its range, far inside the 40 bits of the accumulator; with true counts a W2
block result stays within 393,216. A block result's magnitude is below 2^24, and its FP32 is exact. -/
def Obligations.FoldRange : Prop :=
  (∀ (fmt : Nat) (c1 c0 sk : Nat → Nat), fmt < 3 → (∀ k, c1 k ≤ 511 ∧ c0 k ≤ 511 ∧ sk k ≤ 1024) →
    let t := fun k => planeTerm fmt (c1 k) (c0 k) (sk k)
    let i := foldBlock ((List.range 8).map t)
    (∀ k, (fmt = 0 → -3072 ≤ t k ∧ t k ≤ 3066) ∧ (fmt = 1 → -511 ≤ t k ∧ t k ≤ 511) ∧
      (fmt = 2 → -1024 ≤ t k ∧ t k ≤ 1022)) ∧
    (fmt = 0 → -782592 ≤ i ∧ i ≤ 782598) ∧ (fmt = 1 → -130305 ≤ i ∧ i ≤ 130305) ∧
    (fmt = 2 → -260864 ≤ i ∧ i ≤ 260866) ∧
    (∀ j, j ≤ 8 → -(2 ^ 39) ≤ ((List.range j).map fun k => planeGain k * t k).sum ∧
      ((List.range j).map fun k => planeGain k * t k).sum ≤ 2 ^ 39 - 1) ∧
    i.natAbs < 2 ^ 24 ∧ ∃ s m n, fv (f32OfI i) = .fin s m (-(n : Nat) : Int) ∧ sgn s m = i * 2 ^ n) ∧
  ∀ (codes : List Int) (b1 b0 : Nat → Bool), codes.length = 1024 → (∀ x ∈ codes, -128 ≤ x ∧ x ≤ 127) →
    let count := fun (b : Nat → Bool) (k : Nat) => (List.range 1024).countP fun r => planeBit (codes.getD r 0) k && b r
    (foldBlock ((List.range 8).map fun k => planeTerm 0 (count b1 k) (count b0 k) (bitSum codes k))).natAbs ≤ 393216

/-- TILE_PRODUCT of a fresh block on a tile that may run: the columns integrate the gated 1-cells of the tile's record with the
charges' deviations, and the converters give the codes; more OVR bits than CHECK_SAT_LIMIT ask for a replay; a product whose
checksum passes (or whose check-store words fail) gives its block values, done or waiting for the spot check of R436 and R442;
one that fails is repeated, or on a pattern-suspect tile goes to wide mode at rank 2. Otherwise nothing (R32, R52, R56, R71,
R428–R436). PRODUCT_REPEAT uses the no-clip scale: passing, the block's values come from it; failing, the block goes to wide
mode at rank 2 and the tile is pattern-suspect; saturating, it asks for a split replay (R130–R132, R431–R434). SPLIT_REPLAY
adds the folds of the two halves; a half that fails its check sends the block to wide mode at rank 2, the low one before the
second product runs, and one that saturates at rank 3 (R131, R134). A block of a masked entry asks for no wide mode (R137). A repeat or replay takes panel time that the packer left (R432): where there
is none it does not run, and wide mode serves the block. -/
def Obligations.TileProducts : Prop :=
  (∀ (k : BlockKey) (dev : Charges) (bad : List Nat) (s : State),
     (findBlk s k = none → exec (.tileProduct k dev bad) s = .next s) ∧
     (∀ w, findBlk s k = some w →
       let x := s.tileAt w.b.phys
       let p := s.panelAt (w.b.phys / 8)
       let fmt := blkFormat w
       let ch := integrated fmt x.red (blkRecord w) w.q.codes dev
       let terms := productTerms fmt x.red w.q.codes ch
       let words := !bad.isEmpty || x.csRecord
       let pass := checkPasses (opt s oTileCheckTol) fmt (checkDiffs p w.b.phys (blkRecord w) w.q.codes terms)
       let wide2 := if w.entry.masked then BlockSt.done else .wide 2
       (w.b.st ≠ .fresh ∨ tileRuns s w.b.phys = false → exec (.tileProduct k dev bad) s = .next s) ∧
       (w.b.st = .fresh → tileRuns s w.b.phys = true → ∃ t, exec (.tileProduct k dev bad) s = .next t ∧ onlyWork s t ∧
         otherWork s t k.entry k.pos ∧ (t.keelCtr w.keel).productsNow = satAdd 32 (s.keelCtr w.keel).productsNow 1 ∧
         (opt s oCheckSatLimit < ovrCount fmt x.red ch →
           blockAt t k = some { w.b with st := .needSplit false, edge := s.tick.edges }) ∧
         (ovrCount fmt x.red ch ≤ opt s oCheckSatLimit → words = true ∨ pass = true →
           blockAt t k = some { w.b with
             st := passedSt s w.b.phys words, src := x.holds, codes := w.q.codes, sa := w.q.sa, terms := terms,
             vals := blockValues p w.b.phys (blkRecord w) (foldAll terms) w.q.sa,
             flags := if w.q.clip then flClipped else 0, edge := s.tick.edges, spotNo := s.pipe.nextSpot } ∧
           t.entry k.entry = some { w.entry with
             arith := w.entry.arith ||| blockFlags p w.b.phys (blkRecord w) (foldAll terms) w.q.sa }) ∧
         (ovrCount fmt x.red ch ≤ opt s oCheckSatLimit → words = false → pass = false →
           blockAt t k = some { w.b with st := if x.suspect then wide2 else .needRepeat, edge := s.tick.edges } ∧
           t.chk.fails = satAdd 32 s.chk.fails 1)))) ∧
  ((∀ (k : BlockKey) (dev : Charges) (bad : List Nat) (s : State) (w : Blk), findBlk s k = some w →
     let x := s.tileAt w.b.phys
     let p := s.panelAt (w.b.phys / 8)
     let fmt := blkFormat w
     let codes := replayCodes s w
     let ch := integrated fmt x.red (blkRecord w) codes dev
     let terms := productTerms fmt x.red codes ch
     let words := !bad.isEmpty || x.csRecord
     let pass := checkPasses (opt s oTileCheckTol) fmt (checkDiffs p w.b.phys (blkRecord w) codes terms)
     let room := tileRuns s w.b.phys = true ∧ repeatRoom s w.b.phys 1 = true
     (w.b.st ≠ .needRepeat ∨ ¬ room → exec (.productRepeat k dev bad) s = .next s) ∧
     (w.b.st = .needRepeat → room →
     ∃ t, exec (.productRepeat k dev bad) s = .next t ∧ onlyWork s t ∧ otherWork s t k.entry k.pos ∧
       t.pipe.dieUsed.get 0 (w.b.phys / 16384) = s.pipe.dieUsed.get 0 (w.b.phys / 16384) + 1 ∧
       (t.keelCtr w.keel).productsNow = satAdd 32 (s.keelCtr w.keel).productsNow 1 ∧
       (opt s oCheckSatLimit < ovrCount fmt x.red ch → blockAt t k = some { w.b with st := .needSplit true }) ∧
       (ovrCount fmt x.red ch ≤ opt s oCheckSatLimit → words = true ∨ pass = true →
         blockAt t k = some { w.b with
           st := passedSt s w.b.phys words, src := x.holds, codes := codes, sa := w.q.noClip, terms := terms,
           vals := blockValues p w.b.phys (blkRecord w) (foldAll terms) w.q.noClip, flags := 0, edge := s.tick.edges,
           spotNo := s.pipe.nextSpot } ∧
         t.chk.transients = (if words then s.chk.transients else satAdd 32 s.chk.transients 1)) ∧
       (ovrCount fmt x.red ch ≤ opt s oCheckSatLimit → words = false → pass = false →
         blockAt t k = some { w.b with st := if w.entry.masked then .done else .wide 2, edge := s.tick.edges } ∧
         (t.tileAt w.b.phys).suspect = true ∧ t.chk.replays = satAdd 32 s.chk.replays 1))) ∧
   (∀ (k : BlockKey) (lo hi : Charges) (bad : List Nat) (s : State) (w : Blk), findBlk s k = some w →
     let room := tileRuns s w.b.phys = true ∧ repeatRoom s w.b.phys 2 = true
     ((∀ si, w.b.st ≠ .needSplit si) ∨ ¬ room → exec (.splitReplay k lo hi bad) s = .next s) ∧
     (∀ si, w.b.st = .needSplit si → room →
     let x := s.tileAt w.b.phys
     let p := s.panelAt (w.b.phys / 8)
     let fmt := blkFormat w
     let codes := replayCodes s w
     let low := integrated fmt x.red (blkRecord w) (halfCodes codes false) lo
     let high := integrated fmt x.red (blkRecord w) (halfCodes codes true) hi
     let tl := productTerms fmt x.red (halfCodes codes false) low
     let th := productTerms fmt x.red (halfCodes codes true) high
     let words := x.csRecord || !bad.isEmpty
     let lowWords := x.csRecord || bad.any fun r => decide (r < 512)
     let sl := decide (opt s oCheckSatLimit < ovrCount fmt x.red low)
     let sh := decide (opt s oCheckSatLimit < ovrCount fmt x.red high)
     let pl := checkPasses (opt s oTileCheckTol) fmt (checkDiffs p w.b.phys (blkRecord w) (halfCodes codes false) tl)
     let ph := checkPasses (opt s oTileCheckTol) fmt (checkDiffs p w.b.phys (blkRecord w) (halfCodes codes true) th)
     let failLow := lowWords = false ∧ sl = false ∧ pl = false
     let failHigh := ¬ failLow ∧ words = false ∧ sh = false ∧ ph = false
     let once := satAdd 32 (s.keelCtr w.keel).productsNow 1
     ∃ t, exec (.splitReplay k lo hi bad) s = .next t ∧ onlyWork s t ∧ otherWork s t k.entry k.pos ∧
       (t.keelCtr w.keel).splits = satAdd 32 (s.keelCtr w.keel).splits 1 ∧
       (failLow → (t.keelCtr w.keel).productsNow = once) ∧ (¬ failLow → (t.keelCtr w.keel).productsNow = satAdd 32 once 1) ∧
       (failLow ∨ failHigh → t.chk.fails = satAdd 32 s.chk.fails 1 ∧
         blockAt t k = some { w.b with st := if w.entry.masked then .done else .wide 2, edge := s.tick.edges }) ∧
       (¬ failLow → ¬ failHigh → sl = true ∨ sh = true →
         blockAt t k = some { w.b with st := if w.entry.masked then .done else .wide 3, edge := s.tick.edges }) ∧
       (¬ failLow → ¬ failHigh → sl = false → sh = false → blockAt t k = some { w.b with
         st := passedSt s w.b.phys words, src := x.holds, codes := codes, sa := w.q.noClip, terms := addTerms tl th,
         vals := blockValues p w.b.phys (blkRecord w) (List.zipWith (· + ·) (foldAll tl) (foldAll th)) w.q.noClip,
         flags := flSplit, edge := s.tick.edges, spotNo := s.pipe.nextSpot }))) ∧
   (∀ (k : BlockKey) (i : Instr) (s : State), (∃ dev bad, i = .productRepeat k dev bad) ∨
       (∃ lo hi bad, i = .splitReplay k lo hi bad) → findBlk s k = none → exec i s = .next s))

/-- The tail path. WIDE_MODE_BLOCK gives the first request within WIDE_BUDGET its values from the master copy, and
takes over the block's outlier rows. OUTLIER_ROW adds the terms of the block's next slotted row, the weight scale after the
last, charged once for all it costs, those carried from an earlier tick first (R126–R128, R132–R134). DELTA_SECTION forms the
delta accumulator of a matrix with the draws of the entry's session, charged one segment for every 1,024 non-zeros begun, a
section carried from an earlier tick first (R141, R277, R278). A row whose turn it is not, or that finds no room, has no
effect, and neither has one of a masked entry. That a row is charged once for all the column blocks it feeds, when the first of
its tiles forms its terms, and that one without room or that cannot be served holds back no later one, is the model's choice
(log 75). -/
def Obligations.TailPath : Prop :=
  (∀ (k : BlockKey) (s : State),
    (findBlk s k = none → exec (.wideModeBlock k) s = .next s ∧ ∀ n, exec (.outlierRow k n) s = .next s) ∧
    (∀ w, findBlk s k = some w →
      let mine := w.entry.masked = false ∧ (wideRank s w.b).isSome = true ∧ (s.keelCtr w.keel).wideUsed < opt s oWideBudget ∧
        servable s w.entry w.key.pos w.b = true ∧ wideFirst s w = true
      (mine → ∃ t, exec (.wideModeBlock k) s = .next t ∧ otherWork s t k.entry k.pos ∧
        blockAt t k = some { w.b with
          st := .done, wide := true, vals := wideValues (blkFormat w) (blkRecord w) (blkInput s w), rows := [],
          outl := none, flags := flWide } ∧
        (t.keelCtr w.keel).wideUsed = (s.keelCtr w.keel).wideUsed + 1 ∧ t = { s with pipe := t.pipe }) ∧
      (¬ mine → exec (.wideModeBlock k) s = .next s) ∧
      (w.b.rows = [] → ∀ n, exec (.outlierRow k n) s = .next s) ∧
      (∀ r rest, w.b.rows = r :: rest →
        let turn := w.entry.masked = false ∧ rowRoom s w.keel w.entry w.key.pos w.b = true ∧
          servable s w.entry w.key.pos w.b = true ∧ rowFirst s w = true
        let terms := (List.range 1024).map fun c =>
          fmul ((blkInput s w).getD r 0) (f32OfI (rowWeight (blkFormat w) (imageRow (blkRecord w) r) c))
        let sums := match w.b.outl with
          | none => terms
          | some l => List.zipWith fadd l terms
        let out := if rest = [] then
            (List.range 1024).map fun c => fmul (sums.getD c 0) (f16ToF32 (tileScale (blkRecord w) c))
          else sums
        (turn → ∃ t, exec (.outlierRow k r) s = .next t ∧ blockAt t k = some { w.b with rows := rest, outl := some out } ∧
          (t.keelCtr w.keel).tailUsed = (s.keelCtr w.keel).tailUsed +
            (if w.q.charged.contains r then 0 else rowCost w.sect w.key.layer (rolePoint w.key.role)) ∧
          otherWork s t k.entry k.pos ∧ t = { s with pipe := t.pipe }) ∧
        (¬ turn → exec (.outlierRow k r) s = .next s) ∧ (∀ n, n ≠ r → exec (.outlierRow k n) s = .next s)))) ∧
  (∀ (id pos l m : Nat) (s : State),
    (liveEntry s id = none → exec (.deltaSection id pos l m) s = .next s) ∧
    (∀ e r, liveEntry s id = some (e, r) →
      (e.masked = true ∨ deltaFor s e l m = none ∨
          pointInput (entrySection s e l) (entryHidden s e) (s.ctxAt id pos) l (rolePoint m) = none →
        exec (.deltaSection id pos l m) s = .next s) ∧
      (∀ b d v, deltaFor s e l m = some (b, d) →
        pointInput (entrySection s e l) (entryHidden s e) (s.ctxAt id pos) l (rolePoint m) = some v →
        let c := s.ctxAt id pos
        let turn := e.masked = false ∧ deltaWaits s e pos c l m = true ∧ (s.keelCtr r.keel).deltaUsed + ceilDiv d.count 1024 ≤ opt s oDeltaBudget ∧
          deltaFirst s r.keel (deltaKey s e pos c l m) = true
        (turn → ∃ t, exec (.deltaSection id pos l m) s = .next t ∧
          (t.ctxAt id pos).deltas.find (8 * l + m) =
            some (deltaAccum (srSeed (2 + m) l e.handle pos) v (roleDesc (entrySection s e l) m).outW (deltaEntries b d)) ∧
          (t.keelCtr r.keel).deltaUsed = (s.keelCtr r.keel).deltaUsed + ceilDiv d.count 1024 ∧ otherWork s t id pos ∧
          t = { s with pipe := t.pipe }) ∧
        (¬ turn → exec (.deltaSection id pos l m) s = .next s))))

/-- SPOT_CHECK of a block that waits for one, finds capacity and has its turn: passing, the block is done and its panel good
from the edge that seals the tick; failing, the block goes to wide mode at rank 2, unless its entry is masked, and the panel
has failed. The check of a product whose entry has gone is made in the same way (R137, R443, R444, R446). SPOT_CHECK_DUE marks
a panel SPOT_PERIOD − 2 ticks after its last good check (R445). RESIDUE_RERUN: the attempts that fail are those whose result's residue
is not that of its operands' sum or product mod 15, each of another unit; they are counted and recorded, and after three the work of
the position waits for the next tick, its entry slips and the cores are to be tested (R437, R438). DRAM_LINE_FAIL: a line whose
burst passes its CRC-16 at once, or on the re-read, which counts as transient, fails no more; one that fails again counts as
persistent, is recorded once until it passes, and what read it slips and waits or is made again, a recalibration is abandoned, a
master-copy line is rebuilt, or with a second failing line of its group its record is lost. SRAM_PARITY of a word that fails its
parity counts and is recorded; of a correction the panel runs no product until it is recalibrated, a weight scale is read again if
its record may be, of a buffer the entry slips (R77, R298, R439–R441; logs 131 and 134). -/
def Obligations.Checking : Prop :=
  ((∀ (k : BlockKey) (s : State), s.pipe.spots.find? (fun h => h.key == k) = none →
     (findBlk s k = none → exec (.spotCheck k) s = .next s) ∧
     (∀ w, findBlk s k = some w →
       ((∀ cls, w.b.st ≠ .spot cls) → exec (.spotCheck k) s = .next s) ∧
       (∀ cls, w.b.st = .spot cls →
         let r := spotResult s w.b.phys (blkFormat w) (blkRecord w) w.b.codes w.b.terms
         let turn := fun f => spotTurn s w.keel f (spotKey s cls w.b.edge w.b.spotNo) = true ∧ masterOk s w = true ∧
           tailStuck s k.entry k.pos = false
         (spotRoom s w.keel cls = none → exec (.spotCheck k) s = .next s) ∧
         (∀ f, spotRoom s w.keel cls = some f →
           (¬ turn f → exec (.spotCheck k) s = .next s) ∧
           (turn f → ∃ t, exec (.spotCheck k) s = .next t ∧ onlyWork s t ∧ t.chk.spots = satAdd 32 s.chk.spots 1 ∧
             otherWork s t k.entry k.pos ∧
             (r.1 = true → blockAt t k = some { w.b with st := .done } ∧
               t.panelAt (w.b.phys / 8) = { s.panelAt (w.b.phys / 8) with
                 good := s.tick.count + 1, goodEdge := s.tick.edges + 1, failed := false, overflow := false,
                 fullRaised := false, spotDue := false }) ∧
             (r.1 = false →
               blockAt t k = some { w.b with st := if w.entry.masked then .done else .wide 2, edge := s.tick.edges } ∧
               (t.panelAt (w.b.phys / 8)).failed = true ∧ (t.tileAt w.b.phys).suspect = true ∧
               t.chk.spotFails = satAdd 32 s.chk.spotFails 1 ∧
               t.chk.replays = (if (s.tileAt w.b.phys).suspect = true ∧ w.entry.masked = false then satAdd 32 s.chk.replays 1
                 else s.chk.replays) ∧
               ∃ x, t.chk.log.getLast? = some x ∧ x.kind = 0x0013 ∧ x.location = w.b.phys ∧ x.detail = r.2)))))) ∧
   (∀ (k : BlockKey) (s : State) (h : HeldSpot), s.pipe.spots.find? (fun h => h.key == k) = some h →
     let keel := tileKeel h.phys
     let r := spotResult s h.phys (srcFormat s h.src) (srcRecord s h.src) h.codes h.terms
     let turn := fun f => spotTurn s keel f (spotKey s h.cls h.edge h.no) = true ∧ sourceLost s h.src = false
     (spotRoom s keel h.cls = none → exec (.spotCheck k) s = .next s) ∧
     (∀ f, spotRoom s keel h.cls = some f →
       (¬ turn f → exec (.spotCheck k) s = .next s) ∧
       (turn f → ∃ t, exec (.spotCheck k) s = .next t ∧ onlyWork s t ∧ t.chk.spots = satAdd 32 s.chk.spots 1 ∧
         t.pipe.spots = s.pipe.spots.filter (fun x => x.key != k) ∧ t.pipe.ctx = s.pipe.ctx ∧
         (t.panelAt (h.phys / 8)).failed = !r.1 ∧
         (r.1 = false → (t.tileAt h.phys).suspect = true ∧ t.chk.spotFails = satAdd 32 s.chk.spotFails 1)))) ∧
   (∀ (p : Nat) (s : State), panelOk p = true →
     let due := panelHolds s p = true ∧ (s.panelAt p).goodEdge + opt s oSpotPeriod ≤ s.tick.edges + 2
     (due → ∃ t, exec (.spotCheckDue p) s = .next t ∧
       t.panelAt p = { s.panelAt p with spotDue := true } ∧ (∀ q, q ≠ p → t.panelAt q = s.panelAt q) ∧
       t = { s with arr := { s.arr with panels := t.arr.panels } }) ∧
     (¬ due → exec (.spotCheckDue p) s = .next s)) ∧
   (∀ (k : Nat) (tail : Bool) (tries : List ResidueTry) (id pos : Nat) (s : State),
     (Instr.residueRerun k tail tries id pos).wf = true →
     let bad := failedTries 3 [] tries
     (bad.length ≤ 3 ∧ (bad.map ResidueTry.unit).Nodup ∧ ∀ x ∈ bad, x ∈ tries ∧
       (x.result - if x.mul then x.x * x.y else x.x + x.y) % 15 ≠ 0) ∧
     (s.entry id = none → exec (.residueRerun k tail tries id pos) s = .next s) ∧
     (∀ e, s.entry id = some e →
       ∃ t, exec (.residueRerun k tail tries id pos) s = .next t ∧ t.chk.residue = satAdd 32 s.chk.residue bad.length ∧
         (bad.length < 3 → t.pipe = s.pipe ∧ t.chk.failing = s.chk.failing) ∧
         (bad.length = 3 → t.entry id = some { e with late := max e.late 1 } ∧
           (if tail then tailStuck t id pos else coreStuck t id pos) = true ∧
           ∀ u, u ∈ t.chk.failing ↔ u ∈ s.chk.failing ∨ (tail = false ∧ ∃ x ∈ bad, u = unitNumber k false x.unit)) ∧
         (∀ x, bad.getLast? = some x → ∃ r, t.chk.log.getLast? = some r ∧ r.kind = 0x0014 ∧ r.detail = bad.length ∧
           r.location = unitNumber k tail x.unit ∧ r.session = e.handle ∧ r.recovered = decide (bad.length < 3)) ∧
         t = { s with pipe := t.pipe, chk := t.chk }))) ∧
  ((∀ (k off : Nat) (r : DramRegion) (first reread : Burst) (s : State), (Instr.dramLineFail k r off first reread).wf = true →
     let line := (k, off / 64)
     let go := exec (.dramLineFail k r off first reread) s
     let recorded := fun t : State => (line ∈ s.chk.badLines → t.chk.log = s.chk.log) ∧
       (line ∉ s.chk.badLines → ∃ f, t.chk.log.getLast? = some f ∧ f.kind = 0x0015 ∧ f.location = off / 64)
     (burstOk off first = true → ∃ t, go = .next t ∧ t.cvu = (runStream s k 2 (burstBytes off first)).cvu ∧
       t.chk.dramTransient = s.chk.dramTransient ∧ t.chk.dramPersistent = s.chk.dramPersistent ∧ t.chk.log = s.chk.log ∧
       line ∉ t.chk.badLines ∧ (∀ q, (line.1, line.2, q) ∉ t.chk.badReads) ∧ t = { s with chk := t.chk, cvu := t.cvu }) ∧
     (burstOk off first = false → burstOk off reread = true →
       ∃ t, go = .next t ∧ t.chk.dramTransient = satAdd 16 s.chk.dramTransient 1 ∧ t.chk.log = s.chk.log ∧
         line ∉ t.chk.badLines ∧ (∀ q, (line.1, line.2, q) ∉ t.chk.badReads) ∧ t = { s with chk := t.chk, cvu := t.cvu }) ∧
     (burstOk off first = false → burstOk off reread = false →
       ∃ t, go = .next t ∧ t.chk.dramPersistent = satAdd 16 s.chk.dramPersistent 1 ∧ t.kv = s.kv ∧
       (∀ i, (∃ key, r = .frame key ∧ i = (s.frame key).owner) ∨ (∃ l, r = .frameTable i l) →
         line ∈ t.chk.badLines ∧ recorded t ∧
         (∀ e ∈ t.pipe.entries, e.sess = i → entryKeel s e = some k → 1 ≤ e.late) ∧
         t = { s with chk := t.chk, cvu := t.cvu, pipe := { s.pipe with entries := t.pipe.entries } }) ∧
       (∀ id, r = .scores id ∨ r = .held id ∨ (∃ sect, r = .embedVectors id sect) ∨ r = .adapter id →
         line ∈ t.chk.badLines ∧ recorded t ∧ (∀ e, t.entry id = some e → 1 ≤ e.late) ∧
         t = { s with chk := t.chk, cvu := t.cvu, pipe := t.pipe }) ∧
       (regionWaits r = true → (line.1, line.2, r) ∈ t.chk.badReads) ∧
       (∀ id e pos i, r = .held id → s.entry id = some e → openItem e pos = some i →
         (t.ctxAt id pos).hidden = (s.ctxAt id pos).start ∧
         ∀ b ∈ (t.ctxAt id pos).blocks, b.layer = i.layer → i.kind.covers b.role = false) ∧
       (∀ p, r = .calCounts p → line ∈ t.chk.badLines ∧ recorded t ∧
         (mayRecalibrate s p = false → t.arr = s.arr) ∧
         (mayRecalibrate s p = true → (t.panelAt p).lastAttempt = s.tick.edges ∧ (t.panelAt p).tries = (s.panelAt p).tries + 1 ∧
           (t.panelAt p).o = (s.panelAt p).o ∧ (t.panelAt p).gc = (s.panelAt p).gc ∧ (t.panelAt p).cal = (s.panelAt p).cal)) ∧
       (∀ mi pend sect rec_ ln second, r = .master mi pend sect rec_ ln second → groupSecond ln second = none →
         line ∉ t.chk.badLines ∧ t = { s with chk := t.chk, cvu := t.cvu } ∧
         ∃ f, t.chk.log.getLast? = some f ∧ f.kind = 0x0004 ∧ f.recovered = true ∧ f.location = rec_ ∧ f.detail = ln) ∧
       (∀ mi pend sect rec_ ln second l2 off2, r = .master mi pend sect rec_ ln second →
         groupSecond ln second = some (l2, off2) →
         let m := s.model mi
         let lost := fun m : Model => if pend then m.pendLost else m.lost
         let x := (sectUnit (if pend then (m.pendB.map Prod.fst).getD [] else m.bytes) sect, rec_)
         l2 / 8 = ln / 8 ∧ line ∈ t.chk.badLines ∧ x ∈ lost (t.model mi) ∧ (∀ j, j ≠ mi → t.model j = s.model j) ∧
         (x ∈ lost m → t.models = s.models) ∧
         (x ∉ lost m → ∃ f, t.chk.log.getLast? = some f ∧ f.kind = 0x0005 ∧ f.location = rec_)))) ∧
   (∀ (k word : Nat) (d : W64) (par : Bool) (s : State), k < 8 →
     parityBad d (!par) = (!parityBad d par) ∧
     (∀ c, (Instr.sramParity k word c d par).wf = true → parityBad d par = false →
       exec (.sramParity k word c d par) s = .next s) ∧
     (parityBad d par = true →
     let noted := fun (t : State) (rec_ : Bool) => t.chk.sram = satAdd 32 s.chk.sram 1 ∧
       ∃ f, t.chk.log.getLast? = some f ∧ f.kind = 0x0016 ∧ f.location = word ∧ f.recovered = rec_
     (∀ p, panelOk p = true → ∃ t, exec (.sramParity k word (.correction p) d par) s = .next t ∧ noted t false ∧
       t.panelAt p = { s.panelAt p with corrBad := true, calUrgent := true } ∧ (∀ n, n / 8 = p → tileRuns t n = false) ∧
       (∀ q, q ≠ p → t.panelAt q = s.panelAt q) ∧ t = { s with chk := t.chk, arr := { s.arr with panels := t.arr.panels } }) ∧
     (∀ n, tileOk n = true → ∃ t, exec (.sramParity k word (.weightScale n) d par) s = .next t ∧
       (∀ src, (s.tileAt n).holds = some src → sourceLost s src = true → noted t false ∧ tileRuns t n = false ∧
         t.tileAt n = { s.tileAt n with scaleBad := true } ∧ (∀ m, m ≠ n → t.tileAt m = s.tileAt m)) ∧
       ((∀ src, (s.tileAt n).holds = some src → sourceLost s src = false) → noted t true ∧ t.arr = s.arr) ∧
       t = { s with chk := t.chk, arr := { s.arr with tiles := t.arr.tiles } }) ∧
     (∀ id, ∃ t, exec (.sramParity k word (.buffer id) d par) s = .next t ∧ noted t true ∧
       (∀ e, t.entry id = some e → 1 ≤ e.late) ∧ t = { s with chk := t.chk, pipe := t.pipe }))))

/-- DRAIN, once every block of a matrix is done and its delta is there: a residual connection adds to the hidden
vector, the head's output is the logits, Q and K take their rotary positions, any other output is the matrix's vector;
then the position goes on; before, or on a matrix that has been drained, it has no effect (R62, R145, R292; which matrices
carry ACC_MODE ADD, and how a keel splits a reduction, are the model's, log 99 and log 100). A reduction split into 2, 4 or 8
aligned parts gives the unsplit bits (R144, R147, R148). STEERING_UPDATE scales the hidden vector by group and adds its vector,
once for a layer, after its last residual addition, while its adapter's lines can be read (R274, R440). Neither runs in a tick in
which work of the position has failed three times (R438). -/
def Obligations.DrainSteer : Prop :=
  (∀ (id pos l role : Nat) (s : State),
    (workEntry s id = none → exec (.drain id pos l role) s = .next s ∧ exec (.steeringUpdate id pos l) s = .next s) ∧
    (∀ (e : Entry) (r : StageRec), workEntry s id = some (e, r) →
      let c := s.ctxAt id pos
      let x := entrySection s e l
      let d := roleDesc x role
      let delta := c.deltas.find (8 * l + role)
      let add := role = 3 ∨ role = 6
      let v := reduceMatrix c l role d (if add then some c.hidden else none) delta
      let ready := openFor e pos l role = true ∧ drained c l role = none ∧ matrixReady c l role (matTiles d) = true ∧
        (deltaFor s e l role = none ∨ delta.isSome = true) ∧ coreStuck s id pos = false
      (¬ ready → exec (.drain id pos l role) s = .next s) ∧
      (ready → ∃ y, exec (.drain id pos l role) s = .next (advance y id pos) ∧ v.length = d.outW ∧
        (y.ctxAt id pos).hidden = (if add then v else c.hidden) ∧
        (drained (y.ctxAt id pos) l role).isSome = true ∧
        (role = 7 → (y.ctxAt id pos).logits = v) ∧
        ((role = 0 ∨ role = 1) → drained (y.ctxAt id pos) l role = some (rotate (sRope x) (sDh x) pos v)) ∧
        ((role = 2 ∨ role = 4 ∨ role = 5) → drained (y.ctxAt id pos) l role = some v) ∧
        (∀ j, j ≠ role → drained (y.ctxAt id pos) l j = drained c l j) ∧
        otherWork s y id pos ∧ y = { s with pipe := y.pipe }) ∧
      (∀ b, steerFor s e l = some b →
        let bank := (s.model e.model).bank.get [] (le b 514 2 % 4096)
        let due := openFor e pos l 6 = true ∧ (drained c l 6).isSome = true ∧ c.steered.contains l = false ∧
          adapterBad s e = false ∧ coreStuck s id pos = false
        (¬ due → exec (.steeringUpdate id pos l) s = .next s) ∧
        (due → ∃ y, exec (.steeringUpdate id pos l) s = .next (advance y id pos) ∧
          (y.ctxAt id pos).hidden = ((List.range c.hidden.length).map fun i =>
            fadd (fmul (c.hidden.getD i 0) (f16ToF32 (BitVec.ofNat 16 (le b (2 * (i * 256 / c.hidden.length)) 2))))
              (fmul (f16ToF32 (BitVec.ofNat 16 (le b 512 2))) (bf16ToF32 (BitVec.ofNat 16 (le bank (2 * i) 2))))) ∧
          (y.ctxAt id pos).steered = c.steered ++ [l] ∧ (y.ctxAt id pos).vecs = c.vecs ∧ otherWork s y id pos ∧
          y = { s with pipe := y.pipe })) ∧
      (steerFor s e l = none → exec (.steeringUpdate id pos l) s = .next s))) ∧
  (∀ p d a root : F32, reduceOne none none root = root ∧ reduceOne none (some d) root = fadd d root ∧
    reduceOne (some p) none root = fadd p root ∧ reduceOne (some p) (some a) root = fadd (fadd p a) root) ∧
  (∀ (j k : Nat) (l : List (Option F32)), 1 ≤ j → j ≤ 3 → l.length ≤ 2 ^ j * 2 ^ k →
    splitTree (List.replicate (2 ^ j - 1) (2 ^ k)) l = tree l)

/-- KV_WRITE puts a position's keys and values in their slot, with a fresh scale for a head of the frame that had none: no
other byte of DRAM changes (in memory of canonical form, which every step keeps, `Obligations.MemoryCanonical`) and the layer counts
as written; then the position goes on. While the entry's earlier positions are not written, the page's copy is pending, or a line of
the frame or its page list fails, it has no effect. FRAME_COPY carries out a pending copy whose lines can be read: the slots in use
are copied and the page names the new frame alone, with the old scales (R202–R205, R231, R440, R566). -/
def Obligations.KvWrites : Prop :=
  (∀ (id pos l : Nat) (s : State),
    (workEntry s id = none → exec (.kvWrite id pos l) s = .next s) ∧
    (∀ (e : Entry) (r : StageRec), workEntry s id = some (e, r) →
      let c := s.ctxAt id pos
      let m := s.model e.model
      let pg := kvPage s e r l pos
      let key := pageFrame s r pg.1
      let at_ := fun i => frameAddr key + ((layerSections m l).getD i (0, 0)).1 + pg.2 * ((layerSections m l).getD i (0, 0)).2
      let fmt := kvFmt m l
      let dh := max 1 (kvShape m l).2
      let hr := opt s oKvHeadroom
      let f := s.frame key
      let heads := fun (set : Nat) (old : List F16) (v : List F32) =>
        if fmt = 2 then (set, old) else headScales fmt dh (kvShape m l).1 hr set old v
      let groups := fun (v : List F32) => (List.range (v.length / 16)).flatMap fun g =>
        toLe 2 (elemScale 2 dh hr [] v (16 * g)).toNat
      (drained c l 1 = none ∨ drained c l 2 = none → exec (.kvWrite id pos l) s = .next s) ∧
      (∀ ks vs, drained c l 1 = some ks → drained c l 2 = some vs →
        let ready := openFor e pos l 1 = true ∧ c.kvDone.contains l = false ∧ (s.page pg.1).copy = false ∧
          (s.page pg.1).valid = true ∧ frameBad s key = false ∧ tableBad s e.sess l = false ∧ coreStuck s id pos = false ∧
          ∀ i, i < pos - e.first → (s.ctxAt id (e.first + i)).kvDone.contains l = true
        let kk := heads f.kSet f.ks ks
        let vv := heads f.vSet f.vs vs
        let kb := packCodes fmt (vectorCodes fmt dh hr kk.2 (srSeed 0 l e.handle pos) ks).1
        let vb := packCodes fmt (vectorCodes fmt dh hr vv.2 (srSeed 1 l e.handle pos) vs).1
        let size := fun i => [kb.length, vb.length, if fmt = 2 then 2 * (ks.length / 16) else 0,
          if fmt = 2 then 2 * (vs.length / 16) else 0].getD i 0
        (¬ ready → exec (.kvWrite id pos l) s = .next s) ∧
        (ready → ∃ y, exec (.kvWrite id pos l) s = .next (advance y id pos) ∧ (y.ctxAt id pos).kvDone = c.kvDone ++ [l] ∧
          (s.kv.dram.wf = true → ∀ a, (∀ i, i < 4 → a < at_ i ∨ at_ i + size i ≤ a) → y.kv.dram.read a = s.kv.dram.read a) ∧
          (s.kv.dram.wf = true → (∀ i j, i < 4 → j < 4 → i ≠ j → at_ i + size i ≤ at_ j ∨ at_ j + size j ≤ at_ i) →
            y.kv.dram.readBytes (at_ 0) kb.length = kb ∧ y.kv.dram.readBytes (at_ 1) vb.length = vb ∧
            (fmt = 2 → y.kv.dram.readBytes (at_ 2) (size 2) = groups ks ∧
              y.kv.dram.readBytes (at_ 3) (size 3) = groups vs)) ∧
          y.frame key = { f with kSet := kk.1, ks := kk.2, vSet := vv.1, vs := vv.2, written := true } ∧
          (∀ n, n ≠ key → y.frame n = s.frame n) ∧ otherWork s y id pos ∧
          y = { s with pipe := y.pipe, kv := { s.kv with frames := y.kv.frames, dram := y.kv.dram } })))) ∧
  (∀ (i l idx : Nat) (draft : Bool) (s : State), i < 65536 →
    let x := s.sess i
    let m := s.model (if draft then (draftOf x).getD 0 else modelOf x)
    let runs := if draft then x.druns else x.runs
    let len := if draft then x.draftLen else x.length
    (layerStage m l = none → exec (.frameCopy i l idx draft) s = .next s) ∧
    (∀ k, (layerStage m l).map StageRec.keel = some k →
      let key := pageAt runs (l, k) idx
      let g := s.page key
      let src := frameKey k g.old
      let dst := frameKey k g.frame
      let due := g.copy = true ∧ g.valid = true ∧ runs.find l ≠ none ∧ copyHeld s i l idx draft = false
      (¬ due → exec (.frameCopy i l idx draft) s = .next s) ∧
      (due → g.old ≠ g.frame → ∃ t, exec (.frameCopy i l idx draft) s = .next t ∧
        t.page key = { g with copy := false, old := 0 } ∧ (∀ n, n ≠ key → t.page n = s.page n) ∧
        t.frame dst = { s.frame dst with kSet := (s.frame src).kSet, vSet := (s.frame src).vSet, ks := (s.frame src).ks,
                                         vs := (s.frame src).vs, written := true } ∧
        t.frame src = { s.frame src with ref := (s.frame src).ref - 1 } ∧
        (∀ n, n ≠ src → n ≠ dst → t.frame n = s.frame n) ∧
        t.kv.dram = copySlots s.kv.dram (frameAddr src) (frameAddr dst)
          (min (layerPpf m l) (len - idx * layerPpf m l)) (layerSections m l) ∧
        t = { s with kv := t.kv })))

/-- The three passes (R209–R211): A gives each head the scores of the shard's keys and their maximum, once for a shard; B,
after every shard's A, the exponentials and their sums over the maximum of all shards; C, after every B, the weighted values,
and with the last shard the attention output, which frees the scores (R213). A pass that is not open, has run or whose keys are
not yet written or not readable has no effect. EXP of a NaN is the quiet NaN; of any other value that of its free function where it lies
within 2 ulp, and otherwise the rounded exponential (R149, R210; log 11). -/
def Obligations.Attention : Prop :=
  (∀ (id pos l n : Nat) (s : State),
    (workEntry s id = none → ∀ i, i = .attnPassA id pos l n ∨ i = .attnPassB id pos l n ∨ i = .attnPassC id pos l n →
      exec i s = .next s) ∧
    (∀ (e : Entry) (r : StageRec), workEntry s id = some (e, r) →
      let c := s.ctxAt id pos
      let x := entrySection s e l
      let keys := shardKeys (c.lens.get 0 l) pos n
      let count := shardCount (c.lens.get 0 l) pos
      let group := max 1 (sHq x / max 1 (sHkv x))
      (drained c l 0 = none → exec (.attnPassA id pos l n) s = .next s) ∧
      (∀ q, drained c l 0 = some q →
        let ready := passOpen e pos l (.passA n) = true ∧ keys ≠ [] ∧ findShard c l n = none ∧ coreStuck s id pos = false ∧
          keysReady s e r l keys = true
        (¬ ready → exec (.attnPassA id pos l n) s = .next s) ∧
        (ready → ∃ y d, exec (.attnPassA id pos l n) s = .next (advance y id pos) ∧
          findShard (y.ctxAt id pos) l n = some d ∧ d.passA = true ∧ d.passB = false ∧ d.passC = false ∧
          d.scores = ((List.range (sHq x)).map fun h => keys.map fun j =>
            fmul (treeSum (List.zipWith fmul ((q.drop (h * sDh x)).take (sDh x)) (readHead s e r l j 0 (h / group))))
              (scoreScale (sDh x))) ∧
          d.maxs = d.scores.map (fun z => z.foldl fmax (z.headD 0)) ∧
          (∀ j, j ≠ n → findShard (y.ctxAt id pos) l j = findShard c l j) ∧
          otherWork s y id pos ∧ y = { s with pipe := y.pipe })) ∧
      (shardsAfter c l count Shard.passA = none ∨ findShard c l n = none → exec (.attnPassB id pos l n) s = .next s) ∧
      (∀ xs d, shardsAfter c l count Shard.passA = some xs → findShard c l n = some d →
        let ready := passOpen e pos l (.passB n) = true ∧ d.passB = false ∧ coreStuck s id pos = false
        (¬ ready → exec (.attnPassB id pos l n) s = .next s) ∧
        (ready → ∃ y b, exec (.attnPassB id pos l n) s = .next (advance y id pos) ∧
          findShard (y.ctxAt id pos) l n = some b ∧ b.passB = true ∧ b.passC = d.passC ∧ b.maxs = d.maxs ∧
          b.scores.length = d.scores.length ∧
          (∀ h, h < d.scores.length →
            b.scores.getD h [] = ((d.scores.getD h []).map fun v => fexp (fsub v (finalMax xs h))) ∧
            b.sums.getD h 0 = treeSum (b.scores.getD h [])) ∧
          (∀ j, j ≠ n → findShard (y.ctxAt id pos) l j = findShard c l j) ∧ otherWork s y id pos ∧
          y = { s with pipe := y.pipe })) ∧
      (shardsAfter c l count Shard.passB = none ∨ findShard c l n = none → exec (.attnPassC id pos l n) s = .next s) ∧
      (∀ xs d, shardsAfter c l count Shard.passB = some xs → findShard c l n = some d →
        let ready := passOpen e pos l (.passC n) = true ∧ d.passC = false ∧ coreStuck s id pos = false ∧
          keysReady s e r l keys = true
        (¬ ready → exec (.attnPassC id pos l n) s = .next s) ∧
        (ready → ∃ y b, exec (.attnPassC id pos l n) s = .next (advance y id pos) ∧
          findShard (y.ctxAt id pos) l n = some b ∧ b.passC = true ∧ b.scores = d.scores ∧
          b.parts = ((List.range (sHq x)).map fun h =>
            let rr := fdiv 0x3F800000#32 (treeSum (xs.map fun w => w.sums.getD h 0))
            let rows := List.zipWith (fun j p => (readHead s e r l j 1 (h / group)).map fun v => fmul (fmul p rr) v)
              keys (d.scores.getD h [])
            (List.range (sDh x)).map fun i => treeSum (rows.map fun row => row.getD i 0)) ∧
          (∀ all, shardsAfter (y.ctxAt id pos) l count Shard.passC = some all →
            drained (y.ctxAt id pos) l 8 = some (attnOutput all (sHq x) (sDh x)) ∧
            ∀ v ∈ y.kv.scores, ¬ (v.entry = id ∧ v.pos = pos ∧ v.layer = l)) ∧
          (∀ j, j ≠ n → findShard (y.ctxAt id pos) l j = findShard c l j) ∧ otherWork s y id pos ∧
          y = { s with pipe := y.pipe, kv := { s.kv with scores := y.kv.scores } })))) ∧
  (∀ v : F32, (fIsNaN v = true → fexp v = qNaN) ∧ (fIsNaN v = false →
    fexp v = if expClose (expReal v) (Config.exp v) then Config.exp v else f32Of false (expReal v) (-256) true))

/-- SAMPLING_JOB gives the entry the token that R259 chooses from its logits, or none where no logit is usable; a draft step
draws output 2, is greedy under GREEDY, and keeps its probability vector (R259, R260, R263). ACCEPTANCE_JOB judges the draft
tokens in turn: at most K are accepted (R264). An entry whose open item is not its sampling, or whose logits are not there, is
left as it is. -/
def Obligations.Sampling : Prop :=
  (∀ (id : Nat) (s : State), workEntry s id = none →
    exec (.samplingJob id) s = .next s ∧ exec (.acceptanceJob id) s = .next s) ∧
  (∀ (id : Nat) (s : State) (e : Entry) (r : StageRec), workEntry s id = some (e, r) →
    let pos := lastPos e
    let lg := (s.ctxAt id pos).logits
    let p := if greedyDraft s e = true then { e.params with temperature := 0 } else e.params
    let ch := choose p (window s e (pos + 1)) lg
    let tok := chosen p (pos + 1) (if e.kind = .draft then 2 else 1) ch
    let ready := (openItem e pos).map Item.kind = some .sampling ∧ e.kind ≠ .verify ∧ lg ≠ [] ∧ coreStuck s id pos = false
    (unusable lg = true → tok = none) ∧
    (¬ ready → exec (.samplingJob id) s = .next s) ∧
    (ready → ∃ y, exec (.samplingJob id) s = .next (advance y id pos) ∧
      y.entry id = some { e with token := tok, noLogit := tok.isNone,
                                 arith := e.arith ||| chooseFlags p (window s e (pos + 1)) lg } ∧
      (∀ j, j ≠ id → y.entry j = s.entry j) ∧
      (e.kind ≠ .draft → y.sessions = s.sessions) ∧
      (e.kind = .draft → (y.sess e.sess).run =
        (s.sess e.sess).run.map fun u => { u with probs := u.probs ++ [probVector lg.length ch] }) ∧
      (∀ j, j ≠ e.sess → y.sess j = s.sess j) ∧
      y = { s with pipe := { s.pipe with entries := y.pipe.entries }, sessions := y.sessions })) ∧
  (∀ (id : Nat) (s : State) (e : Entry) (r : StageRec), workEntry s id = some (e, r) →
    let ready := e.kind = .verify ∧ (openItem e (lastPos e)).map Item.kind = some .sampling ∧
      coreStuck s id (lastPos e) = false ∧ ∀ i, i < e.count → (s.ctxAt id (e.first + i)).logits ≠ []
    ((s.sess e.sess).run = none ∨ ¬ ready → exec (.acceptanceJob id) s = .next s) ∧
    (∀ u, (s.sess e.sess).run = some u → ready →
      let v := judge s e u u.k 0
      v.accepted ≤ u.k ∧
      ∃ y, exec (.acceptanceJob id) s = .next (advance y id (lastPos e)) ∧
        y.entry id = some { e with accepted := v.accepted, token := v.token, noLogit := v.token.isNone, arith := e.arith ||| v.flags } ∧
        (∀ j, j ≠ id → y.entry j = s.entry j) ∧ y = { s with pipe := { s.pipe with entries := y.pipe.entries } }))

/-! Service of the arrays. -/

/-- A service operation without a slot does nothing. REFRESH_HALF: the first half starts, while fewer than 32 tiles of
the die are under refresh; the second completes the refresh, whose age counts from the first. SCRUB_UNIT notes the rows that
mismatch, which are to be rewritten and are kept for the next pass, and marks the unit read; the fourth unit completes the
scrub (R102, R106–R110). The model's choices: a tile whose record in the master copy is lost is scrubbed without it and verifies
nothing (log 128), and a rewritten row that reads back wrong stays due (log 125). Rewrites in their slot: ROW_REWRITE whose
read-back is right takes the row off the list, one that is not leaves it; CHECK_STORE_REWRITE makes the store good;
SUBSTITUTION_WRITE leaves the entries for the seal that ends the tick. What the tile holds stays; nothing is done to a tile
without weights, and nothing is written to one whose record in the master copy is lost (R98, R110, R298, R430). -/
def Obligations.TileService : Prop :=
  (∀ (n : Nat) (s : State), tileOk n = true →
     let x := s.tileAt n
     let half := tileOp 5 n false
     (x.holds = none ∨ ¬ slotFor s 1 half → ∀ h, h < 2 → exec (.refreshHalf n h) s = .next s) ∧
     (x.holds ≠ none → slotFor s 1 half → ∃ t0 t1, exec (.refreshHalf n 0) s = .next t0 ∧ exec (.refreshHalf n 1) s = .next t1 ∧
       onlyTile s t0 n ∧ onlyTile s t1 n ∧
       t0.tileAt n = (if x.half = none ∧ onDieCount (underRefresh s) (n / 16384) < 32 then
         { x with half := some s.tick.time, halfEdge := s.tick.edges } else x) ∧
       t1.tileAt n = (match x.half with
         | none => x
         | some w => { x with half := none, refreshed := w, refreshUrgent := false }))) ∧
  (∀ (n u : Nat) (codes : List (List Nat)) (s : State), tileOk n = true → u < 4 →
     let x := s.tileAt n
     (x.holds = none ∨ bitOf x.units u = true ∨ ¬ slotFor s 2 (tileOp 7 n true) → exec (.scrubUnit n u codes) s = .next s) ∧
     (∀ src, x.holds = some src →
       let lost := sourceLost s src
       let rec_ := if lost then none else some (srcRecord s src)
       let bad := ((List.range 256).filter fun i =>
         rowMismatch x.red rec_ (256 * u + i) (codes.getD i [])).map fun i => 256 * u + i
       let rewr := x.rewrites ++ (bad.filter fun r => !(x.rewrites.any fun w => w.1 == r)).map fun r => (r, s.tick.edges)
       let y := { x with rewrites := rewr, units := setBit x.units u,
                         lastBad := (x.lastBad.filter fun r => r / 256 != u) ++ bad }
       (bitOf x.units u = false → slotFor s 2 (tileOp 7 n true) →
         ∃ t, exec (.scrubUnit n u codes) s = .next t ∧
           t.tileAt n = (if setBit x.units u = 15 then
             { y with units := if rewr.isEmpty || !x.unverified || lost then 0 else 15, lastScrub := s.tick.edges,
                      scrubUrgent := false, late := false, unverified := x.unverified && (lost || !rewr.isEmpty) }
             else y) ∧
           (bad = [] → onlyTile s t n) ∧
           (bad ≠ [] → ∃ f, t.chk.log.getLast? = some f ∧ f.kind = 0x0003 ∧ f.location = n) ∧
           (∀ m, m ≠ n → t.tileAt m = s.tileAt m) ∧
           t = { s with arr := t.arr, chk := t.chk, pipe := { s.pipe with plan := t.pipe.plan } }))) ∧
  (∀ (n : Nat) (s : State), tileOk n = true →
     let x := s.tileAt n
     let mine := ∃ src, x.holds = some src ∧ sourceLost s src = false ∧ slotFor s 4 (tileOp 4 n false)
     (¬ mine → ∀ i, (∃ r g, r < 1024 ∧ i = .rowRewrite n r g) ∨ i = .checkStoreRewrite n ∨ i = .substitutionWrite n →
       exec i s = .next s) ∧
     (∀ r, r < 1024 → r ∉ x.rewrites.map Prod.fst → ∀ g, exec (.rowRewrite n r g) s = .next s) ∧
     (x.csDue = none → exec (.checkStoreRewrite n) s = .next s) ∧
     (x.redWant = none → exec (.substitutionWrite n) s = .next s) ∧
     (mine →
       (∀ r, r < 1024 → r ∈ x.rewrites.map Prod.fst →
         (∃ t, exec (.rowRewrite n r true) s = .next t ∧ onlyTile s t n ∧
           t.tileAt n = rewriteLeft s { x with rewrites := x.rewrites.filter fun w => !(w.1 == r) }) ∧
         ∃ t, exec (.rowRewrite n r false) s = .next t ∧ t.tileAt n = x ∧ onlyTile s t n) ∧
       (∀ e, x.csDue = some e → ∃ t, exec (.checkStoreRewrite n) s = .next t ∧ onlyTile s t n ∧
         t.tileAt n = rewriteLeft s { x with csBad := [], csRecord := false, csDue := none }) ∧
       (∀ es, x.redWant = some es → ∃ t, exec (.substitutionWrite n) s = .next t ∧
         t.tick.acts = s.tick.acts ++ [.substitution n es] ∧
         t.tileAt n = { x with redWant := none } ∧ (∀ m, m ≠ n → t.tileAt m = s.tileAt m) ∧
         t = { s with tick := { s.tick with acts := t.tick.acts }, arr := t.arr,
                      pipe := { s.pipe with plan := t.pipe.plan } })))

/-- A tile is urgent for refresh from 7/8 of its effective interval, for scrub from 7/8 of SCRUB_PERIOD after its last
scrub and its last write; past the whole period SCRUB_LATE is raised once; a rewrite is urgent after 15 ticks. A
panel's turn joins its die's order after CAL_INTERVAL, and it is urgent after twice that. Before, and without weights, each
does nothing (R76, R103, R107, R111, R114). -/
def Obligations.ServiceDue : Prop :=
  (∀ (n : Nat) (s : State), tileOk n = true →
    let x := s.tileAt n
    let held := x.holds.isSome = true
    let age := s.tick.edges - max x.lastScrub x.lastWrite
    (∃ t, exec (.refreshUrgent n) s = .next t ∧ onlyTile s t n ∧ t.tileAt n =
      (if held ∧ 7 * refreshInterval s (n / 16384) ≤ 8 * (s.tick.time - x.refreshed) then { x with refreshUrgent := true }
       else x)) ∧
    (∃ t, exec (.scrubUrgent n) s = .next t ∧ onlyTile s t n ∧ t.tileAt n =
      (if held ∧ 7 * opt s oScrubPeriod < 8 * age then { x with scrubUrgent := true } else x)) ∧
    (∃ t, exec (.scrubLate n) s = .next t ∧ t = { s with arr := t.arr, spools := t.spools } ∧ t.tileAt n =
      (if held ∧ x.late = false ∧ opt s oScrubPeriod < age then { x with late := true } else x) ∧
      (∀ m, m ≠ n → t.tileAt m = s.tileAt m) ∧
      (¬ held ∨ x.late = true ∨ age ≤ opt s oScrubPeriod → t = s) ∧
      (held → x.late = false → opt s oScrubPeriod < age → takesEvent s 0 = true →
        ((t.spool 0).due.getLast?.map DueRec.record).map Rec.code = some 0x0003)) ∧
    (∃ t, exec (.rewriteUrgent n) s = .next t ∧ onlyTile s t n ∧ t.tileAt n = (match oldestRewrite x with
      | none => x
      | some e => if e + 15 ≤ s.tick.edges then { x with rewriteUrgent := true } else x))) ∧
  (∀ (p : Nat) (s : State), panelOk p = true →
    let x := s.panelAt p
    let held := panelHolds s p = true
    let order := (s.dieAt (panelDie p)).order
    (∃ t, exec (.calInterval p) s = .next t ∧ t = { s with arr := { s.arr with panels := t.arr.panels, dies := t.arr.dies } } ∧
      (held → x.lastAttempt + opt s oCalInterval ≤ s.tick.edges → x.calDue = false →
        t.panelAt p = { x with calDue := true } ∧
        (t.dieAt (panelDie p)).order = (if p ∈ order then order else order ++ [p])) ∧
      (∀ q, q ≠ p → t.panelAt q = s.panelAt q) ∧
      (¬ held ∨ s.tick.edges < x.lastAttempt + opt s oCalInterval ∨ x.calDue = true → t = s)) ∧
    (∃ t, exec (.recalUrgent p) s = .next t ∧ t = { s with arr := { s.arr with panels := t.arr.panels } } ∧
      (∀ q, q ≠ p → t.panelAt q = s.panelAt q) ∧ t.panelAt p =
        (if held ∧ x.lastAttempt + 2 * opt s oCalInterval ≤ s.tick.edges then { x with calUrgent := true } else x)))

/-- The reel engine (R303–R306, R568): a piece writes the next 16 rows, or those that failed, and the tile holds nothing
meanwhile; the piece is counted with its bytes, and one past the piece count, REEL_TILES or the reel engine's share waits. A
row that fails its third verify marks the tile WRITE_FAIL with a record, and so does a record that is lost (R298, R308). With
every row verified TILE_WRITE_DONE makes the tile hold the source, refreshed now, with its calibration counts, on a panel that
must be calibrated anew (R77, R84, R101, R447). Weight replacement as it goes on (R315, R316, R319, R320, R322). CUT_OVER that
nothing blocks: every session of the old epoch is bound to the new one; with fate RECOMPUTE its K and V are stale, with KEEP it
is mixed; sessions that block it are named once. SHADOW_WRITE_START takes the next unit of a keel, in BARRIER mode in place,
else into a shadow run. LAYER_SWITCHED moves the unit to its new copy and empties the old one; with the last unit the
replacement completes. -/
def Obligations.WritingReplacement : Prop :=
  ((∀ (n : Nat) (ok : List Bool) (s : State), tileOk n = true →
     let x := s.tileAt n
     let k := tileKeel n
     let rows := pieceRows x
     (x.under = none → exec (.writePiece n ok) s = .next s) ∧
     (∀ src, x.under = some src →
       (sourceLost s src = true → exec (.writePiece n ok) s = .next (settleWrites (failWrite s n 0))) ∧
       (sourceLost s src = false → pieceFits s n = false ∨ ¬ slotFor s 9 (tileOp 9 n false) →
         exec (.writePiece n ok) s = .next s) ∧
       (sourceLost s src = false → pieceFits s n = true → slotFor s 9 (tileOp 9 n false) →
         ∃ y, exec (.writePiece n ok) s = .next (settleWrites y) ∧ (y.tileAt n).holds = none ∧
           (y.tileAt n).pieces = piecesNow s x + 1 ∧ (y.tileAt n).pieceEdge = s.tick.edges ∧
           (y.keelCtr k).reelUsed = (s.keelCtr k).reelUsed + 264 * rows.length ∧ (∀ m, m ≠ n → y.tileAt m = s.tileAt m) ∧
           y = { s with arr := { s.arr with tiles := y.arr.tiles }, chk := y.chk,
                        pipe := { s.pipe with plan := y.pipe.plan, keels := y.pipe.keels } } ∧
           (rows.Nodup → x.fail = false →
             (∀ i, i < rows.length → ok.getD i false = true ∨ x.rowFails.get 0 (rows.getD i 0) < 2) →
             (y.tileAt n).under = some src ∧ (y.tileAt n).fail = false ∧ y.chk = s.chk ∧
             (y.tileAt n).rows = (if x.rows < 1024 then x.rows + 16 else x.rows) ∧
             ∀ i, i < rows.length → (y.tileAt n).rowFails.get 0 (rows.getD i 0) =
               if ok.getD i false = true then 0 else x.rowFails.get 0 (rows.getD i 0) + 1) ∧
           (rows.Nodup → x.fail = false →
             (∃ i, i < rows.length ∧ ok.getD i false = false ∧ 2 ≤ x.rowFails.get 0 (rows.getD i 0)) →
             (y.tileAt n).fail = true ∧ (y.tileAt n).under = none ∧
             ∃ f, y.chk.log.getLast? = some f ∧ f.kind = 0x0006 ∧ f.location = n ∧ f.detail ∈ rows)))) ∧
   (∀ (n : Nat) (s : State), tileOk n = true →
     let x := s.tileAt n
     (x.under = none ∨ x.rows < 1024 ∨ x.rowFails ≠ [] → exec (.tileWriteDone n) s = .next s) ∧
     (∀ src, x.under = some src → 1024 ≤ x.rows → x.rowFails = [] →
       ∃ t, exec (.tileWriteDone n) s = .next t ∧ (t.tileAt n).holds = some src ∧
         (t.tileAt n).under = none ∧ (t.tileAt n).refreshed = s.tick.time ∧ (t.tileAt n).unverified = false ∧
         (t.tileAt n).counts = quarterCounts (srcFormat s src) (srcRecord s src) ∧
         (t.panelAt (n / 8)).cal = false ∧ (t.panelAt (n / 8)).fresh = true ∧ (t.panelAt (n / 8)).tries = 0 ∧
         (t.panelAt (n / 8)).good = s.tick.count + 1 ∧
         (∀ m, m ≠ n → t.tileAt m = s.tileAt m) ∧ (∀ q, q ≠ n / 8 → t.panelAt q = s.panelAt q) ∧ t = { s with arr := t.arr }))) ∧
  ((∀ (mi : Nat) (s : State), mi < 16 → (s.model mi).repl = none → exec (.cutOver mi) s = .next s) ∧
   (∀ (mi : Nat) (s : State) (r : Repl), mi < 16 → (s.model mi).repl = some r →
     let old := oldSessions s mi r
     let m := s.model mi
     let blocking := if r.fate = 0 then [] else old.filter (unmapped s m r)
     let waits := r.cut = true ∨ (r.fate = 0 ∧ old ≠ [])
     let unwritten := r.prewrite = true ∧ prewritten s m r = false
     (waits → exec (.cutOver mi) s = .next s) ∧
     (¬ waits → blocking ≠ [] → ∃ t, exec (.cutOver mi) s = .next t ∧
       (t.model mi).repl = some { r with blocked := r.blocked ++ blocking.filter fun i => !r.blocked.contains i } ∧
       (∀ j, j ≠ mi → t.model j = s.model j) ∧ t = { s with models := t.models, spools := t.spools }) ∧
     (¬ waits → blocking = [] → unwritten → exec (.cutOver mi) s = .next s) ∧
     (¬ waits → blocking = [] → ¬ unwritten → old.Nodup →
       let mapped := fun h : Option W32 => h.bind fun h => match r.pairs.find? fun p => p.1 == h with
         | some p => optHandle p.2
         | none => some h
       ∃ y, exec (.cutOver mi) s = .next (settleReplace y mi) ∧ (y.model mi).repl = some { r with cut := true } ∧
         (∀ i ∈ old, (y.sess i).epoch = r.newEpoch ∧ (y.sess i).delta = mapped (s.sess i).delta ∧
           (r.fate = 2 → (y.sess i).mixed = true ∧ (y.sess i).st = (s.sess i).st ∧ (y.sess i).kvStale = (s.sess i).kvStale) ∧
           (r.fate ≠ 2 → (y.sess i).kvStale = true ∧ (y.sess i).st ≠ .starved)) ∧
         (∀ i, i ∉ old → y.sess i = s.sess i) ∧ (∀ j, j ≠ mi → y.model j = s.model j) ∧
         (r.fate = 2 → y = { s with models := y.models, sessions := y.sessions }))) ∧
   (∀ (mi u : Nat) (s : State), mi < 16 → u < 258 →
     (s.model mi).repl = none ∨ (s.model mi).units.find u = none →
     exec (.shadowWriteStart mi u) s = .next s ∧ exec (.layerSwitched mi u) s = .next s) ∧
   (∀ (mi u : Nat) (s : State) (r : Repl) (pl : UnitPl), mi < 16 → u < 258 → (s.model mi).repl = some r →
     (s.model mi).units.find u = some pl →
     let barrier := u ≠ 256 ∧ r.cut = true ∧ oldBefore s mi r u = false
     (nextUnit s (s.model mi) r pl.keel ≠ some u → exec (.shadowWriteStart mi u) s = .next s) ∧
     (nextUnit s (s.model mi) r pl.keel = some u →
       (∀ f, (if barrier ∨ u = 256 then some pl.first else shadowRun s (s.model mi) u) = some f →
         let x : ReplUnit := { barrier := decide barrier, first := f, edge := s.tick.edges, switched := false }
         let tiles := newTiles s (s.model mi) u x
         ∃ t, exec (.shadowWriteStart mi u) s = .next t ∧
           (t.model mi).repl = some { r with units := r.units.set u x } ∧
           (∀ w ∈ tiles, (∀ v ∈ tiles, v.1 = w.1 → v = w) →
             if recordLost (s.model mi) r.newEpoch u w.2 then (t.tileAt w.1).fail = true ∧ (t.tileAt w.1).under = none
             else (t.tileAt w.1).under = some { model := mi, unit := u, record := w.2, epoch := r.newEpoch } ∧
               (t.tileAt w.1).rows = 0) ∧
           (∀ n, n ∉ tiles.map Prod.fst → t.tileAt n = s.tileAt n) ∧
           (t.model mi).units = (s.model mi).units ∧ (∀ j, j ≠ mi → t.model j = s.model j) ∧
           t = { s with models := t.models, arr := t.arr, chk := t.chk, ends := t.ends }) ∧
       (¬ barrier → u ≠ 256 → shadowRun s (s.model mi) u = none → exec (.shadowWriteStart mi u) s = .next s)) ∧
     (r.units.find u = none → exec (.layerSwitched mi u) s = .next s) ∧
     (∀ x, r.units.find u = some x →
       let ready := r.cut = true ∧ x.switched = false ∧ unitReady s (s.model mi) r u x = true ∧ oldBefore s mi r u = false
       let old := if x.barrier = true ∨ u = 256 then [] else unitTiles s (s.model mi).bytes u pl.keel pl.first
       (¬ ready → exec (.layerSwitched mi u) s = .next s) ∧
       (ready → ∃ y, exec (.layerSwitched mi u) s = .next (settleReplace y mi) ∧
         (y.model mi).units.find u = some { pl with first := x.first, epoch := r.newEpoch } ∧
         (y.model mi).repl = some { r with units := r.units.set u { x with switched := true } } ∧
         (∀ w ∈ old, (y.tileAt w.1).holds = none ∧ (y.tileAt w.1).under = none) ∧
         (∀ n, n ∉ old.map Prod.fst → y.tileAt n = s.tileAt n) ∧ (∀ j, j ≠ mi → y.model j = s.model j) ∧
         y = { s with models := y.models, arr := { s.arr with tiles := y.arr.tiles }, spools := y.spools }))) ∧
   (∀ (mi : Nat) (s : State) (r : Repl) (b : List Byte) (ks : List Nat), (s.model mi).repl = some r →
     (s.model mi).pendB = some (b, ks) → r.cut = true →
     let done := ∀ u ∈ r.mask, (s.model mi).units.find u = none ∨ (r.units.find u).map ReplUnit.switched = some true
     (¬ done → settleReplace s mi = s) ∧
     (done → ∃ y, settleReplace s mi = finish y r.spool r.seq 0 (toLe 2 r.newEpoch) ∧
       (y.model mi).st = .committed ∧ (y.model mi).epoch = r.newEpoch ∧ (y.model mi).repl = none ∧
       (y.model mi).pendB = none ∧ (y.model mi).keels = ks ∧ (∀ j, j ≠ mi → y.model j = s.model j) ∧
       y = { s with models := y.models })))

/-! The tick, supplies and heat. -/

/-- TICK_EDGE. Before ready it changes nothing. At the edge of a ready module that no supply stop waits for: TICK_COUNT stays
as it is at the first edge after ready and is one more at every other (R160), but at the edge of a follower's lock it is one more
than the master's count where that count has come, as it was where none has (the model's choices, log 52); the time is one tick later; a follower's change of length is clamped to
100 ns and everyone else's is 0 (R165); options written take effect (R398); REFRESH_DIVISOR, a check policy, and TICK_CONFIG's role
and compensation that waited take effect (R161, R169, R171), and GET_OPTION gives the divisor that REFRESH_POLICY set last (the
model's choice, log 141); the tick's notes start again; the quota window starts again once it has lasted QUOTA_WINDOW ticks (R183).
A stop asked for by R506 removes power at the edge with its cause, which does not replace the word of a trip (log 133); during an
NV pulse it waits for the pulse's end (R538). -/
def Obligations.TickEdge : Prop :=
  ∀ (adjust : Int) (s : State),
    (s.boot.ready = false → exec (.tickEdge adjust) s = .next s) ∧
    (s.boot.ready = true → s.supply.stopping = false →
      ∃ t, exec (.tickEdge adjust) s = .next t ∧
        (let up := if s.tick.edges = 0 then s.tick.count else s.tick.count + 1
         (s.tick.adopt = false → t.tick.count = up) ∧
         (s.tick.adopt = true → s.tick.master = none → t.tick.count = up) ∧
         (∀ m, s.tick.adopt = true → s.tick.master = some m → t.tick.count = m + 1)) ∧
        t.tick.adopt = false ∧ t.tick.edges = s.tick.edges + 1 ∧
        t.tick.time = s.tick.time + (if s.tick.edges = 0 then 0 else tickNs s) ∧
        t.tick.adjust = (if s.tick.role = 2 then max (-100) (min 100 adjust) else 0) ∧
        t.opts.pend = [] ∧ t.pipe.ran = [] ∧ t.pipe.decided = [] ∧ t.nv = s.nv ∧ t.boot.ready = true ∧ t.pending = s.pending ∧
        (∀ o v, s.opts.pend = [(o, v)] → o ≠ oTickRole → o ≠ oTickInComp → o ≠ oTickPeriod →
          (o = oRefreshDivisor → ∀ dies div, EdgeAct.refresh dies div ∉ s.tick.acts) → opt t o = v) ∧
        (∀ dies div, s.tick.acts = [.refresh dies div] → (∀ d ∈ maskBits dies 32, (t.dieAt d).divisor = div) ∧
          (maskBits dies 32 ≠ [] → opt t oRefreshDivisor = div)) ∧
        (∀ p v, s.tick.acts = [.policy p v] → (t.panelAt p).policy = v) ∧
        (∀ role comp, s.tick.acts = [.tickCfg role comp] → t.tick.role = role ∧ t.tick.comp = comp ∧
          opt t oTickRole = role ∧ opt t oTickInComp = comp) ∧
        (s.opts.pend = [] → s.tick.quotaEdge + opt s oQuotaWindow ≤ s.tick.edges + 1 → t.tick.quotaEdge = s.tick.edges + 1) ∧
        (s.opts.pend = [] → s.tick.edges + 1 < s.tick.quotaEdge + opt s oQuotaWindow → t.tick.quotaEdge = s.tick.quotaEdge)) ∧
    (s.boot.ready = true → s.supply.stopping = true → s.boot.pulse = false → ∃ t, exec (.tickEdge adjust) s = .next t ∧
      t.boot.powered = false ∧ t.boot.ready = false ∧
      t.nv = { s.nv with cause := if s.nv.cause = .thermalTrip then .thermalTrip else .brownout }) ∧
    (s.boot.ready = true → s.supply.stopping = true → s.boot.pulse = true → ∃ t, exec (.tickEdge adjust) s = .next t ∧
      t.boot = { s.boot with latched := t.boot.latched } ∧ ResetSrc.brownout ∈ t.boot.latched ∧ t.nv = s.nv ∧
      t.supply.stopping = true)

/-- SEAL_DECISION is taken once in a tick of a ready module. An entry of the keel with every item done, nothing late and its
handoff complete seals, unless its stack is stopped (R174); one with an item left does not. What the decision finds of each
entry that is not cancelled (where every link end has sent what it can) is what happens to it: it seals, it dwells with DWELL
one more, or it slips with SLIP one more (R187–R191); a cancelled one is left as it is. Replays and repeats that found no panel
time become wide-mode requests of rank 4 (R132, R134). QUOTA_WINDOW_END starts the quota counts again once the window has lasted
QUOTA_WINDOW ticks (R183). -/
def Obligations.SealQuota : Prop :=
  (∀ (k : Nat) (s : State), k < 8 →
    (s.boot.ready = false ∨ k ∈ s.pipe.decided → exec (.sealDecision k) s = .next s) ∧
    (s.boot.ready = true → k ∉ s.pipe.decided → (s.pipe.entries.map Entry.id).Nodup →
     ∃ t, exec (.sealDecision k) s = .next t ∧ t.pipe.decided = s.pipe.decided ++ [k] ∧
      (∀ id e r, s.entry id = some e → entryStage s e = some r → r.keel = k →
        (e.masked = true → t.entry id = some e) ∧
        (e.masked = false →
          (e.items.all Item.done = true → e.late = 0 → handoffDone s e r = true → stackStopped s k = false →
            (t.entry id).map Entry.sealing = some true) ∧
          (e.items.all Item.done = false → (t.entry id).map Entry.sealing = some e.sealing) ∧
          ((∀ x ∈ s.ends, pump s x.1 = s) →
           let w := sealWhy (replaysToWide s k) e r
           (w = .seal → t.entry id = some { e with sealing := true }) ∧
           (w = .dwell → t.entry id = some { e with dwell := satAdd 16 e.dwell 1 }) ∧
           (∀ c, w = .slip c → ∃ a, t.entry id = some { e with slip := satAdd 16 e.slip 1, arith := a })))) ∧
      (∀ id e, s.entry id = some e → entryKeel s e ≠ some k → t.entry id = some e) ∧
      (∀ id pos, (s.entry id).bind (entryKeel s) = some k → pos < 2097152 →
        ((t.ctxAt id pos).blocks = (s.ctxAt id pos).blocks.map fun b => match b.st with
          | .needRepeat => { b with st := .wide 4 }
          | .needSplit _ => { b with st := .wide 4 }
          | _ => b)) ∧
      t = { s with pipe := t.pipe, spools := t.spools, ends := t.ends })) ∧
  (∀ s : State, ∃ t, exec .quotaWindowEnd s = .next t ∧
    (s.tick.quotaEdge + opt s oQuotaWindow ≤ s.tick.edges →
      t = { s with pipe := { s.pipe with quota := [] }, tick := { s.tick with quotaEdge := s.tick.edges } }) ∧
    (s.tick.edges < s.tick.quotaEdge + opt s oQuotaWindow → t = s))

/-- The inputs (R501–R506), on a powered module: when the one in use fails and the other can carry the load, the load moves; when
none can, BROWNOUT asks for the stop at the next edge, or without a tick removes power at once (its cause does not replace the word of
a trip: the model's choice, log 133), or waits for an NV pulse to end (R538); SUPPLY_RETURN moves the load back to a main input that
is good once its timer has run (log 149 says at which edges); SUPPLY_FAULT of the other input sets its comparators, with a record
where it was good, and alerts for backup; INPUT_GOOD sets an input good, which starts the return timer when main comes good on
backup, or clears the good bit of the input in use below 46 V. Heat (R509, R512–R514, R520, R521): a reading of 105 °C resets the
module with its cause, or is latched during an NV pulse, and a stop that has begun completes; CAP_UNMET alerts once, 16 ms after
CAP_STEP 7 with P_avg above POWER_CAP throughout; the monitor reads the diodes of dies 0–40 in turn, two bad readings in a row break
a sensor, and two good ones restore it; a stopped stack resumes after 1,024 calm edges with both sensors of no die broken. Everything
else leaves the module as it is. -/
def Obligations.SuppliesHeat : Prop :=
  (∀ (s : State),
     (s.boot.powered = false → (∀ ov, exec (.supplySwitch ov) s = .next s ∧ exec (.brownout ov) s = .next s) ∧
       (∀ l, exec (.supplyFault l) s = .next s) ∧ exec .supplyReturn s = .next s) ∧
     (s.boot.powered = true →
       (∀ ov, otherServes s = true → ∃ t,
         exec (.supplySwitch ov) s = .next t ∧ (s.supply.backup = false → t.supply.mainGood = false ∧ t.supply.mainOv = ov ∧ t.supply.mainAbove = ov) ∧
         (s.supply.backup = true → t.supply.backupGood = false ∧ t.supply.backupOv = ov) ∧
         loadMoved { s with supply := s.supply.fails s.supply.backup (awayLevel ov) } t (!s.supply.backup)) ∧
       (∀ ov, otherServes s = false → exec (.supplySwitch ov) s = .next s) ∧
       (∀ ov, otherServes s = true → exec (.brownout ov) s = .next s) ∧
       (∀ ov, otherServes s = false → s.boot.ready = true → ∃ t, exec (.brownout ov) s = .next t ∧ t.supply.stopping = true ∧
         (s.supply.backup = false → t.supply.mainGood = false ∧ t.supply.mainOv = ov) ∧
         (s.supply.backup = true → t.supply.backupGood = false ∧ t.supply.backupOv = ov) ∧ t = { s with supply := t.supply }) ∧
       (∀ ov, otherServes s = false → s.boot.ready = false → s.boot.pulse = false → ∃ t, exec (.brownout ov) s = .next t ∧
         t.boot.powered = false ∧ t.boot.arriving = [] ∧ t.sessions = [] ∧
         t.nv = { s.nv with cause := if s.nv.cause = .thermalTrip then .thermalTrip else .brownout }) ∧
       (∀ ov, otherServes s = false → s.boot.ready = false → s.boot.pulse = true → ∃ t, exec (.brownout ov) s = .next t ∧
         ResetSrc.brownout ∈ t.boot.latched ∧ t = { s with supply := t.supply, boot := { s.boot with latched := t.boot.latched } }) ∧
       (s.supply.backup = true → s.supply.mainGood = true → returnDue s = true → ∃ t, exec .supplyReturn s = .next t ∧
         loadMoved s t false) ∧
       (s.supply.backup = false ∨ s.supply.mainGood = false ∨ returnDue s = false → exec .supplyReturn s = .next s) ∧
       (∀ l, s.supply.backup = false → ∃ t, exec (.supplyFault l) s = .next t ∧
         t.supply = { s.supply with backupGood := false, backupOv := decide (l = .high),
                                    alert := if s.supply.backupGood then s.supply.alert ||| 2#9 else s.supply.alert } ∧
         (s.supply.backupGood = true → ∃ r, t.chk.log.getLast? = some r ∧ r.kind = 0x0021 ∧ r.location = 1 ∧
           r.detail = (if l = .high then 1 else 0)) ∧
         (s.supply.backupGood = false → t.chk = s.chk) ∧ t = { s with supply := t.supply, chk := t.chk }) ∧
       (∀ l, s.supply.backup = true → ∃ t, exec (.supplyFault l) s = .next t ∧
         t.supply = { s.supply with mainGood := false, mainOv := decide (l = .high), mainAbove := decide (l ≠ .low), timer := none } ∧
         (s.supply.mainGood = true → ∃ r, t.chk.log.getLast? = some r ∧ r.kind = 0x0021 ∧ r.location = 0 ∧
           r.detail = (if l = .high then 1 else 0)) ∧
         (s.supply.mainGood = false → t.chk = s.chk) ∧ t = { s with supply := t.supply, chk := t.chk })) ∧
     exec (.inputGood true true) s = .next { s with supply := { s.supply with backupGood := true, backupOv := false } } ∧
     exec (.inputGood false true) s = .next { s with
       supply := { s.supply with mainGood := true, mainOv := false, mainAbove := true,
                                 timer := if s.supply.backup && s.supply.timer.isNone then some s.tick.time else s.supply.timer } } ∧
     (∀ b, s.supply.backup ≠ b → exec (.inputGood b false) s = .next s) ∧
     (s.supply.backup = true →
       exec (.inputGood true false) s = .next { s with supply := { s.supply with backupGood := false, backupOv := false } }) ∧
     (s.supply.backup = false → exec (.inputGood false false) s = .next { s with
       supply := { s.supply with mainGood := false, mainOv := false, mainAbove := true, timer := none } })) ∧
  ((∀ (d : Nat) (s : State), d < 41 →
     let x := s.thermal.diodes.get Sensor.init d
     let y := s.thermal.therms.get Sensor.init d
     let hot := 1680 ≤ x.temp.toInt ∨ 1680 ≤ y.temp.toInt
     (s.boot.powered = true → hot →
       (s.boot.pulse = false → s.supply.stopping = false → ∃ t, exec (.thermalTrip d) s = .next t ∧ t.boot.ready = false ∧
         t.boot.trip = true ∧ t.nv = { s.nv with cause := .thermalTrip } ∧ ResetSrc.thermalTrip ∈ t.boot.arriving ∧ t.sessions = []) ∧
       (s.boot.pulse = false → s.supply.stopping = true → ∃ t, exec (.thermalTrip d) s = .next t ∧ t.boot.powered = false ∧
         t.nv = { s.nv with cause := .thermalTrip }) ∧
       (s.boot.pulse = true → ∃ t, exec (.thermalTrip d) s = .next t ∧ ResetSrc.thermalTrip ∈ t.boot.latched ∧
         t = { s with boot := { s.boot with trip := true, latched := t.boot.latched },
                      nv := { s.nv with cause := .thermalTrip } })) ∧
     (s.boot.powered = false ∨ ¬ hot → exec (.thermalTrip d) s = .next s)) ∧
   (∀ (mv : Nat) (tp : W16) (s : State),
     let d := s.thermal.turn
     let x := s.thermal.diodes.get Sensor.init d
     let bad := decide (mv < 250 ∨ 850 < mv)
     (s.boot.powered = false → exec (.diodeReading mv tp) s = .next s) ∧
     (s.boot.powered = true → ∃ t, exec (.diodeReading mv tp) s = .next t ∧
       t.thermal = { s.thermal with diodes := t.thermal.diodes, turn := if 40 ≤ d then 0 else d + 1 } ∧
       (∀ j, j ≠ d → t.thermal.diodes.get Sensor.init j = s.thermal.diodes.get Sensor.init j) ∧
       (let z := t.thermal.diodes.get Sensor.init d
        (bad = x.broken → z = { x with temp := tp, run := 0 } ∧ t = { s with thermal := t.thermal }) ∧
        (bad ≠ x.broken → x.run = 0 → z = { x with temp := tp, run := 1 } ∧ t = { s with thermal := t.thermal }) ∧
        (bad ≠ x.broken → x.run ≠ 0 → z = { temp := tp, broken := bad, run := 0 } ∧
          (∃ r, t.chk.log.getLast? = some r ∧ r.kind = 0x0022 ∧ r.location = d ∧
            r.detail = (if bad then 1 else 257)) ∧
          (bad = true → t.supply.alert = s.supply.alert ||| 32#9) ∧ (bad = false → t.supply = s.supply) ∧
          t = { s with thermal := t.thermal, chk := t.chk, supply := t.supply, spools := t.spools })))) ∧
   (∀ s : State,
     let long := ∃ h, s.supply.highSince = some h ∧ h + 16000000 ≤ s.tick.time
     let unmet := s.tick.capStep = 7 ∧ opt s oPowerCap < s.supply.pAvg ∧ long ∧ s.supply.unmet = false ∧
       s.supply.capTime + 16000000 ≤ s.tick.time
     (unmet → ∃ t r, exec .capUnmet s = .next t ∧
       t.supply = { s.supply with unmet := true, alert := s.supply.alert ||| 8#9 } ∧
       t.chk.log.getLast? = some r ∧ r.kind = 0x0024 ∧ r.detail = s.supply.pAvg ∧ t = { s with supply := t.supply, chk := t.chk }) ∧
     (¬ unmet → exec .capUnmet s = .next s)) ∧
   (∀ (k : Nat) (s : State), k < 8 →
     let calm := 1024 ≤ s.thermal.calm.get 0 k ∧ ∀ d ∈ stackDies k, bothBroken s d = false
     (stackStopped s k = true → calm → ∃ t r, exec (.stackResume k) s = .next t ∧
       stackStopped t k = false ∧ (∀ j, j ≠ k → stackStopped t j = stackStopped s j) ∧
       t.chk.log.getLast? = some r ∧ r.kind = 0x0023 ∧ r.location = k ∧ r.detail = 2 ∧
       t = { s with thermal := t.thermal, chk := t.chk }) ∧
     (stackStopped s k = false ∨ ¬ calm → exec (.stackResume k) s = .next s)))

/-- The ADC (R505, R507, R512, R513, R523–R528), on a powered module. Converter 1 makes its scan: channels 0–60 in ascending order, and
after every 16th scan an open-wire pass over channels 0–44. A conversion writes its channel and marks a limit that it passes, with an
alert the first time; a scan's thermistor channels are readings of their sensors, 45 and 46 the input voltages, and the current of
the input in use enters P_avg (the model's formula, log 33); an open-wire pass marks its channel open where its two codes differ by
more than 1,024, and two in a row break the thermistor. Converter 0 ends the injected conversion that it performs, and the next takes
it, in order; one of the supply controller enters its SUPPLY_SWITCH record, which is written with its second voltage; without an
injection it ends the running sequence's entry, after which a waiting descriptor takes force. At most four injections wait; a
trigger of the descriptor's source starts the sequence from entry 0, or while it runs is counted missed. -/
def Obligations.AdcRuns : Prop :=
  ∀ (s : State),
    let chan := fun (u : State) (c : Nat) => u.adc.chans.get AdcChan.init c
    let result := fun (c code : Nat) =>
      { chan s c with code := min code 4095, valid := true,
                      highHit := (chan s c).highHit || decide ((chan s c).high < min code 4095),
                      lowHit := (chan s c).lowHit || decide (min code 4095 < (chan s c).low) }
    let alerted := fun (c code : Nat) =>
      s.supply.alert.getLsbD 8 || (decide ((chan s c).high < min code 4095) && !(chan s c).highHit) ||
        (decide (min code 4095 < (chan s c).low) && !(chan s c).lowHit)
    (s.boot.powered = false → (∀ code down, exec (.scanConversion code down) s = .next s) ∧
      (∀ code, exec (.adcConversion code) s = .next s) ∧ ∀ src, exec (.adcTrigger src) s = .next s) ∧
    (s.boot.powered = true →
      let ch := s.adc.pos
      (s.adc.openPass = false → ∀ code down, ∃ t, exec (.scanConversion code down) s = .next t ∧
        chan t ch = result ch code ∧ (∀ j, j ≠ ch → chan t j = chan s j) ∧ t.supply.alert.getLsbD 8 = alerted ch code ∧
        t.adc = (if 60 ≤ ch then { s.adc with chans := t.adc.chans, pos := 0, scans := satAdd 32 s.adc.scans 1,
                                              round := s.adc.round + 1, openPass := decide (16 ≤ s.adc.round + 1) }
          else { s.adc with chans := t.adc.chans, pos := ch + 1 }) ∧
        (ch ≤ 44 → t.thermal.therms.get Sensor.init (thermInput ch) =
          (s.thermal.therms.get Sensor.init (thermInput ch)).take (Config.thermTable ch (min code 4095))
            (decide (min code 4095 < 16) || decide (4080 < min code 4095))) ∧
        (44 < ch → t.thermal = s.thermal) ∧
        (ch = 45 → t.supply.mainV = 2 * min code 4095) ∧ (ch = 46 → t.supply.backupV = 2 * min code 4095) ∧
        (ch = (if s.supply.backup then 48 else 47) →
          let w := (chan s (if s.supply.backup then 46 else 45)).code * min code 4095 / 2000
          let l := (s.supply.scans.filter fun e => decide (s.tick.time < e.1 + 256000)) ++ [(s.tick.time, w)]
          t.supply.pLast = w ∧ t.supply.scans = l ∧ t.supply.pAvg = (l.map Prod.snd).sum / l.length) ∧
        (ch ≠ (if s.supply.backup then 48 else 47) → t.supply.pLast = s.supply.pLast ∧ t.supply.pAvg = s.supply.pAvg) ∧
        t = { s with adc := t.adc, supply := t.supply, thermal := t.thermal, spools := t.spools, chk := t.chk }) ∧
      (s.adc.openPass = true → ∀ up down,
        let isOpen := decide (down + 1024 < up ∨ up + 1024 < down)
        let x := s.thermal.therms.get Sensor.init (thermInput ch)
        ∃ t, exec (.scanConversion up down) s = .next t ∧
          chan t ch = { chan s ch with opened := isOpen } ∧ (∀ j, j ≠ ch → chan t j = chan s j) ∧
          t.adc.openRuns.get 0 ch = (if isOpen then s.adc.openRuns.get 0 ch + 1 else 0) ∧
          (∀ j, j ≠ ch → t.adc.openRuns.get 0 j = s.adc.openRuns.get 0 j) ∧
          t.adc = (if 44 ≤ ch then { s.adc with chans := t.adc.chans, openRuns := t.adc.openRuns, openPass := false, pos := 0, round := 0 }
            else { s.adc with chans := t.adc.chans, openRuns := t.adc.openRuns, pos := ch + 1 }) ∧
          (isOpen = true → 1 ≤ s.adc.openRuns.get 0 ch → x.broken = false →
            t.thermal.therms.get Sensor.init (thermInput ch) = { x with broken := true, run := 0 } ∧
            ∃ r, t.chk.log.getLast? = some r ∧ r.kind = 0x0022 ∧ r.location = thermInput ch ∧ r.detail = 2) ∧
          (isOpen = false ∨ s.adc.openRuns.get 0 ch = 0 ∨ x.broken = true →
            (t.thermal.therms.get Sensor.init (thermInput ch)).broken = x.broken ∧ t.chk = s.chk ∧ t.spools = s.spools) ∧
          t = { s with adc := t.adc, supply := t.supply, thermal := t.thermal, spools := t.spools, chk := t.chk }) ∧
      (∀ c own code, s.adc.injecting = some (c, own) →
        let notes := if own then fillNote c (2 * min code 4095) s.supply.notes else s.supply.notes
        ∃ t, exec (.adcConversion code) s = .next t ∧
          t.adc = { s.adc with injecting := s.adc.inject.head?, inject := s.adc.inject.tail, chans := t.adc.chans } ∧
          chan t c = result c code ∧ (∀ j, j ≠ c → chan t j = chan s j) ∧ t.supply.alert.getLsbD 8 = alerted c code ∧
          (own = false → t.supply.notes = s.supply.notes ∧ t.chk = s.chk) ∧
          (own = true → t.supply.notes = notes.filter fun n => n.detail.isNone) ∧
          (notes.all (fun n => n.detail.isNone) = true → t.chk = s.chk) ∧
          (∀ n v, own = true → notes.filter (fun n => n.detail.isSome) = [n] → n.detail = some v → ∃ r,
            t.chk.log.getLast? = some r ∧ r.kind = 0x0020 ∧ r.location = n.input ∧ r.detail = v) ∧
          t = { s with adc := t.adc, supply := t.supply, spools := t.spools, chk := t.chk }) ∧
      (∀ code, s.adc.injecting = none → s.adc.running = true →
        let c := s.adc.seqn.getD s.adc.entry 0 % 64
        ∃ t, exec (.adcConversion code) s = .next t ∧ chan t c = result c code ∧ (∀ j, j ≠ c → chan t j = chan s j) ∧
          t.supply.alert.getLsbD 8 = alerted c code ∧
          (s.adc.next = none → t.adc.seqn = s.adc.seqn ∧ t.adc.trigger = s.adc.trigger ∧
            (if s.adc.entry + 1 < s.adc.seqn.length then t.adc.entry = s.adc.entry + 1 ∧ t.adc.running = true
             else t.adc.entry = 0 ∧ t.adc.running = false)) ∧
          (∀ b, s.adc.next = some b → t.adc.next = none ∧ t.adc.running = false ∧ t.adc.entry = 0 ∧
            t.adc.trigger = byteAt b 1 ∧ t.adc.delay = le b 4 2 ∧ t.adc.pwm = byteAt b 6 ∧
            t.adc.seqn = (List.range (byteAt b 0)).map fun i => le b (8 + 4 * i) 4) ∧
          t = { s with adc := t.adc, supply := t.supply, spools := t.spools }) ∧
      (∀ code, s.adc.injecting = none → s.adc.running = false → exec (.adcConversion code) s = .next s)) ∧
    (∀ v : W32, (s.boot.ready = false → exec (.adcInjectGo v) s = .next s) ∧
      (s.boot.ready = true →
        let a := if v.toNat / 32768 % 2 = 1 then { s.adc with injectLost := false } else s.adc
        let go := v.toNat / 128 % 2 = 1 ∧ v.toNat % 64 ≤ 60
        ∃ t, exec (.adcInjectGo v) s = .next t ∧ t = { s with adc := t.adc } ∧
          (go → s.adc.injecting = none → t.adc = { a with injecting := some (v.toNat % 64, false) }) ∧
          (go → s.adc.injecting ≠ none → s.adc.inject.length < 4 →
            t.adc = { a with inject := s.adc.inject ++ [(v.toNat % 64, false)] }) ∧
          (go → s.adc.injecting ≠ none → 4 ≤ s.adc.inject.length → t.adc = { a with injectLost := true }) ∧
          (¬ go → t.adc = a))) ∧
    (∀ src : AdcSource,
      let hit := match src with
        | .tick => s.adc.trigger = 1
        | .timer => s.adc.trigger = 2
        | .pwm k => s.adc.trigger = 3 ∧ s.adc.pwm = k
      (s.boot.powered = true → hit → s.adc.seqn ≠ [] →
        (s.adc.running = false → exec (.adcTrigger src) s = .next { s with adc := { s.adc with running := true, entry := 0 } }) ∧
        (s.adc.running = true →
          exec (.adcTrigger src) s = .next { s with adc := { s.adc with missed := satAdd 16 s.adc.missed 1 } })) ∧
      (¬ hit ∨ s.adc.seqn = [] → exec (.adcTrigger src) s = .next s))

/-! The whole machine. -/

/-- A step takes the command at the front of the queue and runs it on the state with the queue's rest; an empty queue
idles (log 26). A command whose operands name a unit the module does not have changes nothing (log 21), and no command
stops the machine: every command answers a next state. -/
def Obligations.StepRunsFront : Prop :=
  (∀ (c : Instr) (r : List Instr) (s : State), s.pending = c :: r → step s = exec c { s with pending := r }) ∧
  (∀ s : State, s.pending = [] → step s = .next s) ∧
  (∀ (c : Instr) (s : State), c.wf = false → exec c s = .next s) ∧
  (∀ (c : Instr) (s : State), ∃ t, exec c s = .next t)

/-- The machine right after reset (R345, R371, R539): no spool open, counters 0, no model, session or adapter,
TICK_COUNT 0 and TICK_PERIOD 64 from the factory defaults, no fault record, links down. Not the spec's, but the
model's choice: NV flash of a fresh module (log 2) at the start of a bring-up from power-on (log 3). -/
def Obligations.ResetState : Prop :=
  let s := State.reset
  s.pending = [] ∧ (∀ p, s.spool p = Spool.init ∧ (s.spool p).st = .closed) ∧ (∀ n, s.counter n = 0) ∧
  (∀ i, (s.model i).st = .closed ∧ (s.sess i).st = .closed ∧ (s.adapter i).resident = false) ∧
  s.tick.count = 0 ∧ s.tick.period = 64 ∧ opt s oTickPeriod = 64 ∧ s.chk.log = [] ∧ s.pipe.entries = [] ∧
  (∀ l, (s.link l).st = .down) ∧ s.boot.ready = false ∧ s.boot.step = 0 ∧ s.boot.arriving = [.powerOn] ∧ s.boot.cause = 0 ∧ s.boot.flrLast = 0 ∧
  (∀ t, (s.tileAt t).holds = none) ∧ (∀ a, s.kv.dram.read a = 0) ∧
  s.kv.dram.wf = true ∧ s.bus.host.wf = true ∧ s.boot.buffer.wf = true ∧ (s.spool 0).st ≠ .halted ∧ (s.spool 0).st ≠ .orphaned

/-- No step that completes changes the factory's facts in NV flash: the ordering code, the stepping, the serial number
and the spare panels (R1, R3, R20). -/
def Obligations.FactoryFacts : Prop :=
  ∀ s t : State, step s = .next t →
    t.nv.part = s.nv.part ∧ t.nv.stepMajor = s.nv.stepMajor ∧ t.nv.stepMinor = s.nv.stepMinor ∧
    t.nv.serial = s.nv.serial ∧ t.nv.spares = s.nv.spares

/-- Every step keeps the three memories in their canonical form: keel DRAM, what the module wrote to host memory, and
the image buffer. -/
def Obligations.MemoryCanonical : Prop :=
  ∀ s t : State, s.kv.dram.wf = true → s.bus.host.wf = true → s.boot.buffer.wf = true → step s = .next t →
    t.kv.dram.wf = true ∧ t.bus.host.wf = true ∧ t.boot.buffer.wf = true

/-- R345's state machine over every step: a CLOSED spool is never HALTED or ORPHANED next, an ORPHANED one never
HALTED next, and spool 0, if it is CLOSED or OPEN, stays one of the two. -/
def Obligations.SpoolStates : Prop :=
  ∀ s t : State, step s = .next t →
    (∀ p, (s.spool p).st = .closed → (t.spool p).st = .closed ∨ (t.spool p).st = .opened) ∧
    (∀ p, (s.spool p).st = .orphaned → (t.spool p).st ≠ .halted) ∧
    ((s.spool 0).st = .closed ∨ (s.spool 0).st = .opened → (t.spool 0).st = .closed ∨ (t.spool 0).st = .opened)
end

