-- ==== Sys2Proof/Laws/State.lean ====
section
/-!
SUPPORT. What each updater of State does to each field: one lemma per field per update, true by `rfl`, so that no
later proof unfolds a record update.
-/
namespace Sys2Proof.Machine

variable (s : State)

/-! `onNv` -/
@[simp] theorem State.onNv_pending (f : Nv → Nv) : (s.onNv f).pending = s.pending := rfl
@[simp] theorem State.onNv_nv (f : Nv → Nv) : (s.onNv f).nv = f s.nv := rfl
@[simp] theorem State.onNv_boot (f : Nv → Nv) : (s.onNv f).boot = s.boot := rfl
@[simp] theorem State.onNv_opts (f : Nv → Nv) : (s.onNv f).opts = s.opts := rfl
@[simp] theorem State.onNv_tick (f : Nv → Nv) : (s.onNv f).tick = s.tick := rfl
@[simp] theorem State.onNv_spools (f : Nv → Nv) : (s.onNv f).spools = s.spools := rfl
@[simp] theorem State.onNv_sync (f : Nv → Nv) : (s.onNv f).sync = s.sync := rfl
@[simp] theorem State.onNv_bus (f : Nv → Nv) : (s.onNv f).bus = s.bus := rfl
@[simp] theorem State.onNv_models (f : Nv → Nv) : (s.onNv f).models = s.models := rfl
@[simp] theorem State.onNv_sessions (f : Nv → Nv) : (s.onNv f).sessions = s.sessions := rfl
@[simp] theorem State.onNv_adapters (f : Nv → Nv) : (s.onNv f).adapters = s.adapters := rfl
@[simp] theorem State.onNv_kv (f : Nv → Nv) : (s.onNv f).kv = s.kv := rfl
@[simp] theorem State.onNv_pipe (f : Nv → Nv) : (s.onNv f).pipe = s.pipe := rfl
@[simp] theorem State.onNv_arr (f : Nv → Nv) : (s.onNv f).arr = s.arr := rfl
@[simp] theorem State.onNv_chk (f : Nv → Nv) : (s.onNv f).chk = s.chk := rfl
@[simp] theorem State.onNv_links (f : Nv → Nv) : (s.onNv f).links = s.links := rfl
@[simp] theorem State.onNv_ends (f : Nv → Nv) : (s.onNv f).ends = s.ends := rfl
@[simp] theorem State.onNv_cvu (f : Nv → Nv) : (s.onNv f).cvu = s.cvu := rfl
@[simp] theorem State.onNv_arb (f : Nv → Nv) : (s.onNv f).arb = s.arb := rfl
@[simp] theorem State.onNv_supply (f : Nv → Nv) : (s.onNv f).supply = s.supply := rfl
@[simp] theorem State.onNv_thermal (f : Nv → Nv) : (s.onNv f).thermal = s.thermal := rfl
@[simp] theorem State.onNv_adc (f : Nv → Nv) : (s.onNv f).adc = s.adc := rfl
@[simp] theorem State.onNv_free (f : Nv → Nv) : (s.onNv f).free = s.free := rfl

/-! `onBoot` -/
@[simp] theorem State.onBoot_pending (f : Boot → Boot) : (s.onBoot f).pending = s.pending := rfl
@[simp] theorem State.onBoot_nv (f : Boot → Boot) : (s.onBoot f).nv = s.nv := rfl
@[simp] theorem State.onBoot_boot (f : Boot → Boot) : (s.onBoot f).boot = f s.boot := rfl
@[simp] theorem State.onBoot_opts (f : Boot → Boot) : (s.onBoot f).opts = s.opts := rfl
@[simp] theorem State.onBoot_tick (f : Boot → Boot) : (s.onBoot f).tick = s.tick := rfl
@[simp] theorem State.onBoot_spools (f : Boot → Boot) : (s.onBoot f).spools = s.spools := rfl
@[simp] theorem State.onBoot_sync (f : Boot → Boot) : (s.onBoot f).sync = s.sync := rfl
@[simp] theorem State.onBoot_bus (f : Boot → Boot) : (s.onBoot f).bus = s.bus := rfl
@[simp] theorem State.onBoot_models (f : Boot → Boot) : (s.onBoot f).models = s.models := rfl
@[simp] theorem State.onBoot_sessions (f : Boot → Boot) : (s.onBoot f).sessions = s.sessions := rfl
@[simp] theorem State.onBoot_adapters (f : Boot → Boot) : (s.onBoot f).adapters = s.adapters := rfl
@[simp] theorem State.onBoot_kv (f : Boot → Boot) : (s.onBoot f).kv = s.kv := rfl
@[simp] theorem State.onBoot_pipe (f : Boot → Boot) : (s.onBoot f).pipe = s.pipe := rfl
@[simp] theorem State.onBoot_arr (f : Boot → Boot) : (s.onBoot f).arr = s.arr := rfl
@[simp] theorem State.onBoot_chk (f : Boot → Boot) : (s.onBoot f).chk = s.chk := rfl
@[simp] theorem State.onBoot_links (f : Boot → Boot) : (s.onBoot f).links = s.links := rfl
@[simp] theorem State.onBoot_ends (f : Boot → Boot) : (s.onBoot f).ends = s.ends := rfl
@[simp] theorem State.onBoot_cvu (f : Boot → Boot) : (s.onBoot f).cvu = s.cvu := rfl
@[simp] theorem State.onBoot_arb (f : Boot → Boot) : (s.onBoot f).arb = s.arb := rfl
@[simp] theorem State.onBoot_supply (f : Boot → Boot) : (s.onBoot f).supply = s.supply := rfl
@[simp] theorem State.onBoot_thermal (f : Boot → Boot) : (s.onBoot f).thermal = s.thermal := rfl
@[simp] theorem State.onBoot_adc (f : Boot → Boot) : (s.onBoot f).adc = s.adc := rfl
@[simp] theorem State.onBoot_free (f : Boot → Boot) : (s.onBoot f).free = s.free := rfl

/-! `onOpts` -/
@[simp] theorem State.onOpts_pending (f : Opts → Opts) : (s.onOpts f).pending = s.pending := rfl
@[simp] theorem State.onOpts_nv (f : Opts → Opts) : (s.onOpts f).nv = s.nv := rfl
@[simp] theorem State.onOpts_boot (f : Opts → Opts) : (s.onOpts f).boot = s.boot := rfl
@[simp] theorem State.onOpts_opts (f : Opts → Opts) : (s.onOpts f).opts = f s.opts := rfl
@[simp] theorem State.onOpts_tick (f : Opts → Opts) : (s.onOpts f).tick = s.tick := rfl
@[simp] theorem State.onOpts_spools (f : Opts → Opts) : (s.onOpts f).spools = s.spools := rfl
@[simp] theorem State.onOpts_sync (f : Opts → Opts) : (s.onOpts f).sync = s.sync := rfl
@[simp] theorem State.onOpts_bus (f : Opts → Opts) : (s.onOpts f).bus = s.bus := rfl
@[simp] theorem State.onOpts_models (f : Opts → Opts) : (s.onOpts f).models = s.models := rfl
@[simp] theorem State.onOpts_sessions (f : Opts → Opts) : (s.onOpts f).sessions = s.sessions := rfl
@[simp] theorem State.onOpts_adapters (f : Opts → Opts) : (s.onOpts f).adapters = s.adapters := rfl
@[simp] theorem State.onOpts_kv (f : Opts → Opts) : (s.onOpts f).kv = s.kv := rfl
@[simp] theorem State.onOpts_pipe (f : Opts → Opts) : (s.onOpts f).pipe = s.pipe := rfl
@[simp] theorem State.onOpts_arr (f : Opts → Opts) : (s.onOpts f).arr = s.arr := rfl
@[simp] theorem State.onOpts_chk (f : Opts → Opts) : (s.onOpts f).chk = s.chk := rfl
@[simp] theorem State.onOpts_links (f : Opts → Opts) : (s.onOpts f).links = s.links := rfl
@[simp] theorem State.onOpts_ends (f : Opts → Opts) : (s.onOpts f).ends = s.ends := rfl
@[simp] theorem State.onOpts_cvu (f : Opts → Opts) : (s.onOpts f).cvu = s.cvu := rfl
@[simp] theorem State.onOpts_arb (f : Opts → Opts) : (s.onOpts f).arb = s.arb := rfl
@[simp] theorem State.onOpts_supply (f : Opts → Opts) : (s.onOpts f).supply = s.supply := rfl
@[simp] theorem State.onOpts_thermal (f : Opts → Opts) : (s.onOpts f).thermal = s.thermal := rfl
@[simp] theorem State.onOpts_adc (f : Opts → Opts) : (s.onOpts f).adc = s.adc := rfl
@[simp] theorem State.onOpts_free (f : Opts → Opts) : (s.onOpts f).free = s.free := rfl

/-! `onTick` -/
@[simp] theorem State.onTick_pending (f : Tick → Tick) : (s.onTick f).pending = s.pending := rfl
@[simp] theorem State.onTick_nv (f : Tick → Tick) : (s.onTick f).nv = s.nv := rfl
@[simp] theorem State.onTick_boot (f : Tick → Tick) : (s.onTick f).boot = s.boot := rfl
@[simp] theorem State.onTick_opts (f : Tick → Tick) : (s.onTick f).opts = s.opts := rfl
@[simp] theorem State.onTick_tick (f : Tick → Tick) : (s.onTick f).tick = f s.tick := rfl
@[simp] theorem State.onTick_spools (f : Tick → Tick) : (s.onTick f).spools = s.spools := rfl
@[simp] theorem State.onTick_sync (f : Tick → Tick) : (s.onTick f).sync = s.sync := rfl
@[simp] theorem State.onTick_bus (f : Tick → Tick) : (s.onTick f).bus = s.bus := rfl
@[simp] theorem State.onTick_models (f : Tick → Tick) : (s.onTick f).models = s.models := rfl
@[simp] theorem State.onTick_sessions (f : Tick → Tick) : (s.onTick f).sessions = s.sessions := rfl
@[simp] theorem State.onTick_adapters (f : Tick → Tick) : (s.onTick f).adapters = s.adapters := rfl
@[simp] theorem State.onTick_kv (f : Tick → Tick) : (s.onTick f).kv = s.kv := rfl
@[simp] theorem State.onTick_pipe (f : Tick → Tick) : (s.onTick f).pipe = s.pipe := rfl
@[simp] theorem State.onTick_arr (f : Tick → Tick) : (s.onTick f).arr = s.arr := rfl
@[simp] theorem State.onTick_chk (f : Tick → Tick) : (s.onTick f).chk = s.chk := rfl
@[simp] theorem State.onTick_links (f : Tick → Tick) : (s.onTick f).links = s.links := rfl
@[simp] theorem State.onTick_ends (f : Tick → Tick) : (s.onTick f).ends = s.ends := rfl
@[simp] theorem State.onTick_cvu (f : Tick → Tick) : (s.onTick f).cvu = s.cvu := rfl
@[simp] theorem State.onTick_arb (f : Tick → Tick) : (s.onTick f).arb = s.arb := rfl
@[simp] theorem State.onTick_supply (f : Tick → Tick) : (s.onTick f).supply = s.supply := rfl
@[simp] theorem State.onTick_thermal (f : Tick → Tick) : (s.onTick f).thermal = s.thermal := rfl
@[simp] theorem State.onTick_adc (f : Tick → Tick) : (s.onTick f).adc = s.adc := rfl
@[simp] theorem State.onTick_free (f : Tick → Tick) : (s.onTick f).free = s.free := rfl

/-! `onBus` -/
@[simp] theorem State.onBus_pending (f : Bus → Bus) : (s.onBus f).pending = s.pending := rfl
@[simp] theorem State.onBus_nv (f : Bus → Bus) : (s.onBus f).nv = s.nv := rfl
@[simp] theorem State.onBus_boot (f : Bus → Bus) : (s.onBus f).boot = s.boot := rfl
@[simp] theorem State.onBus_opts (f : Bus → Bus) : (s.onBus f).opts = s.opts := rfl
@[simp] theorem State.onBus_tick (f : Bus → Bus) : (s.onBus f).tick = s.tick := rfl
@[simp] theorem State.onBus_spools (f : Bus → Bus) : (s.onBus f).spools = s.spools := rfl
@[simp] theorem State.onBus_sync (f : Bus → Bus) : (s.onBus f).sync = s.sync := rfl
@[simp] theorem State.onBus_bus (f : Bus → Bus) : (s.onBus f).bus = f s.bus := rfl
@[simp] theorem State.onBus_models (f : Bus → Bus) : (s.onBus f).models = s.models := rfl
@[simp] theorem State.onBus_sessions (f : Bus → Bus) : (s.onBus f).sessions = s.sessions := rfl
@[simp] theorem State.onBus_adapters (f : Bus → Bus) : (s.onBus f).adapters = s.adapters := rfl
@[simp] theorem State.onBus_kv (f : Bus → Bus) : (s.onBus f).kv = s.kv := rfl
@[simp] theorem State.onBus_pipe (f : Bus → Bus) : (s.onBus f).pipe = s.pipe := rfl
@[simp] theorem State.onBus_arr (f : Bus → Bus) : (s.onBus f).arr = s.arr := rfl
@[simp] theorem State.onBus_chk (f : Bus → Bus) : (s.onBus f).chk = s.chk := rfl
@[simp] theorem State.onBus_links (f : Bus → Bus) : (s.onBus f).links = s.links := rfl
@[simp] theorem State.onBus_ends (f : Bus → Bus) : (s.onBus f).ends = s.ends := rfl
@[simp] theorem State.onBus_cvu (f : Bus → Bus) : (s.onBus f).cvu = s.cvu := rfl
@[simp] theorem State.onBus_arb (f : Bus → Bus) : (s.onBus f).arb = s.arb := rfl
@[simp] theorem State.onBus_supply (f : Bus → Bus) : (s.onBus f).supply = s.supply := rfl
@[simp] theorem State.onBus_thermal (f : Bus → Bus) : (s.onBus f).thermal = s.thermal := rfl
@[simp] theorem State.onBus_adc (f : Bus → Bus) : (s.onBus f).adc = s.adc := rfl
@[simp] theorem State.onBus_free (f : Bus → Bus) : (s.onBus f).free = s.free := rfl

/-! `onKv` -/
@[simp] theorem State.onKv_pending (f : Kv → Kv) : (s.onKv f).pending = s.pending := rfl
@[simp] theorem State.onKv_nv (f : Kv → Kv) : (s.onKv f).nv = s.nv := rfl
@[simp] theorem State.onKv_boot (f : Kv → Kv) : (s.onKv f).boot = s.boot := rfl
@[simp] theorem State.onKv_opts (f : Kv → Kv) : (s.onKv f).opts = s.opts := rfl
@[simp] theorem State.onKv_tick (f : Kv → Kv) : (s.onKv f).tick = s.tick := rfl
@[simp] theorem State.onKv_spools (f : Kv → Kv) : (s.onKv f).spools = s.spools := rfl
@[simp] theorem State.onKv_sync (f : Kv → Kv) : (s.onKv f).sync = s.sync := rfl
@[simp] theorem State.onKv_bus (f : Kv → Kv) : (s.onKv f).bus = s.bus := rfl
@[simp] theorem State.onKv_models (f : Kv → Kv) : (s.onKv f).models = s.models := rfl
@[simp] theorem State.onKv_sessions (f : Kv → Kv) : (s.onKv f).sessions = s.sessions := rfl
@[simp] theorem State.onKv_adapters (f : Kv → Kv) : (s.onKv f).adapters = s.adapters := rfl
@[simp] theorem State.onKv_kv (f : Kv → Kv) : (s.onKv f).kv = f s.kv := rfl
@[simp] theorem State.onKv_pipe (f : Kv → Kv) : (s.onKv f).pipe = s.pipe := rfl
@[simp] theorem State.onKv_arr (f : Kv → Kv) : (s.onKv f).arr = s.arr := rfl
@[simp] theorem State.onKv_chk (f : Kv → Kv) : (s.onKv f).chk = s.chk := rfl
@[simp] theorem State.onKv_links (f : Kv → Kv) : (s.onKv f).links = s.links := rfl
@[simp] theorem State.onKv_ends (f : Kv → Kv) : (s.onKv f).ends = s.ends := rfl
@[simp] theorem State.onKv_cvu (f : Kv → Kv) : (s.onKv f).cvu = s.cvu := rfl
@[simp] theorem State.onKv_arb (f : Kv → Kv) : (s.onKv f).arb = s.arb := rfl
@[simp] theorem State.onKv_supply (f : Kv → Kv) : (s.onKv f).supply = s.supply := rfl
@[simp] theorem State.onKv_thermal (f : Kv → Kv) : (s.onKv f).thermal = s.thermal := rfl
@[simp] theorem State.onKv_adc (f : Kv → Kv) : (s.onKv f).adc = s.adc := rfl
@[simp] theorem State.onKv_free (f : Kv → Kv) : (s.onKv f).free = s.free := rfl

/-! `onPipe` -/
@[simp] theorem State.onPipe_pending (f : Pipe → Pipe) : (s.onPipe f).pending = s.pending := rfl
@[simp] theorem State.onPipe_nv (f : Pipe → Pipe) : (s.onPipe f).nv = s.nv := rfl
@[simp] theorem State.onPipe_boot (f : Pipe → Pipe) : (s.onPipe f).boot = s.boot := rfl
@[simp] theorem State.onPipe_opts (f : Pipe → Pipe) : (s.onPipe f).opts = s.opts := rfl
@[simp] theorem State.onPipe_tick (f : Pipe → Pipe) : (s.onPipe f).tick = s.tick := rfl
@[simp] theorem State.onPipe_spools (f : Pipe → Pipe) : (s.onPipe f).spools = s.spools := rfl
@[simp] theorem State.onPipe_sync (f : Pipe → Pipe) : (s.onPipe f).sync = s.sync := rfl
@[simp] theorem State.onPipe_bus (f : Pipe → Pipe) : (s.onPipe f).bus = s.bus := rfl
@[simp] theorem State.onPipe_models (f : Pipe → Pipe) : (s.onPipe f).models = s.models := rfl
@[simp] theorem State.onPipe_sessions (f : Pipe → Pipe) : (s.onPipe f).sessions = s.sessions := rfl
@[simp] theorem State.onPipe_adapters (f : Pipe → Pipe) : (s.onPipe f).adapters = s.adapters := rfl
@[simp] theorem State.onPipe_kv (f : Pipe → Pipe) : (s.onPipe f).kv = s.kv := rfl
@[simp] theorem State.onPipe_pipe (f : Pipe → Pipe) : (s.onPipe f).pipe = f s.pipe := rfl
@[simp] theorem State.onPipe_arr (f : Pipe → Pipe) : (s.onPipe f).arr = s.arr := rfl
@[simp] theorem State.onPipe_chk (f : Pipe → Pipe) : (s.onPipe f).chk = s.chk := rfl
@[simp] theorem State.onPipe_links (f : Pipe → Pipe) : (s.onPipe f).links = s.links := rfl
@[simp] theorem State.onPipe_ends (f : Pipe → Pipe) : (s.onPipe f).ends = s.ends := rfl
@[simp] theorem State.onPipe_cvu (f : Pipe → Pipe) : (s.onPipe f).cvu = s.cvu := rfl
@[simp] theorem State.onPipe_arb (f : Pipe → Pipe) : (s.onPipe f).arb = s.arb := rfl
@[simp] theorem State.onPipe_supply (f : Pipe → Pipe) : (s.onPipe f).supply = s.supply := rfl
@[simp] theorem State.onPipe_thermal (f : Pipe → Pipe) : (s.onPipe f).thermal = s.thermal := rfl
@[simp] theorem State.onPipe_adc (f : Pipe → Pipe) : (s.onPipe f).adc = s.adc := rfl
@[simp] theorem State.onPipe_free (f : Pipe → Pipe) : (s.onPipe f).free = s.free := rfl

/-! `onArr` -/
@[simp] theorem State.onArr_pending (f : Arrays → Arrays) : (s.onArr f).pending = s.pending := rfl
@[simp] theorem State.onArr_nv (f : Arrays → Arrays) : (s.onArr f).nv = s.nv := rfl
@[simp] theorem State.onArr_boot (f : Arrays → Arrays) : (s.onArr f).boot = s.boot := rfl
@[simp] theorem State.onArr_opts (f : Arrays → Arrays) : (s.onArr f).opts = s.opts := rfl
@[simp] theorem State.onArr_tick (f : Arrays → Arrays) : (s.onArr f).tick = s.tick := rfl
@[simp] theorem State.onArr_spools (f : Arrays → Arrays) : (s.onArr f).spools = s.spools := rfl
@[simp] theorem State.onArr_sync (f : Arrays → Arrays) : (s.onArr f).sync = s.sync := rfl
@[simp] theorem State.onArr_bus (f : Arrays → Arrays) : (s.onArr f).bus = s.bus := rfl
@[simp] theorem State.onArr_models (f : Arrays → Arrays) : (s.onArr f).models = s.models := rfl
@[simp] theorem State.onArr_sessions (f : Arrays → Arrays) : (s.onArr f).sessions = s.sessions := rfl
@[simp] theorem State.onArr_adapters (f : Arrays → Arrays) : (s.onArr f).adapters = s.adapters := rfl
@[simp] theorem State.onArr_kv (f : Arrays → Arrays) : (s.onArr f).kv = s.kv := rfl
@[simp] theorem State.onArr_pipe (f : Arrays → Arrays) : (s.onArr f).pipe = s.pipe := rfl
@[simp] theorem State.onArr_arr (f : Arrays → Arrays) : (s.onArr f).arr = f s.arr := rfl
@[simp] theorem State.onArr_chk (f : Arrays → Arrays) : (s.onArr f).chk = s.chk := rfl
@[simp] theorem State.onArr_links (f : Arrays → Arrays) : (s.onArr f).links = s.links := rfl
@[simp] theorem State.onArr_ends (f : Arrays → Arrays) : (s.onArr f).ends = s.ends := rfl
@[simp] theorem State.onArr_cvu (f : Arrays → Arrays) : (s.onArr f).cvu = s.cvu := rfl
@[simp] theorem State.onArr_arb (f : Arrays → Arrays) : (s.onArr f).arb = s.arb := rfl
@[simp] theorem State.onArr_supply (f : Arrays → Arrays) : (s.onArr f).supply = s.supply := rfl
@[simp] theorem State.onArr_thermal (f : Arrays → Arrays) : (s.onArr f).thermal = s.thermal := rfl
@[simp] theorem State.onArr_adc (f : Arrays → Arrays) : (s.onArr f).adc = s.adc := rfl
@[simp] theorem State.onArr_free (f : Arrays → Arrays) : (s.onArr f).free = s.free := rfl

/-! `onChk` -/
@[simp] theorem State.onChk_pending (f : Checks → Checks) : (s.onChk f).pending = s.pending := rfl
@[simp] theorem State.onChk_nv (f : Checks → Checks) : (s.onChk f).nv = s.nv := rfl
@[simp] theorem State.onChk_boot (f : Checks → Checks) : (s.onChk f).boot = s.boot := rfl
@[simp] theorem State.onChk_opts (f : Checks → Checks) : (s.onChk f).opts = s.opts := rfl
@[simp] theorem State.onChk_tick (f : Checks → Checks) : (s.onChk f).tick = s.tick := rfl
@[simp] theorem State.onChk_spools (f : Checks → Checks) : (s.onChk f).spools = s.spools := rfl
@[simp] theorem State.onChk_sync (f : Checks → Checks) : (s.onChk f).sync = s.sync := rfl
@[simp] theorem State.onChk_bus (f : Checks → Checks) : (s.onChk f).bus = s.bus := rfl
@[simp] theorem State.onChk_models (f : Checks → Checks) : (s.onChk f).models = s.models := rfl
@[simp] theorem State.onChk_sessions (f : Checks → Checks) : (s.onChk f).sessions = s.sessions := rfl
@[simp] theorem State.onChk_adapters (f : Checks → Checks) : (s.onChk f).adapters = s.adapters := rfl
@[simp] theorem State.onChk_kv (f : Checks → Checks) : (s.onChk f).kv = s.kv := rfl
@[simp] theorem State.onChk_pipe (f : Checks → Checks) : (s.onChk f).pipe = s.pipe := rfl
@[simp] theorem State.onChk_arr (f : Checks → Checks) : (s.onChk f).arr = s.arr := rfl
@[simp] theorem State.onChk_chk (f : Checks → Checks) : (s.onChk f).chk = f s.chk := rfl
@[simp] theorem State.onChk_links (f : Checks → Checks) : (s.onChk f).links = s.links := rfl
@[simp] theorem State.onChk_ends (f : Checks → Checks) : (s.onChk f).ends = s.ends := rfl
@[simp] theorem State.onChk_cvu (f : Checks → Checks) : (s.onChk f).cvu = s.cvu := rfl
@[simp] theorem State.onChk_arb (f : Checks → Checks) : (s.onChk f).arb = s.arb := rfl
@[simp] theorem State.onChk_supply (f : Checks → Checks) : (s.onChk f).supply = s.supply := rfl
@[simp] theorem State.onChk_thermal (f : Checks → Checks) : (s.onChk f).thermal = s.thermal := rfl
@[simp] theorem State.onChk_adc (f : Checks → Checks) : (s.onChk f).adc = s.adc := rfl
@[simp] theorem State.onChk_free (f : Checks → Checks) : (s.onChk f).free = s.free := rfl

/-! `onArb` -/
@[simp] theorem State.onArb_pending (f : Arb → Arb) : (s.onArb f).pending = s.pending := rfl
@[simp] theorem State.onArb_nv (f : Arb → Arb) : (s.onArb f).nv = s.nv := rfl
@[simp] theorem State.onArb_boot (f : Arb → Arb) : (s.onArb f).boot = s.boot := rfl
@[simp] theorem State.onArb_opts (f : Arb → Arb) : (s.onArb f).opts = s.opts := rfl
@[simp] theorem State.onArb_tick (f : Arb → Arb) : (s.onArb f).tick = s.tick := rfl
@[simp] theorem State.onArb_spools (f : Arb → Arb) : (s.onArb f).spools = s.spools := rfl
@[simp] theorem State.onArb_sync (f : Arb → Arb) : (s.onArb f).sync = s.sync := rfl
@[simp] theorem State.onArb_bus (f : Arb → Arb) : (s.onArb f).bus = s.bus := rfl
@[simp] theorem State.onArb_models (f : Arb → Arb) : (s.onArb f).models = s.models := rfl
@[simp] theorem State.onArb_sessions (f : Arb → Arb) : (s.onArb f).sessions = s.sessions := rfl
@[simp] theorem State.onArb_adapters (f : Arb → Arb) : (s.onArb f).adapters = s.adapters := rfl
@[simp] theorem State.onArb_kv (f : Arb → Arb) : (s.onArb f).kv = s.kv := rfl
@[simp] theorem State.onArb_pipe (f : Arb → Arb) : (s.onArb f).pipe = s.pipe := rfl
@[simp] theorem State.onArb_arr (f : Arb → Arb) : (s.onArb f).arr = s.arr := rfl
@[simp] theorem State.onArb_chk (f : Arb → Arb) : (s.onArb f).chk = s.chk := rfl
@[simp] theorem State.onArb_links (f : Arb → Arb) : (s.onArb f).links = s.links := rfl
@[simp] theorem State.onArb_ends (f : Arb → Arb) : (s.onArb f).ends = s.ends := rfl
@[simp] theorem State.onArb_cvu (f : Arb → Arb) : (s.onArb f).cvu = s.cvu := rfl
@[simp] theorem State.onArb_arb (f : Arb → Arb) : (s.onArb f).arb = f s.arb := rfl
@[simp] theorem State.onArb_supply (f : Arb → Arb) : (s.onArb f).supply = s.supply := rfl
@[simp] theorem State.onArb_thermal (f : Arb → Arb) : (s.onArb f).thermal = s.thermal := rfl
@[simp] theorem State.onArb_adc (f : Arb → Arb) : (s.onArb f).adc = s.adc := rfl
@[simp] theorem State.onArb_free (f : Arb → Arb) : (s.onArb f).free = s.free := rfl

/-! `onSupply` -/
@[simp] theorem State.onSupply_pending (f : Supply → Supply) : (s.onSupply f).pending = s.pending := rfl
@[simp] theorem State.onSupply_nv (f : Supply → Supply) : (s.onSupply f).nv = s.nv := rfl
@[simp] theorem State.onSupply_boot (f : Supply → Supply) : (s.onSupply f).boot = s.boot := rfl
@[simp] theorem State.onSupply_opts (f : Supply → Supply) : (s.onSupply f).opts = s.opts := rfl
@[simp] theorem State.onSupply_tick (f : Supply → Supply) : (s.onSupply f).tick = s.tick := rfl
@[simp] theorem State.onSupply_spools (f : Supply → Supply) : (s.onSupply f).spools = s.spools := rfl
@[simp] theorem State.onSupply_sync (f : Supply → Supply) : (s.onSupply f).sync = s.sync := rfl
@[simp] theorem State.onSupply_bus (f : Supply → Supply) : (s.onSupply f).bus = s.bus := rfl
@[simp] theorem State.onSupply_models (f : Supply → Supply) : (s.onSupply f).models = s.models := rfl
@[simp] theorem State.onSupply_sessions (f : Supply → Supply) : (s.onSupply f).sessions = s.sessions := rfl
@[simp] theorem State.onSupply_adapters (f : Supply → Supply) : (s.onSupply f).adapters = s.adapters := rfl
@[simp] theorem State.onSupply_kv (f : Supply → Supply) : (s.onSupply f).kv = s.kv := rfl
@[simp] theorem State.onSupply_pipe (f : Supply → Supply) : (s.onSupply f).pipe = s.pipe := rfl
@[simp] theorem State.onSupply_arr (f : Supply → Supply) : (s.onSupply f).arr = s.arr := rfl
@[simp] theorem State.onSupply_chk (f : Supply → Supply) : (s.onSupply f).chk = s.chk := rfl
@[simp] theorem State.onSupply_links (f : Supply → Supply) : (s.onSupply f).links = s.links := rfl
@[simp] theorem State.onSupply_ends (f : Supply → Supply) : (s.onSupply f).ends = s.ends := rfl
@[simp] theorem State.onSupply_cvu (f : Supply → Supply) : (s.onSupply f).cvu = s.cvu := rfl
@[simp] theorem State.onSupply_arb (f : Supply → Supply) : (s.onSupply f).arb = s.arb := rfl
@[simp] theorem State.onSupply_supply (f : Supply → Supply) : (s.onSupply f).supply = f s.supply := rfl
@[simp] theorem State.onSupply_thermal (f : Supply → Supply) : (s.onSupply f).thermal = s.thermal := rfl
@[simp] theorem State.onSupply_adc (f : Supply → Supply) : (s.onSupply f).adc = s.adc := rfl
@[simp] theorem State.onSupply_free (f : Supply → Supply) : (s.onSupply f).free = s.free := rfl

/-! `onThermal` -/
@[simp] theorem State.onThermal_pending (f : Thermal → Thermal) : (s.onThermal f).pending = s.pending := rfl
@[simp] theorem State.onThermal_nv (f : Thermal → Thermal) : (s.onThermal f).nv = s.nv := rfl
@[simp] theorem State.onThermal_boot (f : Thermal → Thermal) : (s.onThermal f).boot = s.boot := rfl
@[simp] theorem State.onThermal_opts (f : Thermal → Thermal) : (s.onThermal f).opts = s.opts := rfl
@[simp] theorem State.onThermal_tick (f : Thermal → Thermal) : (s.onThermal f).tick = s.tick := rfl
@[simp] theorem State.onThermal_spools (f : Thermal → Thermal) : (s.onThermal f).spools = s.spools := rfl
@[simp] theorem State.onThermal_sync (f : Thermal → Thermal) : (s.onThermal f).sync = s.sync := rfl
@[simp] theorem State.onThermal_bus (f : Thermal → Thermal) : (s.onThermal f).bus = s.bus := rfl
@[simp] theorem State.onThermal_models (f : Thermal → Thermal) : (s.onThermal f).models = s.models := rfl
@[simp] theorem State.onThermal_sessions (f : Thermal → Thermal) : (s.onThermal f).sessions = s.sessions := rfl
@[simp] theorem State.onThermal_adapters (f : Thermal → Thermal) : (s.onThermal f).adapters = s.adapters := rfl
@[simp] theorem State.onThermal_kv (f : Thermal → Thermal) : (s.onThermal f).kv = s.kv := rfl
@[simp] theorem State.onThermal_pipe (f : Thermal → Thermal) : (s.onThermal f).pipe = s.pipe := rfl
@[simp] theorem State.onThermal_arr (f : Thermal → Thermal) : (s.onThermal f).arr = s.arr := rfl
@[simp] theorem State.onThermal_chk (f : Thermal → Thermal) : (s.onThermal f).chk = s.chk := rfl
@[simp] theorem State.onThermal_links (f : Thermal → Thermal) : (s.onThermal f).links = s.links := rfl
@[simp] theorem State.onThermal_ends (f : Thermal → Thermal) : (s.onThermal f).ends = s.ends := rfl
@[simp] theorem State.onThermal_cvu (f : Thermal → Thermal) : (s.onThermal f).cvu = s.cvu := rfl
@[simp] theorem State.onThermal_arb (f : Thermal → Thermal) : (s.onThermal f).arb = s.arb := rfl
@[simp] theorem State.onThermal_supply (f : Thermal → Thermal) : (s.onThermal f).supply = s.supply := rfl
@[simp] theorem State.onThermal_thermal (f : Thermal → Thermal) : (s.onThermal f).thermal = f s.thermal := rfl
@[simp] theorem State.onThermal_adc (f : Thermal → Thermal) : (s.onThermal f).adc = s.adc := rfl
@[simp] theorem State.onThermal_free (f : Thermal → Thermal) : (s.onThermal f).free = s.free := rfl

/-! `onAdc` -/
@[simp] theorem State.onAdc_pending (f : Adc → Adc) : (s.onAdc f).pending = s.pending := rfl
@[simp] theorem State.onAdc_nv (f : Adc → Adc) : (s.onAdc f).nv = s.nv := rfl
@[simp] theorem State.onAdc_boot (f : Adc → Adc) : (s.onAdc f).boot = s.boot := rfl
@[simp] theorem State.onAdc_opts (f : Adc → Adc) : (s.onAdc f).opts = s.opts := rfl
@[simp] theorem State.onAdc_tick (f : Adc → Adc) : (s.onAdc f).tick = s.tick := rfl
@[simp] theorem State.onAdc_spools (f : Adc → Adc) : (s.onAdc f).spools = s.spools := rfl
@[simp] theorem State.onAdc_sync (f : Adc → Adc) : (s.onAdc f).sync = s.sync := rfl
@[simp] theorem State.onAdc_bus (f : Adc → Adc) : (s.onAdc f).bus = s.bus := rfl
@[simp] theorem State.onAdc_models (f : Adc → Adc) : (s.onAdc f).models = s.models := rfl
@[simp] theorem State.onAdc_sessions (f : Adc → Adc) : (s.onAdc f).sessions = s.sessions := rfl
@[simp] theorem State.onAdc_adapters (f : Adc → Adc) : (s.onAdc f).adapters = s.adapters := rfl
@[simp] theorem State.onAdc_kv (f : Adc → Adc) : (s.onAdc f).kv = s.kv := rfl
@[simp] theorem State.onAdc_pipe (f : Adc → Adc) : (s.onAdc f).pipe = s.pipe := rfl
@[simp] theorem State.onAdc_arr (f : Adc → Adc) : (s.onAdc f).arr = s.arr := rfl
@[simp] theorem State.onAdc_chk (f : Adc → Adc) : (s.onAdc f).chk = s.chk := rfl
@[simp] theorem State.onAdc_links (f : Adc → Adc) : (s.onAdc f).links = s.links := rfl
@[simp] theorem State.onAdc_ends (f : Adc → Adc) : (s.onAdc f).ends = s.ends := rfl
@[simp] theorem State.onAdc_cvu (f : Adc → Adc) : (s.onAdc f).cvu = s.cvu := rfl
@[simp] theorem State.onAdc_arb (f : Adc → Adc) : (s.onAdc f).arb = s.arb := rfl
@[simp] theorem State.onAdc_supply (f : Adc → Adc) : (s.onAdc f).supply = s.supply := rfl
@[simp] theorem State.onAdc_thermal (f : Adc → Adc) : (s.onAdc f).thermal = s.thermal := rfl
@[simp] theorem State.onAdc_adc (f : Adc → Adc) : (s.onAdc f).adc = f s.adc := rfl
@[simp] theorem State.onAdc_free (f : Adc → Adc) : (s.onAdc f).free = s.free := rfl

/-! `onSpool` -/
@[simp] theorem State.onSpool_pending (k : Nat) (f : Spool → Spool) : (s.onSpool k f).pending = s.pending := rfl
@[simp] theorem State.onSpool_nv (k : Nat) (f : Spool → Spool) : (s.onSpool k f).nv = s.nv := rfl
@[simp] theorem State.onSpool_boot (k : Nat) (f : Spool → Spool) : (s.onSpool k f).boot = s.boot := rfl
@[simp] theorem State.onSpool_opts (k : Nat) (f : Spool → Spool) : (s.onSpool k f).opts = s.opts := rfl
@[simp] theorem State.onSpool_tick (k : Nat) (f : Spool → Spool) : (s.onSpool k f).tick = s.tick := rfl
@[simp] theorem State.onSpool_spools (k : Nat) (f : Spool → Spool) : (s.onSpool k f).spools = s.spools.upd Spool.init k f := rfl
@[simp] theorem State.onSpool_sync (k : Nat) (f : Spool → Spool) : (s.onSpool k f).sync = s.sync := rfl
@[simp] theorem State.onSpool_bus (k : Nat) (f : Spool → Spool) : (s.onSpool k f).bus = s.bus := rfl
@[simp] theorem State.onSpool_models (k : Nat) (f : Spool → Spool) : (s.onSpool k f).models = s.models := rfl
@[simp] theorem State.onSpool_sessions (k : Nat) (f : Spool → Spool) : (s.onSpool k f).sessions = s.sessions := rfl
@[simp] theorem State.onSpool_adapters (k : Nat) (f : Spool → Spool) : (s.onSpool k f).adapters = s.adapters := rfl
@[simp] theorem State.onSpool_kv (k : Nat) (f : Spool → Spool) : (s.onSpool k f).kv = s.kv := rfl
@[simp] theorem State.onSpool_pipe (k : Nat) (f : Spool → Spool) : (s.onSpool k f).pipe = s.pipe := rfl
@[simp] theorem State.onSpool_arr (k : Nat) (f : Spool → Spool) : (s.onSpool k f).arr = s.arr := rfl
@[simp] theorem State.onSpool_chk (k : Nat) (f : Spool → Spool) : (s.onSpool k f).chk = s.chk := rfl
@[simp] theorem State.onSpool_links (k : Nat) (f : Spool → Spool) : (s.onSpool k f).links = s.links := rfl
@[simp] theorem State.onSpool_ends (k : Nat) (f : Spool → Spool) : (s.onSpool k f).ends = s.ends := rfl
@[simp] theorem State.onSpool_cvu (k : Nat) (f : Spool → Spool) : (s.onSpool k f).cvu = s.cvu := rfl
@[simp] theorem State.onSpool_arb (k : Nat) (f : Spool → Spool) : (s.onSpool k f).arb = s.arb := rfl
@[simp] theorem State.onSpool_supply (k : Nat) (f : Spool → Spool) : (s.onSpool k f).supply = s.supply := rfl
@[simp] theorem State.onSpool_thermal (k : Nat) (f : Spool → Spool) : (s.onSpool k f).thermal = s.thermal := rfl
@[simp] theorem State.onSpool_adc (k : Nat) (f : Spool → Spool) : (s.onSpool k f).adc = s.adc := rfl
@[simp] theorem State.onSpool_free (k : Nat) (f : Spool → Spool) : (s.onSpool k f).free = s.free := rfl

/-! `onModel` -/
@[simp] theorem State.onModel_pending (k : Nat) (f : Model → Model) : (s.onModel k f).pending = s.pending := rfl
@[simp] theorem State.onModel_nv (k : Nat) (f : Model → Model) : (s.onModel k f).nv = s.nv := rfl
@[simp] theorem State.onModel_boot (k : Nat) (f : Model → Model) : (s.onModel k f).boot = s.boot := rfl
@[simp] theorem State.onModel_opts (k : Nat) (f : Model → Model) : (s.onModel k f).opts = s.opts := rfl
@[simp] theorem State.onModel_tick (k : Nat) (f : Model → Model) : (s.onModel k f).tick = s.tick := rfl
@[simp] theorem State.onModel_spools (k : Nat) (f : Model → Model) : (s.onModel k f).spools = s.spools := rfl
@[simp] theorem State.onModel_sync (k : Nat) (f : Model → Model) : (s.onModel k f).sync = s.sync := rfl
@[simp] theorem State.onModel_bus (k : Nat) (f : Model → Model) : (s.onModel k f).bus = s.bus := rfl
@[simp] theorem State.onModel_models (k : Nat) (f : Model → Model) : (s.onModel k f).models = s.models.upd Model.init k f := rfl
@[simp] theorem State.onModel_sessions (k : Nat) (f : Model → Model) : (s.onModel k f).sessions = s.sessions := rfl
@[simp] theorem State.onModel_adapters (k : Nat) (f : Model → Model) : (s.onModel k f).adapters = s.adapters := rfl
@[simp] theorem State.onModel_kv (k : Nat) (f : Model → Model) : (s.onModel k f).kv = s.kv := rfl
@[simp] theorem State.onModel_pipe (k : Nat) (f : Model → Model) : (s.onModel k f).pipe = s.pipe := rfl
@[simp] theorem State.onModel_arr (k : Nat) (f : Model → Model) : (s.onModel k f).arr = s.arr := rfl
@[simp] theorem State.onModel_chk (k : Nat) (f : Model → Model) : (s.onModel k f).chk = s.chk := rfl
@[simp] theorem State.onModel_links (k : Nat) (f : Model → Model) : (s.onModel k f).links = s.links := rfl
@[simp] theorem State.onModel_ends (k : Nat) (f : Model → Model) : (s.onModel k f).ends = s.ends := rfl
@[simp] theorem State.onModel_cvu (k : Nat) (f : Model → Model) : (s.onModel k f).cvu = s.cvu := rfl
@[simp] theorem State.onModel_arb (k : Nat) (f : Model → Model) : (s.onModel k f).arb = s.arb := rfl
@[simp] theorem State.onModel_supply (k : Nat) (f : Model → Model) : (s.onModel k f).supply = s.supply := rfl
@[simp] theorem State.onModel_thermal (k : Nat) (f : Model → Model) : (s.onModel k f).thermal = s.thermal := rfl
@[simp] theorem State.onModel_adc (k : Nat) (f : Model → Model) : (s.onModel k f).adc = s.adc := rfl
@[simp] theorem State.onModel_free (k : Nat) (f : Model → Model) : (s.onModel k f).free = s.free := rfl

/-! `onSess` -/
@[simp] theorem State.onSess_pending (k : Nat) (f : Session → Session) : (s.onSess k f).pending = s.pending := rfl
@[simp] theorem State.onSess_nv (k : Nat) (f : Session → Session) : (s.onSess k f).nv = s.nv := rfl
@[simp] theorem State.onSess_boot (k : Nat) (f : Session → Session) : (s.onSess k f).boot = s.boot := rfl
@[simp] theorem State.onSess_opts (k : Nat) (f : Session → Session) : (s.onSess k f).opts = s.opts := rfl
@[simp] theorem State.onSess_tick (k : Nat) (f : Session → Session) : (s.onSess k f).tick = s.tick := rfl
@[simp] theorem State.onSess_spools (k : Nat) (f : Session → Session) : (s.onSess k f).spools = s.spools := rfl
@[simp] theorem State.onSess_sync (k : Nat) (f : Session → Session) : (s.onSess k f).sync = s.sync := rfl
@[simp] theorem State.onSess_bus (k : Nat) (f : Session → Session) : (s.onSess k f).bus = s.bus := rfl
@[simp] theorem State.onSess_models (k : Nat) (f : Session → Session) : (s.onSess k f).models = s.models := rfl
@[simp] theorem State.onSess_sessions (k : Nat) (f : Session → Session) : (s.onSess k f).sessions = s.sessions.upd Session.init k f := rfl
@[simp] theorem State.onSess_adapters (k : Nat) (f : Session → Session) : (s.onSess k f).adapters = s.adapters := rfl
@[simp] theorem State.onSess_kv (k : Nat) (f : Session → Session) : (s.onSess k f).kv = s.kv := rfl
@[simp] theorem State.onSess_pipe (k : Nat) (f : Session → Session) : (s.onSess k f).pipe = s.pipe := rfl
@[simp] theorem State.onSess_arr (k : Nat) (f : Session → Session) : (s.onSess k f).arr = s.arr := rfl
@[simp] theorem State.onSess_chk (k : Nat) (f : Session → Session) : (s.onSess k f).chk = s.chk := rfl
@[simp] theorem State.onSess_links (k : Nat) (f : Session → Session) : (s.onSess k f).links = s.links := rfl
@[simp] theorem State.onSess_ends (k : Nat) (f : Session → Session) : (s.onSess k f).ends = s.ends := rfl
@[simp] theorem State.onSess_cvu (k : Nat) (f : Session → Session) : (s.onSess k f).cvu = s.cvu := rfl
@[simp] theorem State.onSess_arb (k : Nat) (f : Session → Session) : (s.onSess k f).arb = s.arb := rfl
@[simp] theorem State.onSess_supply (k : Nat) (f : Session → Session) : (s.onSess k f).supply = s.supply := rfl
@[simp] theorem State.onSess_thermal (k : Nat) (f : Session → Session) : (s.onSess k f).thermal = s.thermal := rfl
@[simp] theorem State.onSess_adc (k : Nat) (f : Session → Session) : (s.onSess k f).adc = s.adc := rfl
@[simp] theorem State.onSess_free (k : Nat) (f : Session → Session) : (s.onSess k f).free = s.free := rfl

/-! `onAdapter` -/
@[simp] theorem State.onAdapter_pending (k : Nat) (f : Adapter → Adapter) : (s.onAdapter k f).pending = s.pending := rfl
@[simp] theorem State.onAdapter_nv (k : Nat) (f : Adapter → Adapter) : (s.onAdapter k f).nv = s.nv := rfl
@[simp] theorem State.onAdapter_boot (k : Nat) (f : Adapter → Adapter) : (s.onAdapter k f).boot = s.boot := rfl
@[simp] theorem State.onAdapter_opts (k : Nat) (f : Adapter → Adapter) : (s.onAdapter k f).opts = s.opts := rfl
@[simp] theorem State.onAdapter_tick (k : Nat) (f : Adapter → Adapter) : (s.onAdapter k f).tick = s.tick := rfl
@[simp] theorem State.onAdapter_spools (k : Nat) (f : Adapter → Adapter) : (s.onAdapter k f).spools = s.spools := rfl
@[simp] theorem State.onAdapter_sync (k : Nat) (f : Adapter → Adapter) : (s.onAdapter k f).sync = s.sync := rfl
@[simp] theorem State.onAdapter_bus (k : Nat) (f : Adapter → Adapter) : (s.onAdapter k f).bus = s.bus := rfl
@[simp] theorem State.onAdapter_models (k : Nat) (f : Adapter → Adapter) : (s.onAdapter k f).models = s.models := rfl
@[simp] theorem State.onAdapter_sessions (k : Nat) (f : Adapter → Adapter) : (s.onAdapter k f).sessions = s.sessions := rfl
@[simp] theorem State.onAdapter_adapters (k : Nat) (f : Adapter → Adapter) : (s.onAdapter k f).adapters = s.adapters.upd Adapter.init k f := rfl
@[simp] theorem State.onAdapter_kv (k : Nat) (f : Adapter → Adapter) : (s.onAdapter k f).kv = s.kv := rfl
@[simp] theorem State.onAdapter_pipe (k : Nat) (f : Adapter → Adapter) : (s.onAdapter k f).pipe = s.pipe := rfl
@[simp] theorem State.onAdapter_arr (k : Nat) (f : Adapter → Adapter) : (s.onAdapter k f).arr = s.arr := rfl
@[simp] theorem State.onAdapter_chk (k : Nat) (f : Adapter → Adapter) : (s.onAdapter k f).chk = s.chk := rfl
@[simp] theorem State.onAdapter_links (k : Nat) (f : Adapter → Adapter) : (s.onAdapter k f).links = s.links := rfl
@[simp] theorem State.onAdapter_ends (k : Nat) (f : Adapter → Adapter) : (s.onAdapter k f).ends = s.ends := rfl
@[simp] theorem State.onAdapter_cvu (k : Nat) (f : Adapter → Adapter) : (s.onAdapter k f).cvu = s.cvu := rfl
@[simp] theorem State.onAdapter_arb (k : Nat) (f : Adapter → Adapter) : (s.onAdapter k f).arb = s.arb := rfl
@[simp] theorem State.onAdapter_supply (k : Nat) (f : Adapter → Adapter) : (s.onAdapter k f).supply = s.supply := rfl
@[simp] theorem State.onAdapter_thermal (k : Nat) (f : Adapter → Adapter) : (s.onAdapter k f).thermal = s.thermal := rfl
@[simp] theorem State.onAdapter_adc (k : Nat) (f : Adapter → Adapter) : (s.onAdapter k f).adc = s.adc := rfl
@[simp] theorem State.onAdapter_free (k : Nat) (f : Adapter → Adapter) : (s.onAdapter k f).free = s.free := rfl

/-! `onLink` -/
@[simp] theorem State.onLink_pending (k : Nat) (f : Link → Link) : (s.onLink k f).pending = s.pending := rfl
@[simp] theorem State.onLink_nv (k : Nat) (f : Link → Link) : (s.onLink k f).nv = s.nv := rfl
@[simp] theorem State.onLink_boot (k : Nat) (f : Link → Link) : (s.onLink k f).boot = s.boot := rfl
@[simp] theorem State.onLink_opts (k : Nat) (f : Link → Link) : (s.onLink k f).opts = s.opts := rfl
@[simp] theorem State.onLink_tick (k : Nat) (f : Link → Link) : (s.onLink k f).tick = s.tick := rfl
@[simp] theorem State.onLink_spools (k : Nat) (f : Link → Link) : (s.onLink k f).spools = s.spools := rfl
@[simp] theorem State.onLink_sync (k : Nat) (f : Link → Link) : (s.onLink k f).sync = s.sync := rfl
@[simp] theorem State.onLink_bus (k : Nat) (f : Link → Link) : (s.onLink k f).bus = s.bus := rfl
@[simp] theorem State.onLink_models (k : Nat) (f : Link → Link) : (s.onLink k f).models = s.models := rfl
@[simp] theorem State.onLink_sessions (k : Nat) (f : Link → Link) : (s.onLink k f).sessions = s.sessions := rfl
@[simp] theorem State.onLink_adapters (k : Nat) (f : Link → Link) : (s.onLink k f).adapters = s.adapters := rfl
@[simp] theorem State.onLink_kv (k : Nat) (f : Link → Link) : (s.onLink k f).kv = s.kv := rfl
@[simp] theorem State.onLink_pipe (k : Nat) (f : Link → Link) : (s.onLink k f).pipe = s.pipe := rfl
@[simp] theorem State.onLink_arr (k : Nat) (f : Link → Link) : (s.onLink k f).arr = s.arr := rfl
@[simp] theorem State.onLink_chk (k : Nat) (f : Link → Link) : (s.onLink k f).chk = s.chk := rfl
@[simp] theorem State.onLink_links (k : Nat) (f : Link → Link) : (s.onLink k f).links = s.links.upd Link.init k f := rfl
@[simp] theorem State.onLink_ends (k : Nat) (f : Link → Link) : (s.onLink k f).ends = s.ends := rfl
@[simp] theorem State.onLink_cvu (k : Nat) (f : Link → Link) : (s.onLink k f).cvu = s.cvu := rfl
@[simp] theorem State.onLink_arb (k : Nat) (f : Link → Link) : (s.onLink k f).arb = s.arb := rfl
@[simp] theorem State.onLink_supply (k : Nat) (f : Link → Link) : (s.onLink k f).supply = s.supply := rfl
@[simp] theorem State.onLink_thermal (k : Nat) (f : Link → Link) : (s.onLink k f).thermal = s.thermal := rfl
@[simp] theorem State.onLink_adc (k : Nat) (f : Link → Link) : (s.onLink k f).adc = s.adc := rfl
@[simp] theorem State.onLink_free (k : Nat) (f : Link → Link) : (s.onLink k f).free = s.free := rfl

/-! `onEnd` -/
@[simp] theorem State.onEnd_pending (k : Nat) (f : LinkEnd → LinkEnd) : (s.onEnd k f).pending = s.pending := rfl
@[simp] theorem State.onEnd_nv (k : Nat) (f : LinkEnd → LinkEnd) : (s.onEnd k f).nv = s.nv := rfl
@[simp] theorem State.onEnd_boot (k : Nat) (f : LinkEnd → LinkEnd) : (s.onEnd k f).boot = s.boot := rfl
@[simp] theorem State.onEnd_opts (k : Nat) (f : LinkEnd → LinkEnd) : (s.onEnd k f).opts = s.opts := rfl
@[simp] theorem State.onEnd_tick (k : Nat) (f : LinkEnd → LinkEnd) : (s.onEnd k f).tick = s.tick := rfl
@[simp] theorem State.onEnd_spools (k : Nat) (f : LinkEnd → LinkEnd) : (s.onEnd k f).spools = s.spools := rfl
@[simp] theorem State.onEnd_sync (k : Nat) (f : LinkEnd → LinkEnd) : (s.onEnd k f).sync = s.sync := rfl
@[simp] theorem State.onEnd_bus (k : Nat) (f : LinkEnd → LinkEnd) : (s.onEnd k f).bus = s.bus := rfl
@[simp] theorem State.onEnd_models (k : Nat) (f : LinkEnd → LinkEnd) : (s.onEnd k f).models = s.models := rfl
@[simp] theorem State.onEnd_sessions (k : Nat) (f : LinkEnd → LinkEnd) : (s.onEnd k f).sessions = s.sessions := rfl
@[simp] theorem State.onEnd_adapters (k : Nat) (f : LinkEnd → LinkEnd) : (s.onEnd k f).adapters = s.adapters := rfl
@[simp] theorem State.onEnd_kv (k : Nat) (f : LinkEnd → LinkEnd) : (s.onEnd k f).kv = s.kv := rfl
@[simp] theorem State.onEnd_pipe (k : Nat) (f : LinkEnd → LinkEnd) : (s.onEnd k f).pipe = s.pipe := rfl
@[simp] theorem State.onEnd_arr (k : Nat) (f : LinkEnd → LinkEnd) : (s.onEnd k f).arr = s.arr := rfl
@[simp] theorem State.onEnd_chk (k : Nat) (f : LinkEnd → LinkEnd) : (s.onEnd k f).chk = s.chk := rfl
@[simp] theorem State.onEnd_links (k : Nat) (f : LinkEnd → LinkEnd) : (s.onEnd k f).links = s.links := rfl
@[simp] theorem State.onEnd_ends (k : Nat) (f : LinkEnd → LinkEnd) : (s.onEnd k f).ends = s.ends.upd LinkEnd.init k f := rfl
@[simp] theorem State.onEnd_cvu (k : Nat) (f : LinkEnd → LinkEnd) : (s.onEnd k f).cvu = s.cvu := rfl
@[simp] theorem State.onEnd_arb (k : Nat) (f : LinkEnd → LinkEnd) : (s.onEnd k f).arb = s.arb := rfl
@[simp] theorem State.onEnd_supply (k : Nat) (f : LinkEnd → LinkEnd) : (s.onEnd k f).supply = s.supply := rfl
@[simp] theorem State.onEnd_thermal (k : Nat) (f : LinkEnd → LinkEnd) : (s.onEnd k f).thermal = s.thermal := rfl
@[simp] theorem State.onEnd_adc (k : Nat) (f : LinkEnd → LinkEnd) : (s.onEnd k f).adc = s.adc := rfl
@[simp] theorem State.onEnd_free (k : Nat) (f : LinkEnd → LinkEnd) : (s.onEnd k f).free = s.free := rfl

/-! `onCvu` -/
@[simp] theorem State.onCvu_pending (k : Nat) (f : Cvu → Cvu) : (s.onCvu k f).pending = s.pending := rfl
@[simp] theorem State.onCvu_nv (k : Nat) (f : Cvu → Cvu) : (s.onCvu k f).nv = s.nv := rfl
@[simp] theorem State.onCvu_boot (k : Nat) (f : Cvu → Cvu) : (s.onCvu k f).boot = s.boot := rfl
@[simp] theorem State.onCvu_opts (k : Nat) (f : Cvu → Cvu) : (s.onCvu k f).opts = s.opts := rfl
@[simp] theorem State.onCvu_tick (k : Nat) (f : Cvu → Cvu) : (s.onCvu k f).tick = s.tick := rfl
@[simp] theorem State.onCvu_spools (k : Nat) (f : Cvu → Cvu) : (s.onCvu k f).spools = s.spools := rfl
@[simp] theorem State.onCvu_sync (k : Nat) (f : Cvu → Cvu) : (s.onCvu k f).sync = s.sync := rfl
@[simp] theorem State.onCvu_bus (k : Nat) (f : Cvu → Cvu) : (s.onCvu k f).bus = s.bus := rfl
@[simp] theorem State.onCvu_models (k : Nat) (f : Cvu → Cvu) : (s.onCvu k f).models = s.models := rfl
@[simp] theorem State.onCvu_sessions (k : Nat) (f : Cvu → Cvu) : (s.onCvu k f).sessions = s.sessions := rfl
@[simp] theorem State.onCvu_adapters (k : Nat) (f : Cvu → Cvu) : (s.onCvu k f).adapters = s.adapters := rfl
@[simp] theorem State.onCvu_kv (k : Nat) (f : Cvu → Cvu) : (s.onCvu k f).kv = s.kv := rfl
@[simp] theorem State.onCvu_pipe (k : Nat) (f : Cvu → Cvu) : (s.onCvu k f).pipe = s.pipe := rfl
@[simp] theorem State.onCvu_arr (k : Nat) (f : Cvu → Cvu) : (s.onCvu k f).arr = s.arr := rfl
@[simp] theorem State.onCvu_chk (k : Nat) (f : Cvu → Cvu) : (s.onCvu k f).chk = s.chk := rfl
@[simp] theorem State.onCvu_links (k : Nat) (f : Cvu → Cvu) : (s.onCvu k f).links = s.links := rfl
@[simp] theorem State.onCvu_ends (k : Nat) (f : Cvu → Cvu) : (s.onCvu k f).ends = s.ends := rfl
@[simp] theorem State.onCvu_cvu (k : Nat) (f : Cvu → Cvu) : (s.onCvu k f).cvu = s.cvu.upd Cvu.init k f := rfl
@[simp] theorem State.onCvu_arb (k : Nat) (f : Cvu → Cvu) : (s.onCvu k f).arb = s.arb := rfl
@[simp] theorem State.onCvu_supply (k : Nat) (f : Cvu → Cvu) : (s.onCvu k f).supply = s.supply := rfl
@[simp] theorem State.onCvu_thermal (k : Nat) (f : Cvu → Cvu) : (s.onCvu k f).thermal = s.thermal := rfl
@[simp] theorem State.onCvu_adc (k : Nat) (f : Cvu → Cvu) : (s.onCvu k f).adc = s.adc := rfl
@[simp] theorem State.onCvu_free (k : Nat) (f : Cvu → Cvu) : (s.onCvu k f).free = s.free := rfl

/-! `setSync` -/
@[simp] theorem State.setSync_pending (n : Nat) (v : W64) : (s.setSync n v).pending = s.pending := rfl
@[simp] theorem State.setSync_nv (n : Nat) (v : W64) : (s.setSync n v).nv = s.nv := rfl
@[simp] theorem State.setSync_boot (n : Nat) (v : W64) : (s.setSync n v).boot = s.boot := rfl
@[simp] theorem State.setSync_opts (n : Nat) (v : W64) : (s.setSync n v).opts = s.opts := rfl
@[simp] theorem State.setSync_tick (n : Nat) (v : W64) : (s.setSync n v).tick = s.tick := rfl
@[simp] theorem State.setSync_spools (n : Nat) (v : W64) : (s.setSync n v).spools = s.spools := rfl
@[simp] theorem State.setSync_sync (n : Nat) (v : W64) : (s.setSync n v).sync = s.sync.set n v := rfl
@[simp] theorem State.setSync_bus (n : Nat) (v : W64) : (s.setSync n v).bus = s.bus := rfl
@[simp] theorem State.setSync_models (n : Nat) (v : W64) : (s.setSync n v).models = s.models := rfl
@[simp] theorem State.setSync_sessions (n : Nat) (v : W64) : (s.setSync n v).sessions = s.sessions := rfl
@[simp] theorem State.setSync_adapters (n : Nat) (v : W64) : (s.setSync n v).adapters = s.adapters := rfl
@[simp] theorem State.setSync_kv (n : Nat) (v : W64) : (s.setSync n v).kv = s.kv := rfl
@[simp] theorem State.setSync_pipe (n : Nat) (v : W64) : (s.setSync n v).pipe = s.pipe := rfl
@[simp] theorem State.setSync_arr (n : Nat) (v : W64) : (s.setSync n v).arr = s.arr := rfl
@[simp] theorem State.setSync_chk (n : Nat) (v : W64) : (s.setSync n v).chk = s.chk := rfl
@[simp] theorem State.setSync_links (n : Nat) (v : W64) : (s.setSync n v).links = s.links := rfl
@[simp] theorem State.setSync_ends (n : Nat) (v : W64) : (s.setSync n v).ends = s.ends := rfl
@[simp] theorem State.setSync_cvu (n : Nat) (v : W64) : (s.setSync n v).cvu = s.cvu := rfl
@[simp] theorem State.setSync_arb (n : Nat) (v : W64) : (s.setSync n v).arb = s.arb := rfl
@[simp] theorem State.setSync_supply (n : Nat) (v : W64) : (s.setSync n v).supply = s.supply := rfl
@[simp] theorem State.setSync_thermal (n : Nat) (v : W64) : (s.setSync n v).thermal = s.thermal := rfl
@[simp] theorem State.setSync_adc (n : Nat) (v : W64) : (s.setSync n v).adc = s.adc := rfl
@[simp] theorem State.setSync_free (n : Nat) (v : W64) : (s.setSync n v).free = s.free := rfl

/-! `onTile` -/
@[simp] theorem State.onTile_pending (k : Nat) (f : Tile → Tile) : (s.onTile k f).pending = s.pending := rfl
@[simp] theorem State.onTile_nv (k : Nat) (f : Tile → Tile) : (s.onTile k f).nv = s.nv := rfl
@[simp] theorem State.onTile_boot (k : Nat) (f : Tile → Tile) : (s.onTile k f).boot = s.boot := rfl
@[simp] theorem State.onTile_opts (k : Nat) (f : Tile → Tile) : (s.onTile k f).opts = s.opts := rfl
@[simp] theorem State.onTile_tick (k : Nat) (f : Tile → Tile) : (s.onTile k f).tick = s.tick := rfl
@[simp] theorem State.onTile_spools (k : Nat) (f : Tile → Tile) : (s.onTile k f).spools = s.spools := rfl
@[simp] theorem State.onTile_sync (k : Nat) (f : Tile → Tile) : (s.onTile k f).sync = s.sync := rfl
@[simp] theorem State.onTile_bus (k : Nat) (f : Tile → Tile) : (s.onTile k f).bus = s.bus := rfl
@[simp] theorem State.onTile_models (k : Nat) (f : Tile → Tile) : (s.onTile k f).models = s.models := rfl
@[simp] theorem State.onTile_sessions (k : Nat) (f : Tile → Tile) : (s.onTile k f).sessions = s.sessions := rfl
@[simp] theorem State.onTile_adapters (k : Nat) (f : Tile → Tile) : (s.onTile k f).adapters = s.adapters := rfl
@[simp] theorem State.onTile_kv (k : Nat) (f : Tile → Tile) : (s.onTile k f).kv = s.kv := rfl
@[simp] theorem State.onTile_pipe (k : Nat) (f : Tile → Tile) : (s.onTile k f).pipe = s.pipe := rfl
@[simp] theorem State.onTile_arr (k : Nat) (f : Tile → Tile) : (s.onTile k f).arr = { s.arr with tiles := s.arr.tiles.upd (s.arr.unlisted k) k f } := rfl
@[simp] theorem State.onTile_chk (k : Nat) (f : Tile → Tile) : (s.onTile k f).chk = s.chk := rfl
@[simp] theorem State.onTile_links (k : Nat) (f : Tile → Tile) : (s.onTile k f).links = s.links := rfl
@[simp] theorem State.onTile_ends (k : Nat) (f : Tile → Tile) : (s.onTile k f).ends = s.ends := rfl
@[simp] theorem State.onTile_cvu (k : Nat) (f : Tile → Tile) : (s.onTile k f).cvu = s.cvu := rfl
@[simp] theorem State.onTile_arb (k : Nat) (f : Tile → Tile) : (s.onTile k f).arb = s.arb := rfl
@[simp] theorem State.onTile_supply (k : Nat) (f : Tile → Tile) : (s.onTile k f).supply = s.supply := rfl
@[simp] theorem State.onTile_thermal (k : Nat) (f : Tile → Tile) : (s.onTile k f).thermal = s.thermal := rfl
@[simp] theorem State.onTile_adc (k : Nat) (f : Tile → Tile) : (s.onTile k f).adc = s.adc := rfl
@[simp] theorem State.onTile_free (k : Nat) (f : Tile → Tile) : (s.onTile k f).free = s.free := rfl

/-! `onPanel` -/
@[simp] theorem State.onPanel_pending (k : Nat) (f : Panel → Panel) : (s.onPanel k f).pending = s.pending := rfl
@[simp] theorem State.onPanel_nv (k : Nat) (f : Panel → Panel) : (s.onPanel k f).nv = s.nv := rfl
@[simp] theorem State.onPanel_boot (k : Nat) (f : Panel → Panel) : (s.onPanel k f).boot = s.boot := rfl
@[simp] theorem State.onPanel_opts (k : Nat) (f : Panel → Panel) : (s.onPanel k f).opts = s.opts := rfl
@[simp] theorem State.onPanel_tick (k : Nat) (f : Panel → Panel) : (s.onPanel k f).tick = s.tick := rfl
@[simp] theorem State.onPanel_spools (k : Nat) (f : Panel → Panel) : (s.onPanel k f).spools = s.spools := rfl
@[simp] theorem State.onPanel_sync (k : Nat) (f : Panel → Panel) : (s.onPanel k f).sync = s.sync := rfl
@[simp] theorem State.onPanel_bus (k : Nat) (f : Panel → Panel) : (s.onPanel k f).bus = s.bus := rfl
@[simp] theorem State.onPanel_models (k : Nat) (f : Panel → Panel) : (s.onPanel k f).models = s.models := rfl
@[simp] theorem State.onPanel_sessions (k : Nat) (f : Panel → Panel) : (s.onPanel k f).sessions = s.sessions := rfl
@[simp] theorem State.onPanel_adapters (k : Nat) (f : Panel → Panel) : (s.onPanel k f).adapters = s.adapters := rfl
@[simp] theorem State.onPanel_kv (k : Nat) (f : Panel → Panel) : (s.onPanel k f).kv = s.kv := rfl
@[simp] theorem State.onPanel_pipe (k : Nat) (f : Panel → Panel) : (s.onPanel k f).pipe = s.pipe := rfl
@[simp] theorem State.onPanel_arr (k : Nat) (f : Panel → Panel) : (s.onPanel k f).arr = { s.arr with panels := s.arr.panels.upd Panel.init k f } := rfl
@[simp] theorem State.onPanel_chk (k : Nat) (f : Panel → Panel) : (s.onPanel k f).chk = s.chk := rfl
@[simp] theorem State.onPanel_links (k : Nat) (f : Panel → Panel) : (s.onPanel k f).links = s.links := rfl
@[simp] theorem State.onPanel_ends (k : Nat) (f : Panel → Panel) : (s.onPanel k f).ends = s.ends := rfl
@[simp] theorem State.onPanel_cvu (k : Nat) (f : Panel → Panel) : (s.onPanel k f).cvu = s.cvu := rfl
@[simp] theorem State.onPanel_arb (k : Nat) (f : Panel → Panel) : (s.onPanel k f).arb = s.arb := rfl
@[simp] theorem State.onPanel_supply (k : Nat) (f : Panel → Panel) : (s.onPanel k f).supply = s.supply := rfl
@[simp] theorem State.onPanel_thermal (k : Nat) (f : Panel → Panel) : (s.onPanel k f).thermal = s.thermal := rfl
@[simp] theorem State.onPanel_adc (k : Nat) (f : Panel → Panel) : (s.onPanel k f).adc = s.adc := rfl
@[simp] theorem State.onPanel_free (k : Nat) (f : Panel → Panel) : (s.onPanel k f).free = s.free := rfl

/-! `onDie` -/
@[simp] theorem State.onDie_pending (k : Nat) (f : Die → Die) : (s.onDie k f).pending = s.pending := rfl
@[simp] theorem State.onDie_nv (k : Nat) (f : Die → Die) : (s.onDie k f).nv = s.nv := rfl
@[simp] theorem State.onDie_boot (k : Nat) (f : Die → Die) : (s.onDie k f).boot = s.boot := rfl
@[simp] theorem State.onDie_opts (k : Nat) (f : Die → Die) : (s.onDie k f).opts = s.opts := rfl
@[simp] theorem State.onDie_tick (k : Nat) (f : Die → Die) : (s.onDie k f).tick = s.tick := rfl
@[simp] theorem State.onDie_spools (k : Nat) (f : Die → Die) : (s.onDie k f).spools = s.spools := rfl
@[simp] theorem State.onDie_sync (k : Nat) (f : Die → Die) : (s.onDie k f).sync = s.sync := rfl
@[simp] theorem State.onDie_bus (k : Nat) (f : Die → Die) : (s.onDie k f).bus = s.bus := rfl
@[simp] theorem State.onDie_models (k : Nat) (f : Die → Die) : (s.onDie k f).models = s.models := rfl
@[simp] theorem State.onDie_sessions (k : Nat) (f : Die → Die) : (s.onDie k f).sessions = s.sessions := rfl
@[simp] theorem State.onDie_adapters (k : Nat) (f : Die → Die) : (s.onDie k f).adapters = s.adapters := rfl
@[simp] theorem State.onDie_kv (k : Nat) (f : Die → Die) : (s.onDie k f).kv = s.kv := rfl
@[simp] theorem State.onDie_pipe (k : Nat) (f : Die → Die) : (s.onDie k f).pipe = s.pipe := rfl
@[simp] theorem State.onDie_arr (k : Nat) (f : Die → Die) : (s.onDie k f).arr = { s.arr with dies := s.arr.dies.upd Die.init k f } := rfl
@[simp] theorem State.onDie_chk (k : Nat) (f : Die → Die) : (s.onDie k f).chk = s.chk := rfl
@[simp] theorem State.onDie_links (k : Nat) (f : Die → Die) : (s.onDie k f).links = s.links := rfl
@[simp] theorem State.onDie_ends (k : Nat) (f : Die → Die) : (s.onDie k f).ends = s.ends := rfl
@[simp] theorem State.onDie_cvu (k : Nat) (f : Die → Die) : (s.onDie k f).cvu = s.cvu := rfl
@[simp] theorem State.onDie_arb (k : Nat) (f : Die → Die) : (s.onDie k f).arb = s.arb := rfl
@[simp] theorem State.onDie_supply (k : Nat) (f : Die → Die) : (s.onDie k f).supply = s.supply := rfl
@[simp] theorem State.onDie_thermal (k : Nat) (f : Die → Die) : (s.onDie k f).thermal = s.thermal := rfl
@[simp] theorem State.onDie_adc (k : Nat) (f : Die → Die) : (s.onDie k f).adc = s.adc := rfl
@[simp] theorem State.onDie_free (k : Nat) (f : Die → Die) : (s.onDie k f).free = s.free := rfl

/-! `onWin` -/
@[simp] theorem State.onWin_pending (k : Nat) (f : CalWin → CalWin) : (s.onWin k f).pending = s.pending := rfl
@[simp] theorem State.onWin_nv (k : Nat) (f : CalWin → CalWin) : (s.onWin k f).nv = s.nv := rfl
@[simp] theorem State.onWin_boot (k : Nat) (f : CalWin → CalWin) : (s.onWin k f).boot = s.boot := rfl
@[simp] theorem State.onWin_opts (k : Nat) (f : CalWin → CalWin) : (s.onWin k f).opts = s.opts := rfl
@[simp] theorem State.onWin_tick (k : Nat) (f : CalWin → CalWin) : (s.onWin k f).tick = s.tick := rfl
@[simp] theorem State.onWin_spools (k : Nat) (f : CalWin → CalWin) : (s.onWin k f).spools = s.spools := rfl
@[simp] theorem State.onWin_sync (k : Nat) (f : CalWin → CalWin) : (s.onWin k f).sync = s.sync := rfl
@[simp] theorem State.onWin_bus (k : Nat) (f : CalWin → CalWin) : (s.onWin k f).bus = s.bus := rfl
@[simp] theorem State.onWin_models (k : Nat) (f : CalWin → CalWin) : (s.onWin k f).models = s.models := rfl
@[simp] theorem State.onWin_sessions (k : Nat) (f : CalWin → CalWin) : (s.onWin k f).sessions = s.sessions := rfl
@[simp] theorem State.onWin_adapters (k : Nat) (f : CalWin → CalWin) : (s.onWin k f).adapters = s.adapters := rfl
@[simp] theorem State.onWin_kv (k : Nat) (f : CalWin → CalWin) : (s.onWin k f).kv = s.kv := rfl
@[simp] theorem State.onWin_pipe (k : Nat) (f : CalWin → CalWin) : (s.onWin k f).pipe = s.pipe := rfl
@[simp] theorem State.onWin_arr (k : Nat) (f : CalWin → CalWin) : (s.onWin k f).arr = { s.arr with wins := s.arr.wins.upd CalWin.init k f } := rfl
@[simp] theorem State.onWin_chk (k : Nat) (f : CalWin → CalWin) : (s.onWin k f).chk = s.chk := rfl
@[simp] theorem State.onWin_links (k : Nat) (f : CalWin → CalWin) : (s.onWin k f).links = s.links := rfl
@[simp] theorem State.onWin_ends (k : Nat) (f : CalWin → CalWin) : (s.onWin k f).ends = s.ends := rfl
@[simp] theorem State.onWin_cvu (k : Nat) (f : CalWin → CalWin) : (s.onWin k f).cvu = s.cvu := rfl
@[simp] theorem State.onWin_arb (k : Nat) (f : CalWin → CalWin) : (s.onWin k f).arb = s.arb := rfl
@[simp] theorem State.onWin_supply (k : Nat) (f : CalWin → CalWin) : (s.onWin k f).supply = s.supply := rfl
@[simp] theorem State.onWin_thermal (k : Nat) (f : CalWin → CalWin) : (s.onWin k f).thermal = s.thermal := rfl
@[simp] theorem State.onWin_adc (k : Nat) (f : CalWin → CalWin) : (s.onWin k f).adc = s.adc := rfl
@[simp] theorem State.onWin_free (k : Nat) (f : CalWin → CalWin) : (s.onWin k f).free = s.free := rfl

/-! `onKeel` -/
@[simp] theorem State.onKeel_pending (k : Nat) (f : KeelCtr → KeelCtr) : (s.onKeel k f).pending = s.pending := rfl
@[simp] theorem State.onKeel_nv (k : Nat) (f : KeelCtr → KeelCtr) : (s.onKeel k f).nv = s.nv := rfl
@[simp] theorem State.onKeel_boot (k : Nat) (f : KeelCtr → KeelCtr) : (s.onKeel k f).boot = s.boot := rfl
@[simp] theorem State.onKeel_opts (k : Nat) (f : KeelCtr → KeelCtr) : (s.onKeel k f).opts = s.opts := rfl
@[simp] theorem State.onKeel_tick (k : Nat) (f : KeelCtr → KeelCtr) : (s.onKeel k f).tick = s.tick := rfl
@[simp] theorem State.onKeel_spools (k : Nat) (f : KeelCtr → KeelCtr) : (s.onKeel k f).spools = s.spools := rfl
@[simp] theorem State.onKeel_sync (k : Nat) (f : KeelCtr → KeelCtr) : (s.onKeel k f).sync = s.sync := rfl
@[simp] theorem State.onKeel_bus (k : Nat) (f : KeelCtr → KeelCtr) : (s.onKeel k f).bus = s.bus := rfl
@[simp] theorem State.onKeel_models (k : Nat) (f : KeelCtr → KeelCtr) : (s.onKeel k f).models = s.models := rfl
@[simp] theorem State.onKeel_sessions (k : Nat) (f : KeelCtr → KeelCtr) : (s.onKeel k f).sessions = s.sessions := rfl
@[simp] theorem State.onKeel_adapters (k : Nat) (f : KeelCtr → KeelCtr) : (s.onKeel k f).adapters = s.adapters := rfl
@[simp] theorem State.onKeel_kv (k : Nat) (f : KeelCtr → KeelCtr) : (s.onKeel k f).kv = s.kv := rfl
@[simp] theorem State.onKeel_pipe (k : Nat) (f : KeelCtr → KeelCtr) : (s.onKeel k f).pipe = { s.pipe with keels := s.pipe.keels.upd KeelCtr.init k f } := rfl
@[simp] theorem State.onKeel_arr (k : Nat) (f : KeelCtr → KeelCtr) : (s.onKeel k f).arr = s.arr := rfl
@[simp] theorem State.onKeel_chk (k : Nat) (f : KeelCtr → KeelCtr) : (s.onKeel k f).chk = s.chk := rfl
@[simp] theorem State.onKeel_links (k : Nat) (f : KeelCtr → KeelCtr) : (s.onKeel k f).links = s.links := rfl
@[simp] theorem State.onKeel_ends (k : Nat) (f : KeelCtr → KeelCtr) : (s.onKeel k f).ends = s.ends := rfl
@[simp] theorem State.onKeel_cvu (k : Nat) (f : KeelCtr → KeelCtr) : (s.onKeel k f).cvu = s.cvu := rfl
@[simp] theorem State.onKeel_arb (k : Nat) (f : KeelCtr → KeelCtr) : (s.onKeel k f).arb = s.arb := rfl
@[simp] theorem State.onKeel_supply (k : Nat) (f : KeelCtr → KeelCtr) : (s.onKeel k f).supply = s.supply := rfl
@[simp] theorem State.onKeel_thermal (k : Nat) (f : KeelCtr → KeelCtr) : (s.onKeel k f).thermal = s.thermal := rfl
@[simp] theorem State.onKeel_adc (k : Nat) (f : KeelCtr → KeelCtr) : (s.onKeel k f).adc = s.adc := rfl
@[simp] theorem State.onKeel_free (k : Nat) (f : KeelCtr → KeelCtr) : (s.onKeel k f).free = s.free := rfl

/-! `onStage` -/
@[simp] theorem State.onStage_pending (k : Nat) (f : StageStat → StageStat) : (s.onStage k f).pending = s.pending := rfl
@[simp] theorem State.onStage_nv (k : Nat) (f : StageStat → StageStat) : (s.onStage k f).nv = s.nv := rfl
@[simp] theorem State.onStage_boot (k : Nat) (f : StageStat → StageStat) : (s.onStage k f).boot = s.boot := rfl
@[simp] theorem State.onStage_opts (k : Nat) (f : StageStat → StageStat) : (s.onStage k f).opts = s.opts := rfl
@[simp] theorem State.onStage_tick (k : Nat) (f : StageStat → StageStat) : (s.onStage k f).tick = s.tick := rfl
@[simp] theorem State.onStage_spools (k : Nat) (f : StageStat → StageStat) : (s.onStage k f).spools = s.spools := rfl
@[simp] theorem State.onStage_sync (k : Nat) (f : StageStat → StageStat) : (s.onStage k f).sync = s.sync := rfl
@[simp] theorem State.onStage_bus (k : Nat) (f : StageStat → StageStat) : (s.onStage k f).bus = s.bus := rfl
@[simp] theorem State.onStage_models (k : Nat) (f : StageStat → StageStat) : (s.onStage k f).models = s.models := rfl
@[simp] theorem State.onStage_sessions (k : Nat) (f : StageStat → StageStat) : (s.onStage k f).sessions = s.sessions := rfl
@[simp] theorem State.onStage_adapters (k : Nat) (f : StageStat → StageStat) : (s.onStage k f).adapters = s.adapters := rfl
@[simp] theorem State.onStage_kv (k : Nat) (f : StageStat → StageStat) : (s.onStage k f).kv = s.kv := rfl
@[simp] theorem State.onStage_pipe (k : Nat) (f : StageStat → StageStat) : (s.onStage k f).pipe = { s.pipe with stages := s.pipe.stages.upd StageStat.init k f } := rfl
@[simp] theorem State.onStage_arr (k : Nat) (f : StageStat → StageStat) : (s.onStage k f).arr = s.arr := rfl
@[simp] theorem State.onStage_chk (k : Nat) (f : StageStat → StageStat) : (s.onStage k f).chk = s.chk := rfl
@[simp] theorem State.onStage_links (k : Nat) (f : StageStat → StageStat) : (s.onStage k f).links = s.links := rfl
@[simp] theorem State.onStage_ends (k : Nat) (f : StageStat → StageStat) : (s.onStage k f).ends = s.ends := rfl
@[simp] theorem State.onStage_cvu (k : Nat) (f : StageStat → StageStat) : (s.onStage k f).cvu = s.cvu := rfl
@[simp] theorem State.onStage_arb (k : Nat) (f : StageStat → StageStat) : (s.onStage k f).arb = s.arb := rfl
@[simp] theorem State.onStage_supply (k : Nat) (f : StageStat → StageStat) : (s.onStage k f).supply = s.supply := rfl
@[simp] theorem State.onStage_thermal (k : Nat) (f : StageStat → StageStat) : (s.onStage k f).thermal = s.thermal := rfl
@[simp] theorem State.onStage_adc (k : Nat) (f : StageStat → StageStat) : (s.onStage k f).adc = s.adc := rfl
@[simp] theorem State.onStage_free (k : Nat) (f : StageStat → StageStat) : (s.onStage k f).free = s.free := rfl

/-! `onEntry` -/
@[simp] theorem State.onEntry_pending (k : Nat) (f : Entry → Entry) : (s.onEntry k f).pending = s.pending := rfl
@[simp] theorem State.onEntry_nv (k : Nat) (f : Entry → Entry) : (s.onEntry k f).nv = s.nv := rfl
@[simp] theorem State.onEntry_boot (k : Nat) (f : Entry → Entry) : (s.onEntry k f).boot = s.boot := rfl
@[simp] theorem State.onEntry_opts (k : Nat) (f : Entry → Entry) : (s.onEntry k f).opts = s.opts := rfl
@[simp] theorem State.onEntry_tick (k : Nat) (f : Entry → Entry) : (s.onEntry k f).tick = s.tick := rfl
@[simp] theorem State.onEntry_spools (k : Nat) (f : Entry → Entry) : (s.onEntry k f).spools = s.spools := rfl
@[simp] theorem State.onEntry_sync (k : Nat) (f : Entry → Entry) : (s.onEntry k f).sync = s.sync := rfl
@[simp] theorem State.onEntry_bus (k : Nat) (f : Entry → Entry) : (s.onEntry k f).bus = s.bus := rfl
@[simp] theorem State.onEntry_models (k : Nat) (f : Entry → Entry) : (s.onEntry k f).models = s.models := rfl
@[simp] theorem State.onEntry_sessions (k : Nat) (f : Entry → Entry) : (s.onEntry k f).sessions = s.sessions := rfl
@[simp] theorem State.onEntry_adapters (k : Nat) (f : Entry → Entry) : (s.onEntry k f).adapters = s.adapters := rfl
@[simp] theorem State.onEntry_kv (k : Nat) (f : Entry → Entry) : (s.onEntry k f).kv = s.kv := rfl
@[simp] theorem State.onEntry_pipe (k : Nat) (f : Entry → Entry) : (s.onEntry k f).pipe = { s.pipe with entries := s.pipe.entries.map fun e => if e.id = k then f e else e } := rfl
@[simp] theorem State.onEntry_arr (k : Nat) (f : Entry → Entry) : (s.onEntry k f).arr = s.arr := rfl
@[simp] theorem State.onEntry_chk (k : Nat) (f : Entry → Entry) : (s.onEntry k f).chk = s.chk := rfl
@[simp] theorem State.onEntry_links (k : Nat) (f : Entry → Entry) : (s.onEntry k f).links = s.links := rfl
@[simp] theorem State.onEntry_ends (k : Nat) (f : Entry → Entry) : (s.onEntry k f).ends = s.ends := rfl
@[simp] theorem State.onEntry_cvu (k : Nat) (f : Entry → Entry) : (s.onEntry k f).cvu = s.cvu := rfl
@[simp] theorem State.onEntry_arb (k : Nat) (f : Entry → Entry) : (s.onEntry k f).arb = s.arb := rfl
@[simp] theorem State.onEntry_supply (k : Nat) (f : Entry → Entry) : (s.onEntry k f).supply = s.supply := rfl
@[simp] theorem State.onEntry_thermal (k : Nat) (f : Entry → Entry) : (s.onEntry k f).thermal = s.thermal := rfl
@[simp] theorem State.onEntry_adc (k : Nat) (f : Entry → Entry) : (s.onEntry k f).adc = s.adc := rfl
@[simp] theorem State.onEntry_free (k : Nat) (f : Entry → Entry) : (s.onEntry k f).free = s.free := rfl

end Sys2Proof.Machine
end

