-- ==== Sys2Proof/Laws/Table.lean ====
section
/-!
SUPPORT. Reading a table or a memory after writing it, and the canonical form of memory, which every memory operation
keeps.
-/
namespace Sys2Proof

variable {α β : Type}

@[simp] theorem Tbl.get_nil (d : α) (k : Nat) : Tbl.get [] d k = d := rfl

@[simp] theorem Tbl.find_nil (k : Nat) : Tbl.find ([] : Tbl α) k = none := rfl

/-- A table reads the value written, and every other key as before. -/
theorem Tbl.get_set (t : Tbl α) (d v : α) (k j : Nat) : (t.set k v).get d j = if j = k then v else t.get d j := by
  induction t with
  | nil => simp [Tbl.set, Tbl.get, eq_comm]
  | cons p r ih => grind [Tbl.set, Tbl.get]

@[simp] theorem Tbl.get_set_self (t : Tbl α) (d v : α) (k : Nat) : (t.set k v).get d k = v := by
  simp [Tbl.get_set]

@[simp] theorem Tbl.get_set_ne (t : Tbl α) (d v : α) {k j : Nat} (h : j ≠ k) : (t.set k v).get d j = t.get d j := by
  simp [Tbl.get_set, h]

/-- A table lists the value written, and every other key as before. -/
theorem Tbl.find_set (t : Tbl α) (v : α) (k j : Nat) : (t.set k v).find j = if j = k then some v else t.find j := by
  induction t with
  | nil => simp [Tbl.set, Tbl.find, eq_comm]
  | cons p r ih => grind [Tbl.set, Tbl.find]

/-- A key taken out reads the default, and every other key as before. -/
theorem Tbl.get_del (t : Tbl α) (d : α) (k j : Nat) : (t.del k).get d j = if j = k then d else t.get d j := by
  induction t with
  | nil => simp [Tbl.del, Tbl.get]
  | cons p r ih => grind [Tbl.del, Tbl.get]

/-- `get` is `find` with a default. -/
theorem Tbl.get_eq_find (t : Tbl α) (d : α) (k : Nat) : t.get d k = (t.find k).getD d := by
  induction t with
  | nil => rfl
  | cons p r ih => grind [Tbl.get, Tbl.find, Option.getD]

/-- Changing one key changes its value by the function. -/
@[simp] theorem Tbl.get_upd_self (t : Tbl α) (d : α) (k : Nat) (f : α → α) : (t.upd d k f).get d k = f (t.get d k) := by
  simp [Tbl.upd]

/-- Changing one key leaves the others, whatever an unlisted key holds. -/
@[simp] theorem Tbl.get_upd_ne (t : Tbl α) (d e : α) {k j : Nat} (f : α → α) (h : j ≠ k) :
    (t.upd d k f).get e j = t.get e j := by
  simp [Tbl.upd, h]

/-- Changing every listed value changes what each listed key holds. -/
theorem Tbl.find_mapAll (t : Tbl α) (f : Nat → α → β) (k : Nat) : (t.mapAll f).find k = (t.find k).map (f k) := by
  induction t with
  | nil => rfl
  | cons p r ih =>
    simp only [Tbl.mapAll] at ih
    by_cases h : p.1 = k
    · subst h; simp [Tbl.mapAll, Tbl.find]
    · simp [Tbl.mapAll, Tbl.find, h, ih]

/-! Memory. -/

@[simp] theorem Mem.read_nil (a : Nat) : Mem.read [] a = 0 := rfl

theorem Mem.wfFrom_mono {lo hi : Nat} (h : lo ≤ hi) (m : Mem) (w : Mem.wfFrom hi m = true) :
    Mem.wfFrom lo m = true := by
  cases m <;> grind [Mem.wfFrom]

/-- The rest of a memory keeps the bound of the whole. -/
theorem Mem.wfFrom_tail {lo : Nat} (p : Host.Cell) (r : Mem) (w : Mem.wfFrom lo (p :: r) = true) :
    Mem.wfFrom lo r = true := by
  simp only [Mem.wfFrom, Bool.and_eq_true, decide_eq_true_eq] at w
  exact Mem.wfFrom_mono (by omega) r w.2

/-- An address below all those listed reads 0. -/
theorem Mem.read_below {a : Nat} (m : Mem) : ∀ {lo : Nat}, a < lo → Mem.wfFrom lo m = true → m.read a = 0 := by
  induction m with
  | nil => intros; rfl
  | cons p r ih => grind [Mem.wfFrom, Mem.read]

/-- A write keeps the canonical form from any bound at or below its address. -/
theorem Mem.wfFrom_write {a : Nat} (b : Byte) (m : Mem) :
    ∀ {lo : Nat}, lo ≤ a → Mem.wfFrom lo m = true → Mem.wfFrom lo (m.write a b) = true := by
  induction m with
  | nil => intro lo h _; grind [Mem.wfFrom, Mem.write]
  | cons p r ih => grind [Mem.wfFrom, Mem.write, Mem.wfFrom_tail]

/-- A write keeps the canonical form. -/
theorem Mem.wf_write (m : Mem) (a : Nat) (b : Byte) (h : m.wf = true) : (m.write a b).wf = true :=
  Mem.wfFrom_write b m (Nat.zero_le a) h

/-- Writing consecutive bytes keeps the canonical form. -/
theorem Mem.wf_writeBytes (bs : List Byte) : ∀ (m : Mem) (a : Nat), m.wf = true → (m.writeBytes a bs).wf = true := by
  induction bs with
  | nil => intro m a h; exact h
  | cons b r ih => intro m a h; exact ih _ _ (Mem.wf_write m a b h)

/-- A byte written reads back, and every other address reads as before, in a memory listed from a bound. -/
theorem Mem.read_write_from {a : Nat} (b : Byte) (x : Nat) (m : Mem) :
    ∀ {lo : Nat}, lo ≤ a → Mem.wfFrom lo m = true → (m.write a b).read x = if x = a then b else m.read x := by
  induction m with
  | nil => intro lo _ _; grind [Mem.read, Mem.write]
  | cons p r ih =>
    obtain ⟨j, c⟩ := p
    intro lo h w
    have hw := w
    simp only [Mem.wfFrom, Bool.and_eq_true, decide_eq_true_eq] at hw
    have hb : a ≤ j → Mem.read r a = 0 := fun e => Mem.read_below r (show a < j + 1 by omega) hw.2
    have hi : j < a → (Mem.write r a b).read x = if x = a then b else Mem.read r x := fun e => ih (by omega) hw.2
    rcases Nat.lt_trichotomy a j with e | e | e <;> by_cases hz : b = 0 <;> by_cases hx : x = a <;>
      grind [Mem.write, Mem.read]

/-- A byte written reads back, and every other address reads as before. -/
theorem Mem.read_write (m : Mem) (a x : Nat) (b : Byte) (h : m.wf = true) :
    (m.write a b).read x = if x = a then b else m.read x :=
  Mem.read_write_from b x m (Nat.zero_le a) h

/-- Addresses outside the bytes written read as before. -/
theorem Mem.read_writeBytes_outside (bs : List Byte) : ∀ (m : Mem) (a x : Nat), m.wf = true →
    (x < a ∨ a + bs.length ≤ x) → (m.writeBytes a bs).read x = m.read x := by
  induction bs with
  | nil => intro m a x _ _; rfl
  | cons b r ih =>
    intro m a x h hx
    simp only [List.length_cons] at hx
    have := ih (m.write a b) (a + 1) x (Mem.wf_write m a b h) (by omega)
    rw [Mem.writeBytes, this, Mem.read_write m a x b h, if_neg (by omega)]

/-- Clearing bytes keeps the canonical form from any bound. -/
theorem Mem.wfFrom_clear (a n : Nat) (m : Mem) : ∀ {lo : Nat}, Mem.wfFrom lo m = true → Mem.wfFrom lo (m.clear a n) = true := by
  induction m with
  | nil => intro lo h; exact h
  | cons p r ih => grind [Mem.wfFrom, Mem.clear, Mem.wfFrom_tail]

/-- Clearing bytes keeps the canonical form. -/
theorem Mem.wf_clear (m : Mem) (a n : Nat) (h : m.wf = true) : (m.clear a n).wf = true := Mem.wfFrom_clear a n m h

/-- The bytes cleared read 0, and every other address reads as before. -/
theorem Mem.read_clear (a n x : Nat) (m : Mem) :
    (m.clear a n).read x = if a ≤ x ∧ x < a + n then 0 else m.read x := by
  induction m with
  | nil => simp [Mem.clear, Mem.read]
  | cons p r ih => grind [Mem.clear, Mem.read]

/-- The bytes written read back. -/
theorem Mem.readBytes_writeBytes (bs : List Byte) : ∀ (m : Mem) (a : Nat), m.wf = true →
    (m.writeBytes a bs).readBytes a bs.length = bs := by
  induction bs with
  | nil => intro m a _; rfl
  | cons b r ih =>
    intro m a h
    have w := Mem.wf_write m a b h
    have t := ih (m.write a b) (a + 1) w
    have e : (Mem.writeBytes m a (b :: r)).read a = b := by
      rw [Mem.writeBytes, Mem.read_writeBytes_outside r _ _ a w (.inl (by omega)), Mem.read_write m a a b h, if_pos rfl]
    unfold Mem.readBytes at *
    rw [List.length_cons, List.range_succ_eq_map, List.map_cons, List.map_map, Nat.add_zero, e]
    refine congrArg (b :: ·) (Eq.trans (List.map_congr_left fun i _ => ?_) t)
    simp only [Function.comp_def, Mem.writeBytes, Nat.succ_eq_add_one]
    congr 1
    omega

end Sys2Proof
end

