-- ==== Sys2Proof/Laws/Ops.lean ====
section
/-!
SUPPORT. What each shared operation can do, said once: the proofs cite these lemmas and do not unfold the operations.
-/
namespace Sys2Proof.Machine

variable (s : State)

/-- A well-formed command answers its state. -/
@[simp] theorem guarded_true (t : State) : guarded true s t = .next t := rfl

/-- A command that names no unit changes nothing. -/
@[simp] theorem guarded_false (t : State) : guarded false s t = .next s := rfl

theorem guarded_eq_next {ok : Bool} {t u : State} : guarded ok s t = .next u ↔ u = if ok then t else s := by
  cases ok <;> simp [guarded, eq_comm]

/-! Lookups after updates. -/

@[simp] theorem State.spool_onSpool_self (p : Nat) (f : Spool → Spool) : (s.onSpool p f).spool p = f (s.spool p) := by
  simp [State.spool]

@[simp] theorem State.spool_onSpool_ne {p r : Nat} (f : Spool → Spool) (h : r ≠ p) :
    (s.onSpool p f).spool r = s.spool r := by
  simp [State.spool, h]

@[simp] theorem State.sess_onSess_self (i : Nat) (f : Session → Session) : (s.onSess i f).sess i = f (s.sess i) := by
  simp [State.sess]

@[simp] theorem State.sess_onSess_ne {i j : Nat} (f : Session → Session) (h : j ≠ i) :
    (s.onSess i f).sess j = s.sess j := by
  simp [State.sess, h]

@[simp] theorem State.model_onModel_self (m : Nat) (f : Model → Model) : (s.onModel m f).model m = f (s.model m) := by
  simp [State.model]

@[simp] theorem State.model_onModel_ne {m n : Nat} (f : Model → Model) (h : n ≠ m) :
    (s.onModel m f).model n = s.model n := by
  simp [State.model, h]

@[simp] theorem State.tileAt_onTile_self (t : Nat) (f : Tile → Tile) : (s.onTile t f).tileAt t = f (s.tileAt t) := by
  simp [State.tileAt, Arrays.unlisted]

@[simp] theorem State.tileAt_onTile_ne {t u : Nat} (f : Tile → Tile) (h : u ≠ t) :
    (s.onTile t f).tileAt u = s.tileAt u := by
  simp only [State.tileAt, State.onTile_arr]
  exact Tbl.get_upd_ne _ _ _ f h

@[simp] theorem State.panelAt_onPanel_self (p : Nat) (f : Panel → Panel) :
    (s.onPanel p f).panelAt p = f (s.panelAt p) := by
  simp [State.panelAt]

@[simp] theorem State.panelAt_onPanel_ne {p r : Nat} (f : Panel → Panel) (h : r ≠ p) :
    (s.onPanel p f).panelAt r = s.panelAt r := by
  simp [State.panelAt, h]

@[simp] theorem State.link_onLink_self (l : Nat) (f : Link → Link) : (s.onLink l f).link l = f (s.link l) := by
  simp [State.link]

@[simp] theorem State.link_onLink_ne {l k : Nat} (f : Link → Link) (h : k ≠ l) : (s.onLink l f).link k = s.link k := by
  simp [State.link, h]

@[simp] theorem State.counter_setSync_self (n : Nat) (v : W64) : (s.setSync n v).counter n = v := by
  simp [State.counter]

@[simp] theorem State.counter_setSync_ne {n m : Nat} (v : W64) (h : m ≠ n) :
    (s.setSync n v).counter m = s.counter m := by
  simp [State.counter, h]

/-! Frames: what an operation leaves as it was. -/

/-- Only the spools, the sync counters and the released waits differ. -/
def OnlySpools (s t : State) : Prop := t = { s with spools := t.spools, sync := t.sync, bus := t.bus }

theorem OnlySpools.refl (s : State) : OnlySpools s s := rfl

theorem OnlySpools.trans {s t u : State} (h : OnlySpools s t) (k : OnlySpools t u) : OnlySpools s u := by
  unfold OnlySpools at *; rw [k, h]

/-- Queueing a record changes only that spool's records due. -/
theorem pushDue_spool (p : Nat) (r : Rec) (sg cl : Option Nat) :
    (pushDue s p r sg cl).spool p =
      { s.spool p with due := (s.spool p).due ++ [{ record := r, signal := sg, closes := cl }] } := by
  simp [pushDue]

theorem pushDue_only (p : Nat) (r : Rec) (sg cl : Option Nat) : OnlySpools s (pushDue s p r sg cl) := rfl

theorem onSpool_only (p : Nat) (f : Spool → Spool) : OnlySpools s (s.onSpool p f) := rfl

theorem onOut_only (p : Nat) (seq : W32) (f : OutCmd → OutCmd) : OnlySpools s (onOut s p seq f) := rfl

theorem onBus_only (f : Bus → Bus) : OnlySpools s (s.onBus f) := rfl

theorem setSync_only (n : Nat) (v : W64) : OnlySpools s (s.setSync n v) := rfl

/-- An event changes nothing but its spool. -/
theorem event_only (p num : Nat) (h : W32) (res : List Byte) : OnlySpools s (event s p num h res) := by
  unfold event loseEvent
  split
  · exact (onSpool_only _ _ _).trans (pushDue_only _ _ _ _ _)
  · exact onSpool_only _ _ _

/-- A fault record changes nothing but the fault log. -/
theorem faultRecord_frame (k src loc d : Nat) (rec : Bool) (se po : W32) :
    faultRecord s k src rec loc se po d = { s with chk := (faultRecord s k src rec loc se po d).chk } := rfl

/-- The end of an orphaned command changes its spools, and nothing else. -/
theorem finishOrphan_only (k : Nat) (o : OutCmd) (code : Nat) (res : List Byte) (sg cl : Option Nat) :
    OnlySpools s (finishOrphan s k o code res sg cl) := by
  unfold finishOrphan loseEvent
  dsimp only
  split <;> rfl

/-- The end of a command changes its spools and the waits, and nothing else. -/
theorem finishRaw_only (p : Nat) (seq : W32) (code : Nat) (res : List Byte) (cl : Option Nat) :
    OnlySpools s (finishRaw s p seq code res cl).1 := by
  unfold finishRaw
  split
  · exact .refl s
  · dsimp only
    repeat' split
    all_goals first | rfl | exact finishOrphan_only _ _ _ _ _ _ _

theorem evalWaiter_only (n : Nat) (v : W64) (st : State × List CtrUpd) (w : Nat × OutCmd) :
    OnlySpools st.1 (evalWaiter n v st w).1 := by
  unfold evalWaiter
  dsimp only
  repeat' split
  all_goals first | rfl | exact finishRaw_only _ _ _ _ _ _

theorem foldl_evalWaiter_only (n : Nat) (v : W64) (l : List (Nat × OutCmd)) :
    ∀ st : State × List CtrUpd, OnlySpools st.1 (l.foldl (evalWaiter n v) st).1 := by
  induction l with
  | nil => intro st; exact .refl _
  | cons w r ih => intro st; exact (evalWaiter_only n v st w).trans (ih _)

/-- Counter updates change the counters, the spools and the waits, and nothing else. -/
theorem applyUpdates_only (k : Nat) : ∀ (us : List CtrUpd) (s : State), OnlySpools s (applyUpdates k us s) := by
  induction k with
  | zero => intro us s; cases us <;> exact .refl s
  | succ k ih =>
    intro us s
    cases us with
    | nil => exact .refl s
    | cons u r =>
      unfold applyUpdates
      exact ((setSync_only s _ _).trans (foldl_evalWaiter_only _ _ _ _)).trans (ih _ _)

theorem updateCounter_only (u : CtrUpd) : OnlySpools s (updateCounter s u) := applyUpdates_only _ _ _

theorem sendSignal_only (sg : Option Nat) : OnlySpools s (sendSignal s sg) := by
  cases sg with
  | none => exact .refl s
  | some n => exact updateCounter_only _ _

/-- The end of a command, with the signal it sends, changes the spools, the counters and the waits only. -/
theorem finish_only (p : Nat) (seq : W32) (code : Nat) (res : List Byte) : OnlySpools s (finish s p seq code res) :=
  (finishRaw_only s p seq code res none).trans (sendSignal_only _ _)

/-- ACCEPTED changes its spool only. -/
theorem accept_only (p : Nat) (seq : W32) (res : List Byte) (job : Job) : OnlySpools s (accept s p seq res job) := by
  unfold accept
  split
  · exact .refl s
  · exact (onOut_only _ _ _ _).trans (pushDue_only _ _ _ _ _)

/-- The reply of a command changes the spools, the counters and the waits only. -/
theorem reply_only (c : Cmd) (r : Reply) : OnlySpools s (reply s c r) := by
  cases r with
  | done res => exact finish_only _ _ _ _ _
  | error code res => exact finish_only _ _ _ _ _
  | accepted res job => exact accept_only _ _ _ _ _
  | acceptedEnd res code e => exact (accept_only _ _ _ _ _).trans (finish_only _ _ _ _ _)
  | running job => exact onOut_only _ _ _ _
  | doneClose p => exact (finishRaw_only s c.spool c.seq 0 [] (some p)).trans (sendSignal_only _ _)

/-- `leastBelow` answers the first index at which the predicate holds. -/
theorem leastBelow_eq_some {n i : Nat} {p : Nat → Bool} :
    leastBelow n p = some i ↔ p i = true ∧ i < n ∧ ∀ j, j < i → p j = false := by
  simp [leastBelow, List.find?_range_eq_some]

/-! Starting a host command. -/

/-- A command that starts runs its tests and effects in the state in which it is outstanding. -/
theorem hostCommand_starts {i : Instr} {c : Cmd} {s : State} (body : State → State × Reply)
    (h : Safety.Starts i c s) :
    hostCommand i c (opcodeOf i) (paramCheck i) body s =
      reply (body (Safety.begun i c s)).1 c (body (Safety.begun i c s)).2 := by
  obtain ⟨_, _, _, hc, hf⟩ := h
  unfold hostCommand
  cases ho : findFetched s c with
  | none =>
    rw [ho] at hf
    obtain ⟨h1, h2, -, h4⟩ := hf
    simp [hc, h1, h2, h4, startCommand, Safety.begun]
  | some o =>
    rw [ho] at hf
    obtain ⟨h1, h2, h3⟩ := hf
    simp [hc, h1, h2, h3, startCommand, Safety.begun]

/-- A command that its row brings while FENCE or WAIT holds it is outstanding and has not started. -/
theorem hostCommand_held {i : Instr} {c : Cmd} {op : Nat} {pr : Option Nat} {s : State} (body : State → State × Reply)
    (hc : canStart s c = true) (ho : findFetched s c = none)
    (hp : (headerCheck s c op <|> pr <|> syncCheck s c) = none) (hm : mayStart s c = false) :
    hostCommand i c op pr body s = holdCommand i c op s := by
  unfold hostCommand
  simp only [hc, ho, hp, hm]
  rfl

/-- On a spool where it cannot start a host command has no effect. -/
theorem hostCommand_blocked (i : Instr) (c : Cmd) (op : Nat) (pr : Option Nat) (body : State → State × Reply)
    (h : canStart s c = false) : hostCommand i c op pr body s = s := by
  simp [hostCommand, h]

/-- Where no outstanding command has the sequence number, none makes room for it. -/
theorem makeRoom_free {p : Nat} {seq : W32} (h : findOut s p seq = none) : makeRoom s p seq = s := by
  simp [makeRoom, h]

/-- The state in which a command starts differs from the state before in its spool and in the waits only, unless one outstanding from
before a resynchronisation makes room for it. -/
theorem begun_only (i : Instr) (c : Cmd) (h : findOut s c.spool c.seq = none ∨ (findFetched s c).isSome = true) :
    OnlySpools s (Safety.begun i c s) := by
  unfold Safety.begun ensureOut
  split
  · exact (onOut_only _ _ _ _).trans (onBus_only _ _)
  · rename_i ho
    rcases h with h | h
    · rw [makeRoom_free _ h]; exact onSpool_only _ _ _
    · simp [ho] at h

/-! Buffers of commands. -/

/-- A buffer is in host memory while the host has not programmed the HDM range. -/
theorem hdmOffset_none {s : State} (h : s.bus.hdmBase = none) (a n : Nat) : hdmOffset s a n = none := by
  unfold hdmOffset
  rw [h]

/-- Outside the HDM range a command reads what host memory answers, and the state is as before. -/
theorem bufRead_host {s : State} {a n : Nat} (c : Cmd) (h : hdmOffset s a n = none) :
    bufRead s c a n = c.io.rd.map fun b => (b, s) := by
  unfold bufRead
  rw [h]

/-- In the HDM range a command reads the module's own DRAM, whatever host memory answers. -/
theorem bufRead_window {s : State} {a n w : Nat} (c : Cmd) (h : hdmOffset s a n = some w) :
    bufRead s c a n = some (windowRead (takeLines s w n c.io.back) w n, takeLines s w n c.io.back) := by
  unfold bufRead
  rw [h]

/-- Outside the HDM range a buffer is written to host memory. -/
theorem bufWrite_host {s : State} {io : Io} {a : Nat} {b : List Byte} (h : hdmOffset s a b.length = none) :
    bufWrite s io a b = hostWrite s a b := by
  unfold bufWrite
  rw [h]

/-! The step. -/

/-- A step with a command in front runs it on the queue's rest. -/
theorem step_cons (c : Instr) (r : List Instr) (h : s.pending = c :: r) : step s = exec c { s with pending := r } := by
  simp [step, h]

end Sys2Proof.Machine
end

