-- ==== Sys2Proof/Tests/Slice0.lean ====
section
/-!
SUPPORT. The model's own tests, each about one step on a small state: ill-formed commands that WellFormed refuses,
results worked out by hand from the spec's rules, and for every obligation with hypotheses a state and operands that
meet them (`hyp`).
-/
namespace Sys2Proof.Tests

open Sys2Proof.Machine Sys2Proof.Safety

set_option Elab.async false

/-! Helpers. -/

/-- A command header on spool 1 that reads `rd` from host memory. -/
def hdrIo (seq h : W32) (rd : Option (List Byte)) : Cmd :=
  { spool := 1, seq := seq, slot := 0, handle := h, expert := false, fence := false, signalOnDone := false,
    quiet := false, mode := .none, counter := 0, io := { rd := rd, wr := true } }

/-- A command header on spool 1 that names no object. -/
def hdr (h : W32) : Cmd := hdrIo 5 h none

/-- Spool 1, open with rings of 64 slots. -/
def open1 : Spool := { Spool.init with st := .opened, useSqOrd := 6, useCqOrd := 6 }

/-- A module that is ready, with spools 0 and 1 open and nothing loaded. -/
def ready : State :=
  { State.reset with
    boot := { Boot.init with ready := true, step := 9 }
    spools := [(0, { open1 with useSqOrd := 0 }), (1, open1)] }

/-- `Starts` as a test. -/
def startsB (i : Instr) (c : Cmd) (s : State) : Bool :=
  i.cmd? == some c && c.wf && decide (findOut s c.spool c.seq = findFetched s c) && canStart s c &&
  match findFetched s c with
  | none => headerCheck s c (opcodeOf i) == none && paramCheck i == none && bankExtent s i == none && syncCheck s c == none &&
      mayStart s c
  | some o => o.opcode == opcodeOf i && sameCommand o i c && myTurn s c.spool o

theorem starts_of {i : Instr} {c : Cmd} {s : State} (h : startsB i c s = true) : Starts i c s := by
  unfold startsB at h
  unfold Starts
  cases ho : findFetched s c <;> simp_all

/-- What a command reads while the host has not programmed the HDM range. -/
theorem reads_of {i : Instr} {c : Cmd} {s : State} {a n : Nat} {b : List Byte} (h : (begun i c s).bus.hdmBase = none)
    (hr : c.io.rd = some b) : Reads i c s a n b (begun i c s) := by
  simp [Reads, bufRead_host c (hdmOffset_none h a n), hr]

theorem unread_of {i : Instr} {c : Cmd} {s : State} {a n : Nat} (h : (begun i c s).bus.hdmBase = none) (hr : c.io.rd = none) :
    Unread i c s a n := by
  simp [Unread, bufRead_host c (hdmOffset_none h a n), hr]

/-- What a step answers: 0 a next state, 1 a fault, 2 a refusal. -/
def outcome (o : Host.Outcome State Fault Refusal) : Nat :=
  match o with
  | .next _ => 0
  | .fault _ => 1
  | .refused _ => 2

/-- A field of the state a step answers. -/
def after {α : Type} (o : Host.Outcome State Fault Refusal) (f : State → α) (d : α) : α :=
  match o with
  | .next t => f t
  | _ => d

/-- Class, code and RESULTS of the last record due on a spool. -/
def lastRec (s : State) (p : Nat) : Option (Nat × Nat × List Byte) :=
  (s.spool p).due.getLast?.map fun d => (d.record.cls, d.record.code, d.record.results)

/-! Ill-formed commands, one for each check: each changes nothing. -/

theorem test_illformed_idle : (Instr.sealDecision 8).wf = false ∧ after (exec (.sealDecision 8) ready) (fun t => t == ready) false = true := by
  decide

theorem test_wf_panel : Instr.wf (.spotCheckDue 1856) = false ∧ panelOk 1855 = true ∧ panelOk 65536 = false := by
  decide

theorem test_wf_tile : Instr.wf (.refreshUrgent 14848) = false ∧ tileOk 14847 = true := by decide

theorem test_wf_keel : Instr.wf (.sealDecision 8) = false ∧ keelOk 7 = true := by decide

theorem test_wf_link : Instr.wf (.ackTimeout 3) = false ∧ linkOk 2 = true ∧ linkOk 15 = false ∧
    linkOk 16 = true ∧ linkOk 27 = true ∧ linkOk 28 = false := by decide

/-- A data frame of class 0 from keel 0 to keel 0. -/
def frame0 : Frame :=
  { cls := 0, typ := 0, srcKeel := 0, dest := 0, seq := 0, nak := false, ack := 4095, payload := .bytes [] }

/-- A frame as its wire has it: header, payload, check value. -/
def rawOf (l : Nat) (f : Frame) (data : List Byte) : List Byte :=
  let b := frameHeader f data.length ++ data
  b ++ toLe (linkCrcBytes l) (crc (crcOfNat (linkAlg l)) b)

/-- The same with another header byte, its check value made to fit. -/
def rawWith (l i : Nat) (v : Byte) : List Byte :=
  let b := (frameHeader frame0 0).set i v
  b ++ toLe (linkCrcBytes l) (crc (crcOfNat (linkAlg l)) b)

theorem test_wf_frame : Instr.wf (.linkFrameReceive 3 true (rawOf 16 frame0 []) 0 0 (.bytes [])) = false ∧
    Instr.wf (.linkFrameReceive 16 true (rawOf 16 frame0 []) 0 0 (.bytes [])) = true := by decide

/-- A frame passes its check on a bridle link (R485), and fails it with class 3, a type past 2, SRC_KEEL with its reserved bit, a
DEST past 7 there, a reserved bit of SEQ or ACK, a LENGTH that does not fit what came, or a wrong check value (R477). -/
theorem test_frame_checks :
    (frameGood 16 (rawOf 16 frame0 []) = true ∧ headerFrame (rawOf 16 frame0 []) (.bytes []) = frame0) ∧
    frameGood 16 (rawWith 16 0 0x30) = false ∧ frameGood 16 (rawWith 16 0 0x03) = false ∧
    frameGood 16 (rawWith 16 1 0x80) = false ∧ frameGood 16 (rawWith 16 1 0x08) = false ∧
    frameGood 16 (rawWith 16 3 0x10) = false ∧ frameGood 16 (rawWith 16 5 0x20) = false ∧
    frameGood 16 (rawWith 16 6 1) = false ∧ frameGood 16 ((rawOf 16 frame0 []).set 8 0) = false := by
  decide +kernel

theorem test_wf_function : Instr.wf (.flr 65) = false ∧ fnOk 64 = true ∧
    Instr.wf (.configRequest 65 .other) = false := by decide

theorem test_wf_spool : Instr.wf (.spoolTimeout 4096) = false ∧ Instr.wf (.spoolTimeout 0) = false ∧
    Instr.wf (.statusRecordWrite 4096 true) = false := by decide

theorem test_wf_intake : Instr.wf (.packetFetch 0 none none) = false ∧
    Instr.wf (.commandStart 0 0 { rd := none, wr := true }) = false ∧
    Instr.wf (.syncWaitTimeout 0 0) = false ∧ Instr.wf (.hostDmaTransfer 0 0 true) = false := by decide

theorem test_wf_doorbell : Instr.wf (.sqTailDoorbell 65 1 0) = false ∧
    Instr.wf (.cqHeadWrite 0 4096 0) = false ∧ Instr.wf (.spoolCtrlOpen 65 1) = false ∧
    Instr.wf (.spoolCtrlResync 0 4096) = false := by decide

theorem test_wf_counter : Instr.wf (.syncCounterWrite 0 8192 8 0) = false ∧
    Instr.wf (.syncCounterWrite 0 0 0 0) = false ∧ sizeOk 64 = true ∧ sizeOk 65 = false := by decide

theorem test_wf_register : Instr.wf (.registerWrite 0 1 0 4 0) = false ∧
    Instr.wf (.latchedLowRead 0 1 ⟨0, 4⟩) = false ∧ Instr.wf (.latchedHighRead 65 0 0) = false := by decide

theorem test_wf_cvu : Instr.wf (.cvuHostPoly 9 0) = false ∧ Instr.wf (.cvuHostInit 9) = false ∧
    Instr.wf (.cvuHostValueWrite 9 0 8 0) = false ∧ Instr.wf (.cvuHostData 0 65 0) = false := by decide

theorem test_wf_session : Instr.wf (.frameCopy 65536 0 0 false) = false ∧ sessOk 65535 = true := by decide

theorem test_wf_row : Instr.wf (.rowRewrite 0 1024 true) = false ∧ Instr.wf (.scrubUnit 0 4 []) = false ∧
    Instr.wf (.refreshHalf 0 2) = false ∧ Instr.wf (.coreFieldTest 8192 true) = false := by decide

theorem test_wf_dram : let b : Burst := { data := [], crc := 0 }
    Instr.wf (.dramArbitration 0 96 []) = false ∧
    Instr.wf (.arbWindowEnd 8 0) = false ∧ Instr.wf (.dramLineFail 0 (.master 16 false 0 0 0 none) 0 b b) = false ∧
    Instr.wf (.dramLineFail 0 (.calCounts 1856) 0 b b) = false ∧
    Instr.wf (.sramParity 0 0 (.weightScale 14848) 0 false) = false ∧
    Instr.wf (.sramParity 0 0 (.correction 1856) 0 false) = false := by decide

/-- The requests a channel may raise (R490, R491): class 1 to 6, an index of that class's requesters, 1 to 8 beats. -/
theorem test_arbReqOk :
    arbReqOk { cls := 0, idx := 0, beats := 1 } = false ∧ arbReqOk { cls := 7, idx := 0, beats := 1 } = false ∧
    arbReqOk { cls := 3, idx := 31, beats := 8 } = true ∧ arbReqOk { cls := 3, idx := 32, beats := 8 } = false ∧
    arbReqOk { cls := 6, idx := 1, beats := 9 } = false ∧ arbReqOk { cls := 6, idx := 1, beats := 0 } = false := by decide

theorem test_wf_model : Instr.wf (.cutOver 16) = false ∧ Instr.wf (.shadowWriteStart 0 258) = false ∧
    Instr.wf (.layerSwitched 0 258) = false ∧ Instr.wf (.adapterFree 0 4096) = false ∧
    Instr.wf (.adapterFree 1 256) = false := by decide

theorem test_wf_chain : Instr.wf (.chainNeighbourLearn 0 1) = false := by decide

theorem test_wf_sensors : Instr.wf (.thermalTrip 41) = false ∧ Instr.wf (.stackResume 8) = false ∧
    Instr.wf (.residueRerun 0 true [{ unit := 32, mul := true, x := 0, y := 0, result := 0 }] 0 0) = false := by decide

theorem test_wf_bringUp : Instr.wf (.bringUp
    { bootSel := 0, clkSel := 0, modAddr := 0, bistFail := [9], factoryBad := false, dramFail := [], trimBad := [], cxl := true }) = false ∧
    Instr.wf (.bringUp
      { bootSel := 4, clkSel := 0, modAddr := 0, bistFail := [], factoryBad := false, dramFail := [], trimBad := [], cxl := true }) = false ∧
    Instr.wf (.bistRunDone [8]) = false := by decide

theorem test_wf_header : Instr.wf (.nop { hdr noHandle with spool := 0 }) = false ∧
    Instr.wf (.nop { hdr noHandle with spool := 4096 }) = false ∧
    Instr.wf (.nop { hdr noHandle with slot := 65536 }) = false ∧
    Instr.wf (.nop { hdr noHandle with counter := 8192 }) = false ∧
    Instr.wf (.nop (hdr noHandle)) = true := by decide

/-! Device commands, counters and the tick. -/

theorem test_nop_done : after (exec (.nop (hdr noHandle)) ready) (lastRec · 1) none = some (0, 0, []) := by decide

theorem hyp_deviceReports : let c := hdr noHandle
    Starts (.nop c) c ready ∧ Starts (.keepalive c) c ready ∧ Starts (.getStatus c) c ready ∧
    Starts (.getOption c 0x0101 0) c ready ∧ Starts (.getOption c 0x0101 3) c ready ∧ Starts (.identify c 64) c ready :=
  ⟨starts_of (by decide), starts_of (by decide), starts_of (by decide), starts_of (by decide), starts_of (by decide),
    starts_of (by decide)⟩

/-- A tick of 16 µs, whose capacity the default allowances fill (R121). -/
def tick16 : State := { ready with tick := { Tick.init with period := 16 } }

/-- SET_OPTION in its three cases: VF_SPOOLS while another spool is open, an allowance one past the capacity, and one
that fills it. -/
theorem hyp_setOption : let c := hdr noHandle
    let s2 := { ready with spools := ready.spools ++ [(2, open1)] }
    (Starts (.setOption c oVfSpools 1) c s2 ∧
      vfChangeOk (begun (.setOption c oVfSpools 1) c s2) c oVfSpools 1 = false) ∧
    (Starts (.setOption c oTailBudget 24577) c tick16 ∧ isAllowance oTailBudget = true ∧
      tailCapacity (shortPeriod tick16) < tailSumWith tick16 oTailBudget 24577) ∧
    Starts (.setOption c oTailBudget 24576) c tick16 ∧
    tailSumWith tick16 oTailBudget 24576 ≤ tailCapacity (shortPeriod tick16) :=
  ⟨⟨starts_of (by decide), by decide⟩, ⟨starts_of (by decide), by decide, by decide⟩, starts_of (by decide), by decide⟩

theorem test_setOption_budget :
    after (exec (.setOption (hdr noHandle) oTailBudget 24577) tick16) (lastRec · 1) none = some (4, 0x0608, []) ∧
    after (exec (.setOption (hdr noHandle) oTailBudget 24576) tick16) (lastRec · 1) none =
      some (0, 0, [0, 96, 0, 0, 0, 0, 0, 0]) := by decide

/-- SYNC_SIGNAL and the two ends of a counter's ownership: with VF_COUNTERS 64 the highest counter is VF 1's. -/
theorem hyp_syncCounters : let c := hdr noHandle
    (Starts (.syncSignal c 0 1 0) c ready ∧ counterOwner ready 0 = spoolOwner ready 1) ∧
    (Starts (.syncSignal c 8191 0 7) c ready ∧ counterOwner ready 8191 ≠ spoolOwner ready 1) ∧
    (counterOwner ready 8191 = 1 ∧ counterOwner ready 4096 = 64 ∧ counterOwner ready 4095 = 0) :=
  ⟨⟨starts_of (by decide), by decide⟩, ⟨starts_of (by decide), by decide⟩, by decide⟩

/-- A counter's 8-byte write by its owner, and one by another function and one of 4 bytes. -/
theorem hyp_syncCounterWrite : ready.boot.ready = true ∧ (8 = 8 ∧ counterOwner ready 8191 = 1) ∧
    ¬ (8 = 8 ∧ counterOwner ready 8191 = 0) ∧ ¬ (4 = 8 ∧ counterOwner ready 8191 = 1) := by decide

/-- A command of spool 1 that waits for counter 3. -/
def waiting : OutCmd :=
  { seq := 4, shown := none, stale := false, fetched := 0, slot := 0, opcode := 0, instr := .nop { hdr noHandle with seq := 4, mode := .wait, counter := 3 },
    released := false, started := false, accepted := false, orphan := false, resv := 1, tokens := 0, job := .idle }

theorem hyp_counterUpdate : let s := { ready with spools := [(1, { open1 with out := [waiting] })] }
    s.spools = [(1, { open1 with out := [waiting] })] ∧
    outCmd waiting = some { hdr noHandle with seq := 4, mode := .wait, counter := 3 } ∧ waiting.started = false ∧
    waiting.released = false ∧ (∀ e ∈ ready.spools, e.2.out = []) := by decide

theorem test_syncSignal_adds_value :
    after (exec (.syncSignal (hdr noHandle) 0 1 5) { ready with sync := [(0, 9)] }) (fun t => t.counter 0) 0 = 14#64 := by decide

theorem test_syncSignal_releases :
    after (exec (.syncCounterWrite 0 3 8 1) { ready with spools := [(1, { open1 with out := [waiting] })] })
      (fun t => t.bus.wakes) [] = [(1, 4#32)] := by decide

/-- SYNC_WAIT with the relation holding at once, at the target, and one below it. -/
theorem hyp_syncWait : let c := hdr noHandle
    let s := { ready with sync := [(0, 5)] }
    (Starts (.syncWait c 0 0 10 5) c s ∧ counterOwner s 0 = spoolOwner s 1 ∧ relHolds 0 (s.counter 0) 5 = true) ∧
    (Starts (.syncWait c 0 0 0 6) c s ∧ relHolds 0 (s.counter 0) 6 = false) :=
  ⟨⟨starts_of (by decide), by decide, by decide⟩, starts_of (by decide), by decide⟩

/-- A SYNC_WAIT whose deadline is edge 12. -/
def syncWaiting : OutCmd :=
  { waiting with instr := .syncWait { hdr noHandle with seq := 4 } 0 0 10 6, opcode := 7, released := true, started := true,
                 job := .syncWait 0 0 6 (some 12) }

/-- The deadline passed and not, and passed for a command whose spool was orphaned. -/
theorem hyp_syncWaitTimeout :
    let s := fun (e : Nat) (p : Nat) => { ready with tick := { Tick.init with edges := e }, spools := [(p, { open1 with out := [syncWaiting] })] }
    (waitOver (s 12 1) 1 4 = true ∧ waitOver (s 11 1) 1 4 = false ∧ orphanKeys (s 11 1) 1 = []) ∧
    (waitOver (s 12 4097) 1 4 = false ∧ orphanKeys (s 12 4097) 1 = [4097] ∧ waitOver (s 12 4097) 4097 4 = true) ∧
    findOut (s 12 1) 1 4 = some syncWaiting ∧ syncWaiting.job = .syncWait 0 0 6 (some 12) ∧
    (syncWaiting.instr.cmd?.map Cmd.mode = some .none ∧ syncWaiting.started = true) ∧ outCmd syncWaiting ≠ none := by decide

/-- The update of a counter on which the one command outstanding waits. -/
theorem hyp_counterSyncWait : let s := { ready with spools := [(1, { open1 with out := [syncWaiting] })] }
    s.spools = [(1, { open1 with out := [syncWaiting] })] ∧ outCmd syncWaiting = some { hdr noHandle with seq := 4 } ∧
    (hdr noHandle).mode = .none ∧ relHolds 0 6 6 = true ∧ relHolds 0 5 6 = false := by decide

theorem test_syncWait_deadline :
    let s := fun (e : Nat) => { ready with tick := { Tick.init with edges := e }, spools := [(1, { open1 with out := [syncWaiting] })] }
    exec (.syncWaitTimeout 1 4) (s 11) = .next (s 11) ∧
    after (exec (.syncWaitTimeout 1 4) (s 12)) (fun t => (lastRec t 1).map fun r => r.2.1) none = some 0x0207 :=
  ⟨rfl, by decide⟩

/-- TICK_CONFIG: the period in force, another that fits, one that does not, and one while another is pending. -/
theorem hyp_tickConfig : let c := hdr noHandle
    (Starts (.tickConfig c 64 none) c ready ∧ ready.tick.role = 0 ∧ ready.tick.pend = none ∧
      periodRefusal ready 64 = none ∧ ready.tick.period = 64) ∧
    (Starts (.tickConfig c 16 none) c ready ∧ periodRefusal ready 16 = none) ∧
    Starts (.tickConfig c 16 none) c
      { ready with tick := { Tick.init with pend := some { period := 32, at_ := 300, cmd := some (1, 4), edge := 9, waiting := [] } } } :=
  ⟨⟨starts_of (by decide), by decide, by decide, by decide, by decide⟩, ⟨starts_of (by decide), by decide⟩,
    starts_of (by decide)⟩

/-- TICK_CONFIG of another period on a follower, of the master's role, and of a period one below the capacity's. -/
theorem hyp_tickConfigEnds : let c := hdr noHandle
    (Starts (.tickConfig c 32 none) c { ready with tick := { Tick.init with role := 2 } }) ∧
    (Starts (.tickConfig c 64 (some (1, 5))) c ready ∧ anyPlaced ready = false) ∧
    (Starts (.tickConfig c 16 none) c { ready with opts := { ready.opts with force := [(oTailBudget, 24577)] } } ∧
      periodRefusal { ready with opts := { ready.opts with force := [(oTailBudget, 24577)] } } 16 = some 0x0608) ∧
    (ready.tick.pend = none) ∧
    (let s := { ready with tick := { Tick.init with role := 1 },
                           links := [(2, { Link.init with st := .up, lanes := 16, working := List.range 16, neighbour := some 7 })] }
     Starts (.tickConfig c 32 none) c s ∧ s.tick.role = 1 ∧ periodRefusal s 32 = none ∧ chainPorts s = [2]) :=
  ⟨starts_of (by decide), ⟨starts_of (by decide), by decide⟩, ⟨starts_of (by decide), by decide⟩, by decide,
    starts_of (by decide), by decide, by decide, by decide⟩

theorem test_tickConfig_fills : periodRefusal ready 16 = none ∧ periodRefusal ready 15 = some 0x0608 := by decide

/-- A module on which a period change is pending and which has just passed `e` edges. -/
def pendingPeriod (count : W64) (e : Nat) (w : List Nat) : State :=
  { ready with
    spools := [(1, { open1 with out := [{ waiting with job := .tick, started := true, accepted := true }] })]
    tick := { Tick.init with count := count, edges := e,
                             pend := some { period := 32, at_ := 300, cmd := some (1, 4), edge := 9, waiting := w } } }

theorem hyp_periodChange :
    ((pendingPeriod 299 50 []).tick.pend.map fun w => (w.at_, w.cmd)) = some (300, some (1, 4)) ∧
    (pendingPeriod 299 50 []).tick.count.toNat < (300#64).toNat ∧
    (300#64).toNat ≤ (pendingPeriod 300 50 []).tick.count.toNat := by decide

/-- Edges 136 and 137: 127 and 128 after the change was asked for. -/
theorem hyp_followerAnswer :
    (pendingPeriod 0 136 [1]).tick.edges < 9 + 128 ∧ 9 + 128 ≤ (pendingPeriod 0 137 [1]).tick.edges ∧
    (pendingPeriod 0 137 [1]).tick.pend.map PeriodPend.waiting = some [1] ∧ chainPorts (pendingPeriod 0 137 [1]) = [] := by
  decide

/-- A follower: 1,022 edges towards lock, then 1,023; a phase of 25 and of 26 ns; three and four edges missed; not one. -/
theorem hyp_follower :
    let s := fun (m k : Nat) => { ready with tick := { Tick.init with role := 2, lockRun := k, missed := m } }
    (s 0 0).boot.ready = true ∧ ready.tick.role ≠ 2 ∧ (s 0 0).tick.role = 2 ∧ (25 : Int).natAbs ≤ 25 ∧ ¬ (26 : Int).natAbs ≤ 25 ∧
    1024 ≤ (s 0 1023).tick.lockRun + 1 ∧ ¬ 1024 ≤ (s 0 1022).tick.lockRun + 1 ∧
    (4 ≤ (s 4 0).tick.missed ∧ (s 4 0).tick.holdover = false ∧ takesEvent (s 4 0) 0 = true) ∧
    ¬ 4 ≤ (s 3 0).tick.missed := by decide


/-- Lock by phase needs the master's count: 25 ns with it locks, 26 ns with it and 25 ns without it do not (R164, R166). -/
theorem test_lock_needs_count :
    let s := fun (m : Option W64) => { ready with tick := { Tick.init with role := 2, master := m } }
    after (exec (.tickInEdge 25) (s (some 9))) (fun t => (t.tick.locked, t.tick.adopt)) (false, false) = (true, true) ∧
    after (exec (.tickInEdge 26) (s (some 9))) (fun t => t.tick.locked) true = false ∧
    after (exec (.tickInEdge 25) (s none)) (fun t => t.tick.locked) true = false := by decide

/-- A locked follower's edge 1 µs off counts as arrived, one 1,001 ns off does not (R168). -/
theorem test_edge_arrives :
    let s := { ready with tick := { Tick.init with role := 2, missed := 3, locked := true } }
    after (exec (.tickInEdge (-1000)) s) (fun t => t.tick.missed) 9 = 0 ∧
    after (exec (.tickInEdge 1001) s) (fun t => t.tick.missed) 9 = 3 := by decide
/-! Spools and intake. -/

/-- The ready module with spool 2 in a given condition. -/
def spool2 (q : Spool) : State := { ready with spools := ready.spools ++ [(2, q)] }

/-- SPOOL_OPEN of a closed spool, of an open one, and of the highest spool, which is VF 1's. -/
theorem hyp_spoolOpen :
    let i := fun (h : W32) => Instr.spoolOpen (hdr h) 0x10000 0x20000 6 7 100 none
    (Starts (i 2) (hdr 2) (spool2 Spool.init) ∧ spoolOwner ready 2 = spoolOwner ready 1 ∧
      ((spool2 Spool.init).spool 2).st = .closed) ∧
    (Starts (i 2) (hdr 2) (spool2 open1) ∧ ((spool2 open1).spool 2).st ≠ .closed) ∧
    (Starts (i 4095) (hdr 4095) ready ∧ (4095#32).toNat < 4096 ∧ spoolOwner ready 4095 ≠ spoolOwner ready 1) :=
  ⟨⟨starts_of (by decide), by decide, by decide⟩, ⟨starts_of (by decide), by decide⟩,
    starts_of (by decide), by decide, by decide⟩

/-- SPOOL_OPEN of number 4,096, of spool 0 while it is CLOSED, and with quotas of the most a spool may give. -/
theorem hyp_spoolOpenEnds :
    let i := fun (h : W32) => Instr.spoolOpen (hdr h) 0x10000 0x20000 6 7 100 (some (65536, 0xFFFFFFFF))
    let s0 := { ready with spools := [(1, open1)] }
    (Starts (i 4096) (hdr 4096) ready ∧ 4096 ≤ (4096#32).toNat) ∧
    (Starts (i 0) (hdr 0) s0 ∧ (s0.spool 0).st = .closed ∧ spoolOwner s0 0 = spoolOwner s0 1) ∧
    Starts (i 2) (hdr 2) (spool2 Spool.init) :=
  ⟨⟨starts_of (by decide), by decide⟩, ⟨starts_of (by decide), by decide, by decide⟩, starts_of (by decide)⟩

theorem test_spoolOpen : after (exec (.spoolOpen (hdr 2) 0x10000 0x20000 6 7 100 none) (spool2 Spool.init))
    (fun t => ((t.spool 2).st, (t.spool 2).nextSeq, (t.spool 2).phase, (t.spool 2).useCqOrd)) (.closed, 0, false, 0) =
    (.opened, 100#32, true, 7) := by decide

/-- Spool 2 with session 3 in a given condition. -/
def withSess (q : Spool) (x : Session) : State := { spool2 q with sessions := [(3, x)] }

/-- A session of spool 2. -/
def sess2 (st : SessSt) : Session := { Session.init with st := st, used := true, spool := 2, gen := 1 }

/-- SPOOL_CLOSE: with a session, with another command, with neither and QUIET or not, and with RELEASE. -/
theorem hyp_spoolClose :
    (Starts (.spoolClose (hdr 2) false) (hdr 2) (withSess open1 (sess2 .idle)) ∧
      sessionsOf (withSess open1 (sess2 .idle)) 2 ≠ []) ∧
    (Starts (.spoolClose (hdr 2) false) (hdr 2) (spool2 { open1 with out := [waiting] }) ∧
      (((spool2 { open1 with out := [waiting] }).spool 2).out.any fun o => !(2 == 1 && o.seq == 5)) = true) ∧
    (Starts (.spoolClose (hdr 2) false) (hdr 2) (spool2 open1) ∧ sessionsOf (spool2 open1) 2 = [] ∧
      ((begun (.spoolClose (hdr 2) false) (hdr 2) (spool2 open1)).spool 2).out = [] ∧ (hdr 2).quiet = false ∧
      spoolOwner ready 1 = 0 ∧ ((spool2 open1).spool 2).st ≠ .closed) ∧
    Starts (.spoolClose { hdr 2 with quiet := true } false) { hdr 2 with quiet := true } (spool2 open1) ∧
    Starts (.spoolClose (hdr 2) true) (hdr 2) (withSess open1 (sess2 .busy)) :=
  ⟨⟨starts_of (by decide), by decide⟩, ⟨starts_of (by decide), by decide⟩,
    ⟨starts_of (by decide), by decide, by decide, by decide, by decide, by decide⟩, starts_of (by decide),
    starts_of (by decide)⟩

/-- SPOOL_CLOSE of number 4,096, of spool 0, of a VF's spool from the PF, of a CLOSED one, and of one whose commands go on
apart. -/
theorem hyp_spoolCloseEnds :
    let i := fun (h : W32) => Instr.spoolClose (hdr h) false
    (Starts (i 4096) (hdr 4096) ready ∧ 4096 ≤ (4096#32).toNat) ∧
    (Starts (i 0) (hdr 0) ready ∧ spoolOwner ready 1 = 0 ∧ (ready.spool 0).st ≠ .closed) ∧
    (Starts (i 4095) (hdr 4095) ready ∧ spoolOwner ready 4095 = 1 ∧ (ready.spool 4095).st = .closed) ∧
    (orphanKeys { ready with spools := [(1, open1), (2, open1), (4098, { Spool.init with out := [waiting] })] } 2 = [4098] ∧
      orphanKeys ready 2 = []) :=
  ⟨⟨starts_of (by decide), by decide⟩, ⟨starts_of (by decide), by decide, by decide⟩,
    ⟨starts_of (by decide), by decide, by decide⟩, by decide, by decide⟩

/-- A VF's command names another function's spool: VF 1 owns spool 4,095, the PF spool 2. -/
theorem hyp_spoolCloseForeign :
    let c := { hdr 2 with spool := 4095 }
    let s := { ready with spools := [(0, open1), (2, open1), (4095, open1)] }
    Starts (.spoolClose c false) c s ∧ Starts (.spoolAdopt c) c s ∧ spoolOwner s 4095 = 1 ∧ spoolOwner s 2 = 0 :=
  ⟨starts_of (by decide), starts_of (by decide), by decide, by decide⟩

/-- The records of a spool that waits to close: none, and one with the ring in use. -/
theorem hyp_closeWhenWritten :
    let d : DueRec := { record := { opcode := 0, cls := 0, code := 0, seq := 4, handle := noHandle, tick := 9, results := [], dup := false },
                        signal := none, closes := none }
    ((spool2 open1).spool 2).due = [] ∧
    (let s := spool2 { open1 with due := [d] };
      (s.spool 2).due ≠ [] ∧ (s.spool 2).st = .opened ∧ (s.spool 2).cqFault = false ∧ s.bus.viral = false) ∧
    3 ∈ sessionsOf (withSess open1 (sess2 .busy)) 2 := by decide

/-- QUIET on SPOOL_CLOSE leaves what is due on the named spool to be written first (R348, R355). -/
theorem test_spoolClose_quiet :
    let d : DueRec := { record := { opcode := 0, cls := 4, code := 0x0210, seq := 4, handle := noHandle, tick := 9, results := [], dup := false },
                        signal := none, closes := none }
    let c := { hdr 2 with quiet := true }
    after (exec (.spoolClose c false) (spool2 { open1 with due := [d] }))
      (fun t => ((t.spool 2).st, (t.spool 2).closing, (t.spool 2).due.length)) (.closed, false, 0) = (.opened, true, 1) := by decide

theorem hyp_spoolAdopt :
    (Starts (.spoolAdopt (hdr 2)) (hdr 2) (spool2 open1) ∧ ((spool2 open1).spool 2).st ≠ .orphaned) ∧
    (Starts (.spoolAdopt (hdr 2)) (hdr 2) (withSess { open1 with st := .orphaned } (sess2 .held)) ∧
      ((withSess { open1 with st := .orphaned } (sess2 .held)).spool 2).st = .orphaned ∧
      3 ∈ sessionsOf (withSess { open1 with st := .orphaned } (sess2 .held)) 2) :=
  ⟨⟨starts_of (by decide), by decide⟩, starts_of (by decide), by decide, by decide⟩

theorem test_spoolAdopt :
    let r := exec (.spoolAdopt (hdr 2)) (withSess { open1 with st := .orphaned } (sess2 .held))
    after r (fun t => ((t.spool 2).st, (t.sess 3).st, (t.sess 3).spool)) (.opened, .closed, 0) = (.closed, .idle, 1) ∧
    after r (lastRec · 1) none = some (0, 0, [1, 0, 0, 0]) := by decide

/-- The default SPOOL_TIMEOUT is 2,000 ms: no effect while IDLE_TIME is 2,000 whole ms, orphaned once it is 2,001. -/
theorem test_spoolTimeout :
    let s := fun (t : Nat) => { spool2 open1 with tick := { Tick.init with time := t } }
    exec (.spoolTimeout 2) (s 2000999999) = .next (s 2000999999) ∧
    after (exec (.spoolTimeout 2) (s 2001000000)) (fun t => (t.spool 2).st) .closed = .orphaned := ⟨rfl, by decide⟩

theorem hyp_spoolEvents :
    (Instr.spoolTimeout 2).wf = true ∧ (Instr.flr 0).wf = true ∧ (Instr.flr 64).wf = true ∧ ready.boot.ready = true ∧
    1 ∈ ready.spools.map Prod.fst ∧ (ready.spool 1).st = .opened ∧
    ((spool2 { open1 with st := .halted }).spool 2).st = .halted ∧ 3 ∈ sessionsOf (withSess open1 (sess2 .busy)) 2 ∧
    open1.closing = false ∧ open1.cqFault = false ∧ ((spool2 { open1 with st := .halted, cqFault := true }).spool 2).cqFault = true ∧ State.reset.boot.ready = false ∧ syncWaiting.started = true ∧
    syncWaiting.job.stops = false := by
  decide

/-- A SYNC_WAIT under way goes on apart from its orphaned spool; one that has not started is dropped (R377). -/
theorem test_orphan_apart :
    let s := spool2 { open1 with out := [syncWaiting, { waiting with seq := 6 }] }
    after (exec (.viral) s) (fun t => ((t.spool 2).st, (t.spool 2).out, orphanKeys t 2)) (.closed, [], []) = (.orphaned, [], [4098]) ∧
    after (exec (.viral) s) (fun t => (t.spool 4098).out.map OutCmd.seq) [] = [4#32] := by decide

theorem test_flr_pf : after (exec (.flr 0) ready) (fun t => ((t.spool 0).st, (t.spool 1).st, t.boot.cause)) (.opened, .opened, 0)
    = (.closed, .orphaned, 0x10#9) := by decide

/-- Doorbells of the owner and of another function; tail indices 63 and 64 of a ring of 64; head indices 1 and 2 with
one record written. -/
theorem hyp_doorbells :
    spoolOwner ready 1 = 0 ∧ spoolOwner ready 4095 ≠ 0 ∧ (ready.spool 1).st ≠ .closed ∧ 63 % 65536 < 2 ^ (ready.spool 1).useSqOrd ∧
    ¬ 64 % 65536 < 2 ^ (ready.spool 1).useSqOrd ∧ 65537 % 65536 = 1 ∧ (ready.spool 2).st = .closed ∧
    State.reset.boot.ready = false := by decide

theorem test_doorbells :
    let s := spool2 { open1 with cqTail := 1, ring := [{ opcode := 0, cls := 0, code := 0, seq := 0, handle := 0, tick := 0,
                                                         results := [], dup := false }] }
    (after (exec (.sqTailDoorbell 0 2 63) s) (fun t => (t.spool 2).sqTail) 0 = 63 ∧
      after (exec (.sqTailDoorbell 0 2 64) s) (fun t => ((t.spool 2).sqTail, (t.spool 2).doorbellErr)) (1, false) = (0, true)) ∧
    after (exec (.cqHeadWrite 0 2 1) s) (fun t => ((t.spool 2).cqHead, (t.spool 2).ring.length)) (0, 1) = (1, 0) ∧
    after (exec (.cqHeadWrite 0 2 2) s) (fun t => ((t.spool 2).cqHead, (t.spool 2).doorbellErr)) (1, false) = (0, true) := by
  decide

theorem hyp_spoolCtrl :
    let good : Spool := { Spool.init with sqBase := 0x10000, cqBase := 0x20000, sqOrder := 6, cqOrder := 6, resyncSeq := 9 }
    (ringsOk 2 good = true ∧ ((spool2 good).spool 2).st = .closed ∧ spoolOwner (spool2 good) 2 = 0) ∧
    ringsOk 2 { good with cqOrder := 5 } = false ∧ ringsOk 2 { good with cqOrder := 16 } = true ∧
    ringsOk 2 { good with cqOrder := 17 } = false ∧
    (let s := withSess { good with st := .orphaned, dirty := true } (sess2 .held);
      (s.spool 2).st = .orphaned ∧ (s.spool 2).dirty = true ∧ 3 ∈ sessionsOf s 2) ∧
    ((spool2 { good with st := .halted }).spool 2).st = .halted ∧ (ready.spool 0).st = .opened ∧ (ready.spool 0).dirty = false := by decide

theorem test_spoolResync :
    after (exec (.spoolCtrlResync 0 2) (spool2 { open1 with st := .halted, resyncSeq := 9, fetchFault := true }))
      (fun t => ((t.spool 2).st, (t.spool 2).nextSeq, (t.spool 2).fetchFault)) (.closed, 0, true) = (.opened, 9#32, false) := by
  decide

/-- A NOP packet: OPCODE 0, SEQ 7, HANDLE none (R349). -/
def nopPacket : List Byte := zeros 4 ++ [7, 0, 0, 0, 255, 255, 255, 255] ++ zeros 52

/-- Spool 2 with a packet to fetch and a given NEXT_SEQ. -/
def fetchState (next : W32) (d : List DupEntry) : State :=
  spool2 { open1 with sqTail := 1, nextSeq := next, dup := d }

/-- A resynchronised spool whose sequence numbers begin again at that of a command still outstanding (R361). -/
def resynced : State := spool2 { open1 with sqTail := 1, nextSeq := 7, out := [{ syncWaiting with seq := 7, stale := true }] }

/-- What intake makes of the packet on spool 2. -/
def nopFetched (b : List Byte) : Fetched :=
  readPacket 0 (fun n => counterOwner ready n == 0) 2 0 ((b ++ zeros 64).take 64) none

/-- The packet at distance 0, refused (reserved FLAGS), 1, 2^31 - 1, 2^31, 2^32 - 257, 2^32 - 256 and 2^32 - 1 from NEXT_SEQ. -/
theorem hyp_packetFetch :
    (intakeOpen (fetchState 7 []) = true ∧ ((fetchState 7 []).spool 2).st = .opened ∧
      ((fetchState 7 []).spool 2).sqHead ≠ ((fetchState 7 []).spool 2).sqTail ∧
      2 ≤ credits ((fetchState 7 []).spool 2) ∧ outstanding (fetchState 7 []) 2 < 256 ∧ canFetch (fetchState 7 []) 2 = true ∧
      canFetch (fetchState 7 []) 1 = false) ∧
    ((nopFetched nopPacket).seq = 7 ∧ (nopFetched nopPacket).code = none ∧ (nopFetched nopPacket).instr.isSome = true ∧
      (nopFetched ([0, 16] ++ nopPacket.drop 2)).code = some 0x0103) ∧
    ((7 - 7 : W32).toNat = 0 ∧ (7 - 6 : W32).toNat = 1 ∧ (7 - (8 + 0x80000000) : W32).toNat = 2 ^ 31 - 1 ∧
      (7 - (7 + 0x80000000) : W32).toNat = 2 ^ 31 ∧ (7 - (7 + 257) : W32).toNat = 2 ^ 32 - 257 ∧
      (7 - (7 + 256) : W32).toNat = 2 ^ 32 - 256 ∧ (7 - 8 : W32).toNat = 2 ^ 32 - 1) ∧
    (let e : DupEntry := { seq := 7, opcode := 0, stored := none };
      ((fetchState 8 [e]).spool 2).dup.find? (fun x => x.seq == 7) = some e ∧ e.opcode = (nopFetched nopPacket).op) ∧
    ((spool2 { open1 with st := .halted }).spool 2).st ≠ .opened ∧
    (canFetch resynced 2 = true ∧ findOut resynced 2 7 ≠ none) := by decide

/-- The new command takes the number, and the old one goes on under another and keeps its own (R354, R361). -/
theorem test_packetFetch_resynced : after (exec (.packetFetch 2 (some nopPacket) none) resynced)
    (fun t => (t.spool 2).out.map fun o => (o.number, o.stale, o.started)) [] = [(7#32, true, true), (7#32, false, false)] := by decide

/-- Two spools with packets: the one whose turn it is while it has had fewer than 8, then the next, round robin (R362). -/
theorem hyp_fetchOrder :
    let q : Spool := { open1 with sqTail := 9 }
    let s := fun (turn n : Nat) => { ready with spools := [(1, q), (2, q)], bus := { Bus.init with turn := turn, served := n } }
    ((s 1 7).spools.map Prod.fst).Pairwise (· < ·) ∧ (fetchable (s 1 7) 1 = true ∧ (s 1 7).bus.served < 8) ∧
    (canFetch (s 1 7) 1 = true ∧ canFetch (s 1 7) 2 = false) ∧ (canFetch (s 1 8) 2 = true ∧ canFetch (s 1 8) 1 = false) ∧
    (canFetch (s 2 8) 1 = true ∧ canFetch (s 2 8) 2 = false) := by decide

theorem test_packetFetch_new : after (exec (.packetFetch 2 (some nopPacket) none) (fetchState 7 []))
    (fun t => ((t.spool 2).nextSeq, (t.spool 2).sqHead, (t.spool 2).out.map OutCmd.seq)) (0, 0, []) = (8#32, 1, [7#32]) := by
  decide

theorem test_packetFetch_classes :
    let f := fun next => after (exec (.packetFetch 2 (some nopPacket) none) (fetchState next []))
      (fun t => ((t.spool 2).st, (lastRec t 2).map fun r => r.2.1)) (.closed, none)
    f 6 = (.halted, some 0x0201) ∧ f 264 = (.opened, some 0x0203) ∧
    after (exec (.packetFetch 2 (some nopPacket) none) (fetchState 8 [{ seq := 7, opcode := 0, stored := none }]))
      (fun t => (lastRec t 2).map fun r => r.2.1) none = some 0x0202 ∧
    after (exec (.packetFetch 2 (some nopPacket) none) (fetchState 8 [{ seq := 7, opcode := 1, stored := none }]))
      (fun t => (lastRec t 2).map fun r => r.2.1) none = some 0x0204 := by decide

/-- COMMAND_START: a command whose turn it is, one not released, and one behind a FENCE. -/
theorem hyp_commandStart :
    let o : OutCmd := { waiting with instr := .nop { hdr noHandle with seq := 4 }, released := true }
    let f : OutCmd := { o with seq := 5, instr := .nop { hdr noHandle with fence := true } }
    let s := { ready with spools := [(1, { open1 with out := [o, f] })] }
    (findOut s 1 4 = some o ∧ outCmd o = some { hdr noHandle with seq := 4 } ∧ (hdr noHandle).wf = true ∧ myTurn s 1 o = true) ∧
    (let r := { ready with spools := [(1, { open1 with out := [o] })] };
      r.spools = [(1, r.spool 1)] ∧ (r.spool 1).out = [o] ∧ o.started = false ∧ o.orphan = false ∧ o.released = true) ∧
    (findOut s 1 5 = some f ∧ ∃ x ∈ (s.spool 1).out.takeWhile (fun x => x.seq != f.seq), x.orphan = false) ∧
    waiting.released = false := by decide

/-- A row that brings its command: refused at fetch, held by WAIT while its counter is 0, and held by FENCE. -/
theorem hyp_rowBrings :
    let c := { hdr noHandle with mode := .wait, counter := 3 }
    let f := { hdr noHandle with fence := true }
    let s := { ready with spools := [(1, { open1 with out := [syncWaiting] })] }
    ((Instr.nop c).cmd? = some c ∧ c.wf = true ∧ canStart ready c = true ∧ findOut ready 1 5 = none) ∧
    (headerCheck ready c 0 = none ∧ paramCheck (.nop c) = none ∧ bankExtent ready (.nop c) = none ∧ syncCheck ready c = none ∧
      mayStart ready c = false) ∧
    (canStart s f = true ∧ mayStart s f = false) ∧
    (let r := { ready with spools := [(1, { open1 with out := [{ syncWaiting with seq := 5, stale := true }] })] }
     let n := hdr noHandle
     canStart r n = true ∧ findFetched r n = none ∧ headerCheck r n 0 = none ∧ syncCheck r n = none ∧ mayStart r n = true ∧
       findOut r 1 5 ≠ none) ∧
    ((Instr.identify (hdr noHandle) 1).cmd? = some (hdr noHandle) ∧ (paramCheck (.identify (hdr noHandle) 1)).isSome = true) := by
  decide

/-- Rows that are not the command fetched under their number: another opcode, other operands, and the command itself while its
counter is 0. -/
theorem hyp_rowOfFetched :
    let c := hdr noHandle
    let o : OutCmd := { waiting with seq := 5, instr := .syncSignal c 0 0 4, opcode := 6 }
    let s := { ready with spools := [(1, { open1 with out := [o] })] }
    findFetched s c = some o ∧ o.opcode ≠ opcodeOf (.nop c) ∧
    (o.opcode = opcodeOf (.syncSignal c 0 0 5) ∧ sameCommand o (.syncSignal c 0 0 5) c = false) ∧
    (sameCommand o (.syncSignal c 0 0 4) c = true ∧ myTurn s 1 o = false) ∧ myTurn s 1 { o with released := true } = true := by
  decide

/-- A record due on spools 0 and 1, in the last slot of a ring of 64. -/
def dueState : State :=
  let d : DueRec := { record := { opcode := 0, cls := 0, code := 0, seq := 4, handle := noHandle, tick := 9, results := [],
                                  dup := false }, signal := none, closes := none }
  { ready with spools := [(0, { open1 with due := [d] }), (1, { open1 with due := [d], cqTail := 63, phase := true })] }

theorem hyp_statusRecordWrite :
    (dueState.spool 0).due ≠ [] ∧ (dueState.spool 1).due ≠ [] ∧ writesRecords dueState 0 = true ∧ writesRecords dueState 1 = true ∧
    (dueState.spool 1).cqTail + 1 = 2 ^ (dueState.spool 1).useCqOrd ∧ (dueState.spool 0).cqTail + 1 ≠ 2 ^ (dueState.spool 0).useCqOrd ∧
    (∀ d ∈ (dueState.spool 1).due, d.closes = none ∧ closeWaits dueState 1 d = false) ∧
    (dueState.spool 1).closing = false ∧ (ready.spool 1).due = [] ∧ writesRecords (spool2 Spool.init) 2 = false := by decide

/-- A write that fails on a spool that waits for its last record closes it (R348). -/
theorem hyp_statusRecordClosing :
    let s := { dueState with spools := dueState.spools.map fun e => (e.1, { e.2 with closing := true }) }
    (s.spool 1).due ≠ [] ∧ writesRecords s 1 = true ∧ (s.spool 1).closing = true := by decide

/-- R353: the record of SEQ 4 in a slot of PHASE 1, byte by byte. -/
theorem test_statusRecordWrite :
    after (exec (.statusRecordWrite 1 true) dueState) (fun t => ((t.spool 1).cqTail, (t.spool 1).phase,
      t.bus.host.readBytes (32 * 63) 32)) (0, true, []) =
    (0, false, [0, 0x80, 0, 0, 4, 0, 0, 0, 255, 255, 255, 255, 9, 0, 0, 0, 0, 0, 0, 0] ++ zeros 12) := by decide

/-- The end of a command: DONE, QUIET, an error, and after ACCEPTED. -/
theorem hyp_finalRecord :
    let o : OutCmd := { waiting with instr := .nop { hdr noHandle with seq := 4 }, started := true }
    let s := { ready with spools := [(1, { open1 with nextSeq := 5, out := [o] })] }
    findOut s 1 4 = some o ∧ outCmd o = some { hdr noHandle with seq := 4 } ∧ (s.spool 1).st ≠ .orphaned ∧ o.orphan = false ∧
    ((s.spool 1).nextSeq - 1 - 4).toNat < 256 ∧ o.shown = none ∧
    outCmd { o with instr := .nop { hdr noHandle with seq := 4, quiet := true } } =
      some { hdr noHandle with seq := 4, quiet := true } := by decide

/-- The end of a command that goes on apart from spool 1, with spool 0 open and closed. -/
theorem hyp_finalRecordApart :
    let s := { ready with spools := ready.spools ++ [(4097, { Spool.init with out := [{ syncWaiting with orphan := true }] })] }
    findOut s 4097 4 = some { syncWaiting with orphan := true } ∧ outCmd { syncWaiting with orphan := true } ≠ none ∧
    takesEvent s 0 = true ∧ takesEvent { s with spools := s.spools.drop 1 } 0 = false := by decide

/-! Registers, the CXL port and reset. -/

theorem hyp_registerAccess :
    latched 0 0x08 = true ∧ latched 0 0x80000 = true ∧ latched 0 0x8FFF8 = true ∧ latched 0 0x90000 = false ∧
    latched 2 0x11008 = true ∧ ready.boot.ready = true ∧ (7 : Nat) < 8 ∧
    ((ready.arr.wins.get CalWin.init 7).busy = none) ∧ ¬ ((0 : Nat) = 0 ∧ 0x80000 ≤ 0x7FFF8 ∧ 0x7FFF8 < 0x90000) ∧
    0x7FFF8 % 8 = 0 ∧ 0x7FFFC % 4 = 0 ∧ 0x7FFFC % 8 ≠ 0 ∧ latched 0 (0x30008 - 4) = false ∧
    ready.bus.latch.find (latchKey 0 0 0x30000) = none ∧ (0x7FFFA % 4 ≠ 0 ∨ 4 ≠ 4) ∧ State.reset.boot.ready = false ∧
    counterOwner ready 0 = 0 ∧ ¬ (2 = 0 ∧ 0x100000 ≤ 0 ∧ 0 < 0x200000) := by decide

/-- R12: the latch holds the high half of the instant of the low read. -/
theorem test_latch :
    let s := { ready with tick := { Tick.init with count := 0x500000007 } }
    let t := after (exec (.latchedLowRead 0 0 ⟨0x30000, 4⟩) s) id s
    t.bus.rdata = 7 ∧
    after (exec (.latchedHighRead 0 0 0x30004) { t with tick := { Tick.init with count := 0x900000000 } }) (fun x => x.bus.rdata) 0
      = 5 := by decide

/-- R11, R12: an 8-byte read answers both halves and keeps the latch; a read of 2 bytes answers 0. -/
theorem test_readEight :
    let s := { ready with tick := { Tick.init with count := 0x500000007 } }
    let t := after (exec (.latchedLowRead 0 0 ⟨0x30000, 4⟩) s) id s
    after (exec (.latchedLowRead 0 0 ⟨0x30000, 8⟩) t) (fun x => (x.bus.rdata, x.bus.latch == t.bus.latch)) (0, false) =
      (0x500000007, true) ∧
    after (exec (.latchedLowRead 0 0 ⟨0x30000, 2⟩) t) (fun x => x.bus.rdata) 9 = 0 := by decide

/-- VF 1's spool 4,095 waits for VF 1's counter 8,191; the PF has session 3 on spool 1 and adapter 0. -/
def shared : State :=
  { ready with
    spools := ready.spools ++ [(4095, { open1 with out := [{ waiting with instr := .nop { hdr noHandle with spool := 4095, seq := 4, mode := .wait, counter := 8191 } }] })]
    sessions := [(3, { Session.init with st := .idle, used := true, spool := 1 })]
    adapters := [(0, { Adapter.init with used := true, resident := true })]
    pending := [.syncCounterWrite 64 4096 8 7] }

/-- Where no command is outstanding, every command keeps to its function. -/
theorem owned_none {s : State} (h : ∀ e ∈ s.spools, e.2.out = []) : Owned s := by
  intro e he o ho
  simp [h e he] at ho

theorem owned_shared : Owned shared := by
  intro e he o ho
  simp only [shared, ready, List.cons_append, List.nil_append, List.mem_cons, List.not_mem_nil, or_false] at he
  rcases he with rfl | rfl | rfl
  · simp [open1, Spool.init] at ho
  · simp [open1, Spool.init] at ho
  · simp only [List.mem_singleton] at ho
    subst ho
    refine ⟨?_, ?_, by decide⟩
    · intro c hc
      have : outCmd { waiting with instr := .nop { hdr noHandle with spool := 4095, seq := 4, mode := .wait, counter := 8191 } } =
          some { hdr noHandle with spool := 4095, seq := 4, mode := .wait, counter := 8191 } := by decide
      obtain rfl : _ = c := Option.some.inj (this.symm.trans hc)
      decide
    · intro n rel v d h
      simp [waiting] at h

/-- VF 64 writes its lowest counter and VF 1 opens a spool; the step of the first. -/
theorem hyp_functionIsolation :
    let i := Instr.spoolOpen { hdr 4094 with spool := 4095 } 0x10000 0x20000 6 7 100 none
    Owned shared ∧
    (issuer shared (.registerWrite 64 0 0x80000 8 7) = some 64 ∧ outcome (exec (.registerWrite 64 0 0x80000 8 7) shared) = 0) ∧
    (issuer shared i = some 1 ∧ outcome (exec i shared) = 0) ∧
    (spoolOwner shared 1 ≠ 64 ∧ counterOwner shared 8191 ≠ 64 ∧ counterOwner shared 4096 = 64) ∧
    ((shared.sess 3).st ≠ .closed ∧ spoolOwner shared (shared.sess 3).spool ≠ 64) ∧
    ((shared.adapter 0).used = true ∧ (shared.adapter 0).resident = true ∧ (shared.adapter 0).fn ≠ 64) ∧
    (outcome (step shared) = 0 ∧ after (step shared) (fun t => opt t oVfSpools) 0 = opt shared oVfSpools ∧
      after (step shared) (fun t => opt t oVfCounters) 0 = opt shared oVfCounters) :=
  ⟨owned_shared, by decide, by decide, by decide, by decide, by decide, by decide⟩

/-- A module that waits for a host-loaded image, its first word written last. -/
def waitImage : State :=
  { State.reset with boot := { Boot.init with step := 6, hold := 4, waitImage := true, sbOffset := 0x80000000, sbAddr := some 9 } }

theorem hyp_sideband :
    sidebandTo waitImage 9 = true ∧ (9 : Nat) < 128 ∧ sidebandTo waitImage 8 = false ∧ sidebandControl waitImage = true ∧
    0x80000000 ≤ waitImage.boot.sbOffset ∧ waitImage.boot.sbOffset < 0x80010000 ∧ waitImage.boot.waitImage = true ∧
    0x8000FFFC + [1, 2, 3, (4 : Byte)].length ≤ 0x80010000 ∧ State.reset.boot.step < 3 ∧
    (let s := { ready with boot := { ready.boot with sbAddr := some 9 }, opts := { ready.opts with force := [(oSidebandControl, 0)] } }
     sidebandTo s 9 = true ∧ sidebandControl s = false) := by decide

/-- SETDASA: to this module's static address, to another, once an address is given, and before the end of step 2 (R560). -/
theorem hyp_setdasa :
    let s := { waitImage with boot := { waitImage.boot with sbAddr := none, strapAddr := 15 } }
    (s.boot.powered = true ∧ 3 ≤ s.boot.step ∧ s.boot.sbAddr = none ∧ 0x5F = 0x50 + s.boot.strapAddr) ∧
    0x50 ≠ 0x50 + s.boot.strapAddr ∧ waitImage.boot.sbAddr ≠ none ∧
    after (exec (.sidebandWrite (.setdasa 0x5F 9)) s) (fun t => sidebandTo t 9) false = true := by decide

/-- RESET_CTRL over the sideband: its key and GO, another key, and an NV pulse in progress; offsets of no register, the last
word of a range, and reads past them. -/
theorem hyp_sidebandOffsets :
    let s := { ready with boot := { ready.boot with sbOffset := 0x2FFFC, pulse := true, sbAddr := some 9 }, opts := { ready.opts with force := [(oSidebandControl, 1)] } }
    (sidebandTo s 9 = true ∧ s.supply.stopping = false ∧ sidebandControl s = true ∧ le [1, 0xA5, 0, 0] 0 4 / 256 % 256 = 0xA5 ∧
      le [1, 0xA5, 0, 0] 0 4 % 2 = 1 ∧ s.boot.pulse = true ∧ waitImage.boot.pulse = false) ∧
    ¬ (le [1, 0xA6, 0, 0] 0 4 / 256 % 256 = 0xA5) ∧
    (0x10002 < 0x80000000 ∧ 0x10002 % 4 ≠ 0) ∧ 0xFFFC + 4 ≤ 0x10000 ∧ (0x30000 ≤ 0x7FFFFFFC ∧ 0x7FFFFFFC + 4 ≤ 0x80000000) ∧
    (0x10000 ≤ s.boot.sbOffset ∧ s.boot.sbOffset < 0x30000 ∧ s.boot.sbOffset % 4 = 0 ∧ latched 0 s.boot.sbOffset = false ∧
      latched 0 (s.boot.sbOffset - 4) = false) ∧
    ready.boot.waitImage = false ∧ sidebandControl { ready with opts := { ready.opts with force := [(oSidebandControl, 0)] } } = false := by
  decide

theorem test_sideband_buffer :
    let s := after (exec (.sidebandWrite (.priv 9 0x80000000 [1, 2, 3, 4])) waitImage) id waitImage
    after (exec (.sidebandRead 9) s) (fun t => t.bus.rdata) 0 = 0x04030201 := by decide

/-- IMAGE_WRITE of bytes that are no image, and while one is in progress. -/
theorem hyp_imageWrite :
    let c := hdrIo 5 noHandle (some [1, 2, 3])
    let j : ImgJob := { spool := 1, seq := 4, copy := 0, bytes := [1], pulses := 3 }
    let s := { ready with boot := { ready.boot with imgJob := some j, imageBusy := true, pulse := true } }
    (Starts (.imageWrite c 0 1) c ready ∧ Reads (.imageWrite c 0 1) c ready 0 65536 [1, 2, 3] (begun (.imageWrite c 0 1) c ready) ∧ ready.boot.imgJob = none ∧
      imageAccepted ready ([1, 2, 3].take 65536) = false) ∧
    (Starts (.imageWrite c 0 1) c s ∧ s.boot.imgJob.isSome = true) ∧ (s.boot.imgJob = some j ∧ s.boot.latched = []) ∧
    (let r := { s with boot := { s.boot with latched := [.perst] } }; r.boot.imgJob ≠ none ∧ r.boot.pulse = true ∧ r.boot.latched ≠ []) ∧
    Unread (.imageWrite (hdr noHandle) 0 1) (hdr noHandle) ready 0 65536 :=
  ⟨⟨starts_of (by decide), reads_of (by decide) (by decide), by decide, by decide⟩, ⟨starts_of (by decide), by decide⟩, by decide, by decide,
    unread_of (by decide) (by decide)⟩

theorem test_nvProgramDone :
    let j : ImgJob := { spool := 1, seq := 4, copy := 1, bytes := [1], pulses := 3 }
    let s := { ready with boot := { ready.boot with imgJob := some j, imageBusy := true, pulse := true } }
    after (exec (.nvProgramDone true) s) (fun t => (t.nv.copyA, t.nv.copyB, t.boot.pulse)) (.torn, .torn, true) =
      (.blank, .image [1], false) ∧
    after (exec (.nvProgramDone false) s) (fun t => (t.nv.copyB, t.boot.nvFault)) (.torn, false) = (.blank, true) := by decide

/-- The pulses of an image's write: the next one starts at the next edge, until the erase and 256 pages are done (R553). -/
theorem test_nextPulse :
    let s := fun n => { ready with boot := { ready.boot with imgJob := some { spool := 1, seq := 4, copy := 1, bytes := [1], pulses := n }, pulse := true } }
    after (exec .resetAfterNvPulse (s 255)) (fun t => (t.boot.pulse, (nextPulse t).boot.pulse)) (true, false) = (false, true) ∧
    after (exec .resetAfterNvPulse (s 256)) (fun t => (nextPulse t).boot.pulse) true = false := by decide

/-- The check values of the string 123456789 under the three algorithms of R486. -/
theorem test_crc :
    let d : List Byte := [0x31, 0x32, 0x33, 0x34, 0x35, 0x36, 0x37, 0x38, 0x39]
    crc .crc32c d = 0xE3069283 ∧ crc .crc64 d = 0x6C40DF5F0B497347 ∧ crc .crc16 d = 0x29B1 := by decide +kernel

theorem hyp_checkValueUnit : (8 : Nat) < 9 ∧ ready.boot.ready = true ∧ outcome (exec (.cvuHostData 8 4 5) ready) = 0 ∧
    outcome (exec (.cvuHostData 8 8 5) ready) = 0 ∧ (hostCtx ready 8).alg = 0 ∧
    freeCtx ready 8 = some 0 := by decide

theorem test_cvuHostPoly : after (exec (.cvuHostPoly 0 2) ready) (fun t => ((hostCtx t 0).alg, (hostCtx t 0).value)) (0, 0) =
    (2, 0xFFFF#64) := by decide

/-- The last line of the window, and its last 8 bytes. -/
theorem hyp_cxlPort :
    ready.boot.ready = true ∧ ready.kv.dram.wf = true ∧ 8 * 0x200000000 - 8 < opt ready oHdmSize * 0x200000000 ∧
    (8 * 0x200000000 - 8) % 64 + 8 ≤ 64 ∧ (8 * 0x200000000 - 8) % 8 = 0 ∧ ¬ 8 * 0x200000000 < opt ready oHdmSize * 0x200000000 ∧
    State.reset.boot.ready = false := by decide

/-- A range of 64 GiB at 2^40; ADC_READ of channel 60 into its last 64 bytes. -/
def ranged : State := { ready with bus := { Bus.init with hdmBase := some 0x10000000000 } }

theorem hyp_hdmRange :
    let c := hdr noHandle
    Starts (.adcRead c (2 ^ 60) 0x10FFFFFFFC0) c ranged ∧ ranged.bus.hdmBase = some 0x10000000000 ∧ opt ranged oHdmSize ≤ 32 ∧
    ranged.kv.dram.wf = true ∧ 0x10000000000 ≤ 0x10FFFFFFFC0 ∧
    0x10FFFFFFFC0 + ((maskBits (2 ^ 60) 64).flatMap fun k => toLe 2 (adcValue (ranged.adc.chans.get AdcChan.init k))).length ≤
      0x10000000000 + opt ranged oHdmSize * 0x200000000 :=
  ⟨starts_of (by decide +kernel), by decide, by decide, by decide, by decide, by decide +kernel⟩

theorem test_hdmRange :
    let c := { hdrIo 5 noHandle none with io := { rd := none, wr := false } }
    let s := { ranged with kv := { Kv.init with dram := [(0x3000000000 - 64, 9)] },
                           bus := { ranged.bus with snoop := [0x7FFFFFF, 7] },
                           adc := { Adc.init with chans := [(0, { AdcChan.init with code := 0x123, valid := true })] } }
    after (exec (.adcRead c 1 0x101FFFFFFC0) s) (fun t => (t.kv.dram, t.bus.host, t.bus.snoop)) ([], [], []) =
      ([(0x3000000000 - 64, 0x23), (0x3000000000 - 63, 0x81)], [], [7]) ∧
    after (exec (.adcSequence c 0x10000000000) ranged) (fun t => t.tick.acts) [] = [.adcSeq (zeros 8), .finish 1 5 0 []] ∧
    after (exec (.adcSequence c 0x20000000000) ranged) (lastRec · 1) none = some (4, 0x0501, [0, 0, 0, 0, 0, 0]) := by
  decide +kernel

theorem test_configOps :
    after (exec (.configRequest 0 (.vfEnable true)) ready) (fun t => t.boot.vfEnable) false = true ∧
    after (exec (.configRequest 1 (.vfEnable true)) ready) (fun t => t.boot.vfEnable) true = false ∧
    after (exec (.configRequest 0 (.hdmRange (some 5))) ready) (fun t => t.bus.hdmBase) none = some 5 ∧
    after (exec (.configRequest 0 .hdmSize) ready) (fun t => t.bus.rdata) 0 = 0x1000000000 ∧
    after (exec (.configRequest 0 (.measurement 4 [])) ready) (fun t => t.tick.acts) [] = [.measure 4 []] ∧
    (applyAct [] { ready with bus := { Bus.init with spdm := [1] } } (.measure 4 [])).bus.spdm = [] := by decide

theorem test_hdm :
    let s := after (exec (.hdmAccess true 8 [1, 2, 3, 4, 5, 6, 7, 8] false) ready) id ready
    after (exec (.hdmAccess false 8 [] true) s) (fun t => t.bus.rdata) 0 = 0x0807060504030201 := by decide

theorem test_config : after (exec (.configRequest 0 .other) ready) (fun t => t.bus.resp) 9 = 0 ∧
    after (exec (.configRequest 0 .other) waitImage) (fun t => t.bus.resp) 9 = 2 ∧
    after (exec (.configRequest 0 .other) { waitImage with boot := { waitImage.boot with hold := 0 } }) (fun t => t.bus.resp) 9 = 1 := by
  decide

/-- A bring-up with nothing failing. -/
def clean : BringUp := { bootSel := 2, clkSel := 0, modAddr := 5, bistFail := [], factoryBad := false, dramFail := [], trimBad := [], cxl := true }

/-- A pin that stays low holds bring-up until it rises (R537). -/
theorem test_pinHeld :
    let s := after (exec (.mrst 1000 true) ready) id ready
    s.boot.pins = [.mrst] ∧ after (exec (.bringUp clean) s) (fun t => t.boot.ready) true = false ∧
    after (exec (.mrst 0 false) s) (fun t => t.boot.pins) [.mrst] = [] := by decide

/-- Pulses of 99 and 1,000 ns; a pulse of NV flash with a source latched. -/
theorem hyp_fullReset :
    let s := { ready with boot := { ready.boot with pulse := true, latched := [.perst] } }
    (99 : Nat) < 100 ∧ 1000 ≤ 1000 ∧ (100 ≤ 100 ∧ 999 < 1000) ∧ State.reset.boot.ready = false ∧ ready.boot.latched = [] ∧ ready.boot.ready = true ∧ ready.boot.pulse = false ∧
    s.boot.pulse = true ∧ s.boot.latched ≠ [] ∧
    after (exec (.perst 99 false) ready) (fun t => t.boot.ready) false = true ∧
    after (exec (.perst 1000 false) ready) (fun t => (t.boot.ready, t.boot.step)) (true, 0) = (false, 0) ∧
    (ResetSrc.perst ∉ ready.boot.pins ∧ ResetSrc.mrst ∈ ({ ready.boot with pins := [.mrst] } : Boot).pins ∧ s.supply.stopping = false ∧
      ResetSrc.brownout ∉ s.boot.latched) := by decide

theorem test_resetCtrl : after (exec (.resetCtrl 0xA501) ready) (fun t => t.boot.ready) true = false ∧
    exec (.resetCtrl 0xA500) ready = .next ready ∧ exec (.resetCtrl 0xA601) ready = .next ready := ⟨by decide, rfl, rfl⟩

theorem hyp_bringUp :
    let s := State.reset
    (Instr.bringUp clean).wf = true ∧ (Instr.bringUp { clean with bistFail := [7] }).wf = true ∧ s.boot.powered = true ∧
    s.boot.ready = false ∧ s.boot.hold = 0 ∧ s.boot.waitImage = false ∧ s.boot.step = 0 ∧ s.boot.pins = [] ∧ clean.clkSel ≠ 3 ∧ clean.bootSel = 2 ∧
    (Instr.bringUp { clean with clkSel := 3 }).wf = true ∧ (Instr.bringUp { clean with lanes := 2, rate := 1 }).wf = true ∧
    (Instr.bringUp { clean with lanes := 1 }).wf = false ∧ (Instr.bringUp { clean with dramFail := [7], factoryBad := true, bootSel := 3 }).wf = true ∧ (Instr.bringUp { clean with bistFail := [8] }).wf = true ∧
    (Instr.bringUp { clean with cxl := false }).wf = true ∧ waitImage.boot.waitImage = true ∧
    ({ waitImage.boot with waitImage := false, hold := 0 } : Boot).step = 6 ∧ ({ Boot.init with powered := false } : Boot).powered = false ∧
    ({ Boot.init with step := 8 } : Boot).step = 8 ∧ ResetSrc.brownout ∉ s.boot.pins ∧ ({ Boot.init with pins := [.perst] } : Boot).pins ≠ [] := by decide

/-- Bring-up over 4 lanes at rate 2 leaves link 0 DEGRADED with them; without CXL operation it is LOST (R466, R467). -/
theorem test_bringUp_link :
    after (exec (.bringUp { clean with lanes := 4, rate := 2 }) State.reset) (fun t => ((t.link 0).st, (t.link 0).lanes, (t.link 0).speed))
      (.down, 0, 0) = (.degraded, 4, 2) ∧
    after (exec (.bringUp { clean with cxl := false }) State.reset) (fun t => ((t.link 0).st, t.boot.ready)) (.down, true) =
      (.lost, false) := by decide

theorem test_bringUp :
    let s := State.reset
    after (exec (.bringUp clean) s) (fun t => (t.boot.ready, t.boot.cause, t.boot.inUse, t.boot.strapAddr)) (false, 0, 0, 0) =
      (true, 1#9, 2, 5) ∧
    after (exec (.bringUp { clean with bistFail := [7] }) s) (fun t => (t.boot.ready, t.boot.hold, t.boot.bistFail)) (true, 0, 0) =
      (false, 1, 128) ∧
    after (exec (.bringUp { clean with bistFail := [8] }) s) (fun t => (t.boot.ready, t.boot.hold, t.boot.bistFail)) (true, 0, 9) =
      (false, 1, 0) := by decide

/-! A small model: one layer, HIDDEN 4, one head of 64, VOCAB 8; its tile records read as zeros. -/

/-- A matrix descriptor of one tile (R292). -/
def toyDesc (role inW outW first : Nat) : List Byte :=
  toLe 4 role ++ toLe 4 inW ++ toLe 4 outW ++ [1, 0, 1, 0] ++ toLe 4 first ++ zeros 12

/-- FP32 ones. -/
def ones (n : Nat) : List Byte := (List.replicate n [0, 0, 0x80, (0x3F : Byte)]).flatten

/-- Its LAYER section. -/
def toyLayer : List Byte :=
  [1, 0, 1, 0, 1, 7, 64, 0] ++ zeros 8 ++ toLe 4 288 ++ toLe 4 32 ++ toLe 4 320 ++ toLe 4 7 ++ zeros 32 ++
  (toyDesc 0 4 64 0 ++ toyDesc 1 4 64 1 ++ toyDesc 2 4 64 2 ++ toyDesc 3 64 4 3 ++ toyDesc 4 4 8 4 ++ toyDesc 5 4 8 5 ++
    toyDesc 6 8 4 6) ++ ones 8

/-- Its HEAD section. -/
def toyHead : List Byte :=
  [2, 0, 0, 0, 0, 1, 0, 0] ++ zeros 8 ++ toLe 4 96 ++ toLe 4 16 ++ toLe 4 112 ++ toLe 4 1 ++ zeros 32 ++ toyDesc 7 4 8 0 ++ ones 4

/-- A directory entry, its digest left 0. -/
def toyDir (kind off len : Nat) : List Byte := toLe 8 kind ++ toLe 8 off ++ toLe 8 len ++ zeros 72

/-- Its bundle (R288, R290): the header, the directory, EMBED, the layer and HEAD. -/
def toyBundle : List Byte :=
  zeros 12 ++ toLe 4 1 ++ toLe 4 1 ++ toLe 4 4 ++ toLe 4 8 ++ toLe 4 16 ++ List.replicate 32 0xFF ++ toLe 8 3 ++ toLe 8 512 ++
  toLe 8 1296 ++ zeros 424 ++ (toyDir 1 800 64 ++ toyDir 0 864 320 ++ toyDir 2 1184 112) ++ List.replicate 64 0x3F ++ toyLayer ++
  toyHead

/-- The one stage of its map, on slots 0 to 7 of keel 0. -/
def toyStage : StageRec :=
  { stage := 0, keel := 0, slotFirst := 0, slotCount := 8, layerFirst := 0, layerCount := 1, embed := true, head := true,
    sample := true, outE4m3 := false, nextStage := 0, nextModule := 0, remote := false, rsvd := false }

/-- The model in a given state, at epoch 1 on its slots. -/
def toyModel (st : ModelSt) : Model :=
  { Model.init with
    gen := 1, used := true, st := st, bytes := toyBundle, keels := [0, 0, 0], stages := [toyStage], fmts := [0], epoch := 1
    units := [(0, { keel := 0, first := 0, count := 7, epoch := 1 }), (256, { keel := 0, first := 0, count := 0, epoch := 1 }),
              (257, { keel := 0, first := 7, count := 1, epoch := 1 })] }

/-- A ready module without spare panels, whose dies 0 to 3 list their first four places. -/
def bare : State :=
  { ready with
    nv := { Nv.fresh with spares := [] }
    arr := { Arrays.init with places := (List.range 4).map fun d => (d, [0, 1, 2, 3]) } }

/-- The module with the small model at index 0. -/
def withModel (st : ModelSt) : State := { bare with models := [(0, toyModel st)] }

/-- The model's handle. -/
def toyH : W32 := 0x01000000

theorem test_toyBundle : bLength toyBundle = 1296 ∧ toyBundle.length = 1296 ∧ bLayers toyBundle = 1 ∧ bHidden toyBundle = 4 ∧
    bSections toyBundle = 3 ∧ sHq (unitSection toyBundle 0) = 1 ∧ sDh (unitSection toyBundle 0) = 64 ∧
    (matrices (unitSection toyBundle 0)).map (fun d => (d.role, d.inW, d.outW)) =
      [(0, 4, 64), (1, 4, 64), (2, 4, 64), (3, 64, 4), (4, 4, 8), (5, 4, 8), (6, 8, 4)] ∧
    (roleDesc (unitSection toyBundle 257) 7).outW = 8 := by decide +kernel

theorem test_toyTiles : modelTiles (withModel .committed) (toyModel .committed) =
    [(0, 0, 0), (16384, 0, 1), (32768, 0, 2), (49152, 0, 3), (8, 0, 4), (16392, 0, 5), (32776, 0, 6), (49160, 257, 0)] := by
  decide +kernel

/-! Links and DRAM channels. -/

/-- A module whose link `l` is in a given condition. -/
def withLink (l : Nat) (x : Link) : State := { ready with links := [(l, x)] }

/-- A chain port up on its 16 lanes, a bridle link up on 64 of its 68. -/
def chainUp : Link := { Link.init with st := .up, lanes := 16, working := List.range 16 }
def bridleUp : Link := { Link.init with st := .up, lanes := 64, working := List.range 68 }

/-- Lane 15 of a chain port and lane 67 of a bridle link; retraining with 3, 4, 8 and 16 lanes, and 31 and 32; a lost port
retried with 3 and 4; neighbours above and at our address of 3. -/
theorem hyp_linkWidth :
    (linkOk 1 = true ∧ linkUp (withLink 1 chainUp) 1 = true ∧ 15 ∈ ((withLink 1 chainUp).link 1).working) ∧
    (linkOk 27 = true ∧ linkUp (withLink 27 bridleUp) 27 = true ∧ 67 ∈ ((withLink 27 bridleUp).link 27).working) ∧
    ((withLink 2 { chainUp with st := .training }).link 2).st = .training ∧
    ((withLink 2 { chainUp with st := .training }).link 2).lanes ≠ 0 ∧
    widthOf 2 3 = 0 ∧ widthOf 2 4 = 4 ∧ widthOf 2 8 = 8 ∧ widthOf 2 16 = 16 ∧ widthOf 16 31 = 0 ∧ widthOf 16 32 = 32 ∧
    ((withLink 1 { Link.init with st := .lost }).link 1).orderErr = false ∧
    (¬ (3 : Nat) < 3 % 16) ∧ (3 : Nat) < 4 % 16 := by decide

/-- LINK_LOST: the third failed training and the second, too few lanes and enough. -/
theorem hyp_linkLost :
    let s := fun n w => withLink 27 { bridleUp with st := .training, failed := n, working := List.range w }
    linkOk 27 = true ∧ ((s 2 68).link 27).st = .training ∧ 2 ≤ ((s 2 68).link 27).failed ∧ ((s 1 68).link 27).failed < 2 ∧
    (((s 0 31).link 27).lanes ≠ 0 ∧ widthOf 27 ((s 0 31).link 27).working.length = 0) ∧
    widthOf 27 ((s 0 32).link 27).working.length ≠ 0 ∧ (ready.link 2).st = .down ∧ (ready.link 27).lanes = 0 := by decide

/-- A third failure in succession loses the link, with its record; the second only counts (R483). -/
theorem test_linkLost :
    let s := fun n => withLink 1 { chainUp with st := .training, failed := n }
    after (exec (.linkLost 1 true) (s 1)) (fun t => ((t.link 1).st, (t.link 1).failed)) (.down, 0) = (.training, 2) ∧
    after (exec (.linkLost 1 true) (s 2)) (fun t => ((t.link 1).st, t.chk.log.getLast?.map fun r => (r.kind, r.detail))) (.down, none) =
      (.lost, some (0x32, 1)) := by decide

theorem test_laneFault : after (exec (.laneFault 1 15) (withLink 1 chainUp)) (fun t => ((t.link 1).st, (t.link 1).working.length))
    (.up, 0) = (.training, 15) := by decide

/-- R481: 15 working lanes leave a width of 12. -/
theorem test_retrain :
    after (exec (.retrainDone 1 (List.range 15)) (withLink 1 { chainUp with st := .training, working := List.range 15 }))
      (fun t => ((t.link 1).st, (t.link 1).lanes, (t.link 1).degrades)) (.up, 0, 0) = (.degraded, 12, 1) ∧
    after (exec (.retrainDone 1 [0, 1, 2]) (withLink 1 { chainUp with st := .training, working := List.range 15 }))
      (fun t => (t.link 1).st) .up = .lost := by decide

theorem test_neighbour : let s := { withLink 2 chainUp with boot := { ready.boot with strapAddr := 3 } }
    after (exec (.chainNeighbourLearn 2 4) s) (fun t => ((t.link 2).st, (t.link 2).neighbour)) (.down, none) = (.up, some 4) ∧
    after (exec (.chainNeighbourLearn 2 3) s) (fun t => ((t.link 2).st, (t.link 2).orderErr)) (.down, false) = (.lost, true) := by
  decide

/-- The next frame on chain port 1, one out of order, one that fails its check, an acknowledgement; and a link that is down. -/
theorem hyp_linkFrames :
    let s := withLink 1 chainUp
    let raw := rawOf 1 frame0 []
    let ack := rawOf 1 { frame0 with typ := 1, ack := 7 } []
    (linkOk 1 = true ∧ linkUp s 1 = true ∧ freeCtx s (endKeel 1) ≠ none ∧ frameGood 1 raw = true) ∧
    ((headerFrame raw (.bytes [])).typ = 0 ∧ (headerFrame raw (.bytes [])).seq = ((s.linkEnd 1).rxLast + 1) % 4096) ∧
    (1 : Nat) ≠ ((s.linkEnd 1).rxLast + 1) % 4096 ∧ frameGood 1 (raw.set 8 1) = false ∧
    (frameGood 1 ack = true ∧ (headerFrame ack (.bytes [])).typ = 1 ∧ (headerFrame ack (.bytes [])).ack = 7 ∧
      (headerFrame ack (.bytes [])).nak = false ∧ (s.linkEnd 1).queue = []) ∧ linkUp ready 1 = false := by decide +kernel

/-- The rest of the clauses: a frame acknowledged in the middle of the buffer, ends with frames outstanding, eight resends, a first
and a second timer, bytes from keel 0 to keel 7. -/
theorem hyp_linkTimers :
    let f := fun n => { frame0 with seq := n }
    let e : LinkEnd := { LinkEnd.init with buffer := [f 1, f 2, f 3], resends := 8 }
    let s := { withLink 1 { chainUp with timers := 1, fecNow := true, fecBefore := true } with ends := [(1, e)] }
    (e.buffer = [f 1] ++ f 2 :: [f 3] ∧ (f 2).seq = 2 ∧ (∀ y ∈ [f 1], y.seq ≠ 2) ∧ ∀ y ∈ e.buffer, y.seq ≠ 9) ∧
    ((s.linkEnd 1).buffer ≠ [] ∧ 8 ≤ (s.linkEnd 1).resends ∧ endLink 1 ≠ 0 ∧ linkUp s (endLink 1) = true ∧
      (s.link (endLink 1)).working ≠ []) ∧
    ((s.link 1).timers ≠ 0 ∧ (s.link 1).fecNow = true ∧ (s.link 1).fecBefore = true ∧ (ready.link 1).timers = 0) ∧
    (bridleHop 0 7).isSome = true ∧ (frame0.cls < 3 ∧ frame0.typ < 3 ∧ frame0.dest < 16 ∧ frame0.ack < 4096) := by decide

/-- A TICK_COUNT broadcast for this module, to a follower and to a module of another role. -/
theorem hyp_countBroadcast :
    let f : Frame := { frame0 with payload := .ctrl (.countBroadcast 9) }
    let raw := rawOf 1 f (toLe 8 9)
    let s := fun (r : Nat) => { withLink 1 chainUp with tick := { Tick.init with role := r } }
    (s 2).tick.role = 2 ∧ (s 0).tick.role ≠ 2 ∧ linkUp (s 2) 1 = true ∧ freeCtx (s 2) (endKeel 1) ≠ none ∧ frameGood 1 raw = true ∧
    headerFrame raw (.ctrl (.countBroadcast 9)) = f ∧
    f.typ = 0 ∧ f.seq = (((s 2).linkEnd 1).rxLast + 1) % 4096 ∧ f.dest = (s 2).boot.strapAddr := by decide +kernel

theorem test_frame :
    after (exec (.linkFrameReceive 1 true (rawOf 1 frame0 []) 0 0 (.bytes [])) (withLink 1 chainUp)) (fun t => (t.linkEnd 1).rxLast) 9 = 0 ∧
    after (exec (.linkFrameReceive 1 true (rawOf 1 { frame0 with seq := 1 } []) 0 0 (.bytes [])) (withLink 1 chainUp))
      (fun t => ((t.linkEnd 1).rxLast, (t.linkEnd 1).nak)) (0, false) = (4095, true) := by decide +kernel

theorem test_fec : after (exec (.linkFrameReceive 1 false (rawOf 1 frame0 []) 0x28000 70000 (.bytes [])) (withLink 1 chainUp))
    (fun t => ((t.link 1).fecGood, (t.link 1).fecBad)) (0, 0) = (0x28000, 65535) := by decide +kernel

/-- What the arbiter's window has granted is forgotten once its 4,096 beats have passed, and not before (R494). -/
theorem test_window :
    rollWindow { ArbChan.init with beats := 4095, grants2 := 9 } = { ArbChan.init with beats := 4095, grants2 := 9 } ∧
    rollWindow { ArbChan.init with beats := 4096, grants2 := 9 } = { ArbChan.init with beats := 4096, ended := 1 } := by decide

/-- A channel of keel 7 in a given condition. -/
def withChan (a : ArbChan) : State := { ready with arb := { Arb.init with chans := [(7 * 96 + 95, a)] } }

/-- Requests of classes 6, 2 and 2. -/
def raised3 : List ArbReq := [{ cls := 6, idx := 0, beats := 2 }, { cls := 2, idx := 9, beats := 4 }, { cls := 2, idx := 3, beats := 4 }]

/-- An idle channel, the last beat of a transfer, a transfer of class 3 that is revoked, and one of class 2 that goes on. -/
theorem hyp_arbitration :
    let at_ := fun (s : State) => s.arb.chans.get ArbChan.init (7 * 96 + 95)
    (at_ (withChan ArbChan.init)).cur = none ∧ (7 : Nat) < 8 ∧ (95 : Nat) < 96 ∧
    (raised3.filter fun r => !classMasked ready 7 ArbChan.init raised3 r.cls) ≠ [] ∧
    (at_ (withChan { ArbChan.init with cur := some ({ cls := 2, idx := 0, beats := 4 }, 1) })).cur ≠ none ∧
    (at_ (withChan { ArbChan.init with cur := some ({ cls := 3, idx := 0, beats := 4 }, 2) })).cur ≠ none ∧
    (Instr.dramArbitration 7 95 raised3).wf = true ∧
    (let a := { ArbChan.init with beats := 4096 }; a.ended < a.beats / 4096 ∧ ArbChan.init.beats / 4096 ≤ ArbChan.init.ended) := by decide

theorem test_arbitration :
    let cur := fun a r => after (exec (.dramArbitration 7 95 r) (withChan a))
      (fun t => ((t.arb.chans.get ArbChan.init (7 * 96 + 95)).cur.map fun c => (c.1.cls, c.1.idx, c.2))) none
    cur ArbChan.init raised3 = some (2, 3, 4) ∧
    cur { ArbChan.init with cur := some ({ cls := 3, idx := 0, beats := 4 }, 2) } raised3 = some (2, 3, 4) ∧
    cur { ArbChan.init with cur := some ({ cls := 2, idx := 0, beats := 4 }, 2) } raised3 = some (2, 0, 1) := by decide

/-! Model and panel commands. -/

/-- A header that names the model. -/
def mHdr (rd : Option (List Byte)) : Cmd := hdrIo 5 toyH rd

/-- BUNDLE_STAGE with MODE NEW and TARGET, and with a read that fails. -/
theorem hyp_bundleStage :
    let c := hdrIo 5 noHandle (some toyBundle)
    let i := Instr.bundleStage c 4096 1296 0 0 0 none
    (Starts i c bare ∧ Reads i c bare 4096 1296 toyBundle (begun i c bare) ∧ leastBelow 16 (modelIndexFree (begun i c bare) c) = some 0 ∧
      bLength (toyBundle.take 1296) = 1296 ∧
      regionFits (begun i c bare) (stagedRoom (toyBundle.take 1296) (basicKeels (toyBundle.take 1296))) = true) ∧
    (let d := mHdr (some toyBundle)
     let j := Instr.bundleStage d 4096 1296 1 0 0 none
     Starts j d (withModel .committed) ∧ findModel (begun j d (withModel .committed)) toyH = some 0 ∧
      modelBusy (begun j d (withModel .committed)) 0 false = false ∧ ((withModel .committed).model 0).pendB = none ∧
      regionFits (begun j d (withModel .committed)) (stagedRoom (toyBundle.take 1296) (basicKeels (toyBundle.take 1296))) = true) ∧
    Starts (.bundleStage (hdr noHandle) 4096 1296 0 0 0 none) (hdr noHandle) bare :=
  ⟨⟨starts_of (by decide +kernel), reads_of (by decide +kernel) rfl, by decide +kernel, by decide +kernel, by decide +kernel⟩,
    ⟨starts_of (by decide +kernel), by decide +kernel, by decide +kernel, by decide +kernel, by decide +kernel⟩,
    starts_of (by decide +kernel)⟩

/-- MODE RESTAGE, of no model, of a length that is not LENGTH's; NEW with no index free, and with a section that no keel takes. -/
theorem hyp_bundleStageEnds :
    let d := mHdr (some toyBundle)
    let i := fun (n mode k : Nat) => Instr.bundleStage d 4096 n mode 0 k none
    let e := hdrIo 5 noHandle (some toyBundle)
    let n := fun (n : Nat) => Instr.bundleStage e 4096 n 0 0 0 none
    let full := { bare with models := (List.range 16).map fun j => (j, toyModel .committed) }
    let huge := toyBundle.take 528 ++ toLe 8 (2 ^ 40) ++ toyBundle.drop 536
    (Starts (i 1296 2 3) d (withModel .committed) ∧ findModel (begun (i 1296 2 3) d (withModel .committed)) toyH = some 0 ∧
      modelBusy (begun (i 1296 2 3) d (withModel .committed)) 0 true = false ∧ ((withModel .committed).model 0).st ≠ .staging ∧
      0 + 3 ≤ bSections toyBundle ∧ ¬ 0 + 4 ≤ bSections toyBundle) ∧
    (Starts (i 1296 1 0) d bare ∧ findModel (begun (i 1296 1 0) d bare) toyH = none) ∧
    (Starts (n 1312) e bare ∧ bLength (toyBundle.take 1312) ≠ 1312) ∧
    (Starts (n 1296) e full ∧ leastBelow 16 (modelIndexFree (begun (n 1296) e full) e) = none) ∧
    regionFits bare (stagedRoom huge (basicKeels huge)) = false :=
  ⟨⟨starts_of (by decide +kernel), by decide +kernel, by decide +kernel, by decide +kernel, by decide +kernel, by decide +kernel⟩,
    ⟨starts_of (by decide +kernel), by decide +kernel⟩, ⟨starts_of (by decide +kernel), by decide +kernel⟩,
    ⟨starts_of (by decide +kernel), by decide +kernel⟩, by decide +kernel⟩

/-- A command of spool 1 under way with a job. -/
def atWork (j : Job) : OutCmd := { waiting with started := true, accepted := true, job := j }

/-- A bundle arrives: one whose digests are wrong, and a restage of no section. -/
theorem hyp_bundleArrives :
    let s := fun (j : Job) => { withModel .staging with spools := [(1, { open1 with out := [atWork j] })] }
    (let j := Job.stage 0 0 0 0 toyBundle [0, 0, 0];
      findOut (s j) 1 4 = some (atWork j) ∧ (s j).bus.viral = false ∧ bufferHere (s j) (atWork j) = false ∧
      (bundleCheck (s j) toyBundle).isSome = true) ∧
    (let j := Job.stage 0 2 0 0 toyBundle [];
      findOut (s j) 1 4 = some (atWork j) ∧ firstBad (stagedFrame toyBundle toyBundle) ((List.range 0).map (0 + ·)) = none) := by
  decide +kernel

theorem test_bundleStage_handle :
    after (exec (.bundleStage (hdrIo 5 noHandle (some toyBundle)) 4096 1296 0 0 0 none) bare) (lastRec · 1) none =
      some (1, 1, toLe 4 (modelHandle 0 (nextGen false 0)).toNat) := by decide +kernel

/-- MODEL_PLACE of the staged model: its map, one that overlaps no keel slot but lacks the head, and in another state. -/
theorem hyp_modelPlace :
    let staged := { bare with models := [(0, { toyModel .staged with stages := [], units := [], fmts := [], epoch := 0 })] }
    let i := Instr.modelPlace (mHdr none) [toyStage] none
    (Starts i (mHdr none) staged ∧ findModel (begun i (mHdr none) staged) toyH = some 0 ∧ (staged.model 0).st = .staged ∧
      placeRefusal (begun i (mHdr none) staged) (staged.model 0) [toyStage] none = none ∧
      modelBusy (begun i (mHdr none) staged) 0 false = false) ∧
    placeRefusal (begun i (mHdr none) staged) (staged.model 0) [{ toyStage with head := false }] none = some (0x0602, 0) ∧
    (Starts i (mHdr none) (withModel .placed) ∧ ((withModel .placed).model 0).st ≠ .staged) :=
  ⟨⟨starts_of (by decide +kernel), by decide +kernel, by decide +kernel, by decide +kernel, by decide +kernel⟩,
    by decide +kernel, starts_of (by decide +kernel), by decide +kernel⟩

/-- MODEL_WRITE of a PLACED and of a WRITTEN model; MODEL_COMMIT with tiles missing and with all of them. -/
theorem hyp_modelWriteCommit :
    (Starts (.modelWrite (mHdr none)) (mHdr none) (withModel .placed) ∧
      findModel (begun (.modelWrite (mHdr none)) (mHdr none) (withModel .placed)) toyH = some 0 ∧
      modelBusy (begun (.modelWrite (mHdr none)) (mHdr none) (withModel .placed)) 0 false = false ∧
      modelTiles (withModel .placed) ((withModel .placed).model 0) ≠ [] ∧
      recordLost (toyModel .placed) 1 0 0 = false ∧ recordLost { toyModel .placed with lost := [(0, 0)] } 1 0 0 = true) ∧
    Starts (.modelWrite (mHdr none)) (mHdr none) (withModel .written) ∧
    Starts (.modelWrite (mHdr none)) (mHdr none) (withModel .committed) ∧
    (Starts (.modelCommit (mHdr none)) (mHdr none) (withModel .written) ∧
      ∃ t ∈ modelTiles (withModel .written) ((withModel .written).model 0), ((withModel .written).tileAt t.1).holds = none) ∧
    Starts (.modelCommit (mHdr none)) (mHdr none) (withModel .placed) :=
  ⟨⟨starts_of (by decide +kernel), by decide +kernel, by decide +kernel, by decide +kernel, by decide +kernel⟩,
    starts_of (by decide +kernel), starts_of (by decide +kernel), ⟨starts_of (by decide +kernel), by decide +kernel⟩,
    starts_of (by decide +kernel)⟩

/-- A stale handle, and the end of a write: one with a tile still to be written, and one with every tile written. -/
theorem hyp_modelWriteEnds :
    let s := fun (x : Tile) => { withModel .placed with
      spools := [(1, { open1 with out := [atWork (.write 0)] })], arr := { bare.arr with tiles := [(0, x)] } }
    (Starts (.modelWrite (mHdr none)) (mHdr none) bare ∧ findModel (begun (.modelWrite (mHdr none)) (mHdr none) bare) toyH = none) ∧
    (∃ t ∈ modelTiles (s { Tile.init with under := some { model := 0, unit := 0, record := 0, epoch := 1 } }) (toyModel .placed),
      ((s { Tile.init with under := some { model := 0, unit := 0, record := 0, epoch := 1 } }).tileAt t.1).under.isSome = true) ∧
    (∀ t ∈ modelTiles (s { Tile.init with fail := true }) (toyModel .placed),
      ((s { Tile.init with fail := true }).tileAt t.1).under = none ∧
      ((s { Tile.init with fail := true }).panelAt (t.1 / 8)).fresh = false) :=
  ⟨⟨starts_of (by decide +kernel), by decide +kernel⟩, by decide +kernel, by decide +kernel⟩

/-- A MASTER_LOST tile of a MODEL_WRITE stands failed with its record (R308). -/
theorem test_modelWrite_lost :
    let s := { bare with models := [(0, { toyModel .placed with lost := [(0, 0)] })] }
    after (exec (.modelWrite (mHdr none)) s) (fun t => ((t.tileAt 0).fail, (t.tileAt 8).fail, t.chk.log.map FaultRec.kind)) (false, true, []) =
      (true, false, [6]) := by decide +kernel

/-- What tile record `r` of the layer leaves in its tile at an epoch. -/
def toySrc (u r e : Nat) : TileSrc := { model := 0, unit := u, record := r, epoch := e }

/-- The module with the model and its eight tiles written at an epoch, on calibrated panels. -/
def written (st : ModelSt) (e : Nat) : State :=
  { withModel st with
    arr := { bare.arr with
      tiles := [(0, toySrc 0 0 e), (8, toySrc 0 4 e), (16384, toySrc 0 1 e), (16392, toySrc 0 5 e), (32768, toySrc 0 2 e),
                (32776, toySrc 0 6 e), (49152, toySrc 0 3 e), (49160, toySrc 257 0 e)].map
                  fun x => (x.1, { Tile.init with holds := some x.2 })
      panels := [0, 1, 2048, 2049, 4096, 4097, 6144, 6145].map fun p => (p, { Panel.init with cal := true }) } }

theorem hyp_modelCommit : Starts (.modelCommit (mHdr none)) (mHdr none) (written .written 1) ∧
    ((written .written 1).model 0).st = .written ∧
    (modelTiles (written .written 1) ((written .written 1).model 0)).length = modelSize (toyModel .written) ∧
    (∀ t ∈ modelTiles (written .written 1) ((written .written 1).model 0),
      ((written .written 1).tileAt t.1).holds ≠ none ∧ ((written .written 1).panelAt (t.1 / 8)).cal = true) :=
  ⟨starts_of (by decide +kernel), by decide +kernel, by decide +kernel, by decide +kernel⟩

/-- MODEL_WRITE of a WRITTEN model of which one tile failed; its record is staged on the tile's keel. -/
theorem hyp_modelWriteOne :
    let s := { written .written 1 with arr := { (written .written 1).arr with
      tiles := (written .written 1).arr.tiles.set 0 { Tile.init with fail := true } } }
    Starts (.modelWrite (mHdr none)) (mHdr none) s ∧
    ((modelTiles s (s.model 0)).filter fun t => (s.tileAt t.1).fail || !(s.panelAt (t.1 / 8)).cal) = [(0, 0, 0)] ∧
    recordLost (s.model 0) 1 0 0 = false ∧ stagingKeel (s.model 0) 1 0 = some (tileKeel 0) :=
  ⟨starts_of (by decide +kernel), by decide +kernel, by decide +kernel, by decide +kernel⟩

/-- R309: commit opens epoch 1. -/
theorem test_commit : after (exec (.modelCommit (mHdr none)) (written .written 1)) (lastRec · 1) none = some (0, 0, [1, 0]) ∧
    after (exec (.modelCommit (mHdr none)) (withModel .written)) (lastRec · 1) none = some (4, 0x0503, []) := by decide +kernel

/-- The committed model with a pending bundle that changes nothing in shape. -/
def pendingModel : State := { written .committed 1 with
  models := [(0, { toyModel .committed with pendB := some (toyBundle, [0, 0, 0]) })] }

theorem hyp_modelReplace :
    let i := Instr.modelReplace (mHdr none) 0 none
    let e : ReplaceExt := { prewrite := false, mask := [0], pairs := [] }
    let j := Instr.modelReplace { mHdr none with expert := true } 1 (some e)
    (Starts i (mHdr none) (withModel .committed) ∧ ((withModel .committed).model 0).pendB = none ∧
      findModel (begun i (mHdr none) (withModel .committed)) toyH = some 0) ∧
    (Starts j { mHdr none with expert := true } pendingModel ∧ (pendingModel.model 0).pendB = some (toyBundle, [0, 0, 0]) ∧
      (pendingModel.model 0).st = .committed ∧ (∀ v ∈ e.mask, (unitDir toyBundle v).isSome = true) ∧
      bundleShapeSame toyBundle toyBundle = true) ∧
    (1 < 65536 ∧ (1 : Nat) ≠ 0 ∧ epochNamed ready 0 toyH 1 = false) ∧
    (unitDir toyBundle 1 = none ∧ bundleShapeSame toyBundle (toyBundle.set 20 5) = false ∧
      pairOk (begun j { mHdr none with expert := true } pendingModel) toyH 1 2 (0, 0) = false) :=
  ⟨⟨starts_of (by decide +kernel), by decide +kernel, by decide +kernel⟩,
    ⟨starts_of (by decide +kernel), by decide +kernel, by decide +kernel, by decide +kernel, by decide +kernel⟩,
    by decide +kernel, by decide +kernel⟩

/-- MODEL_UNLOAD before and after cut-over, with the unit whose shadow is dropped. -/
theorem hyp_modelUnloadPending :
    let r : Repl := { spool := 1, seq := 4, newEpoch := 2, fate := 0, prewrite := true, mask := [0], pairs := [], cut := false,
                      units := [(0, { first := 8, barrier := false, switched := false, edge := 0 })], blocked := [] }
    let s := fun (b : Bool) => { written .replacing 1 with
      models := [(0, { toyModel .replacing with pendB := some (toyBundle, [0, 0, 0]), repl := some { r with cut := b } })] }
    (Starts (.modelUnload (mHdr none) true) (mHdr none) (s false) ∧ ((s false).model 0).repl = some r ∧ r.cut = false ∧
      ((s false).model 0).units.find 0 = some { keel := 0, first := 0, count := 7, epoch := 1 }) ∧
    (((s true).model 0).repl = some { r with cut := true } ∧
      (let b := { r with units := [(0, { first := 8, barrier := true, switched := false, edge := 0 })] }
       let x := { written .replacing 1 with models := [(0, { toyModel .replacing with pendB := some (toyBundle, [0, 0, 0]), repl := some b })] }
       Starts (.modelUnload (mHdr none) true) (mHdr none) x ∧ findModel (begun (.modelUnload (mHdr none) true) (mHdr none) x) toyH = some 0 ∧
       (unitTiles x toyBundle 0 0 0).map Prod.fst = [0, 16384, 32768, 49152, 8, 16392, 32776] ∧ recordLost (toyModel .committed) 1 0 0 = false)) ∧
    (Starts (.modelUnload (mHdr none) true) (mHdr none) bare ∧
      findModel (begun (.modelUnload (mHdr none) true) (mHdr none) bare) toyH = none) :=
  ⟨⟨starts_of (by decide +kernel), by decide +kernel, by decide, by decide +kernel⟩,
    ⟨by decide +kernel, starts_of (by decide +kernel), by decide +kernel, by decide +kernel, by decide +kernel⟩,
    starts_of (by decide +kernel), by decide +kernel⟩

/-- A BARRIER unit is rewritten from the old master copy when its unload ends the replacement before cut-over (R324). -/
theorem test_unload_barrier :
    let r : Repl := { spool := 1, seq := 4, newEpoch := 2, fate := 0, prewrite := true, mask := [0], pairs := [], cut := false,
                      units := [(0, { first := 0, barrier := true, switched := false, edge := 0 })], blocked := [] }
    let x := { written .replacing 1 with models := [(0, { toyModel .replacing with pendB := some (toyBundle, [0, 0, 0]), repl := some r })] }
    after (exec (.modelUnload (mHdr none) true) x) (fun t => ((t.tileAt 0).under, (t.tileAt 49160).under)) (none, none) =
      (some (toySrc 0 0 1), none) := by decide +kernel

theorem hyp_modelUnload :
    (Starts (.modelUnload (mHdr none) false) (mHdr none) (withModel .written) ∧ (withModel .written).pipe.entries = [] ∧
      (withModel .written).adapters = [] ∧ (∀ x ∈ (withModel .written).sessions, x.2.st = .closed ∧ x.1 < 65536)) ∧
    (Starts (.modelUnload (mHdr none) true) (mHdr none) pendingModel ∧ (pendingModel.model 0).repl = none ∧
      (pendingModel.model 0).pendB.isSome = true) :=
  ⟨⟨starts_of (by decide +kernel), by decide +kernel, by decide +kernel, by decide +kernel⟩, starts_of (by decide +kernel),
    by decide +kernel, by decide +kernel⟩

/-- A die of which three places are in service: panel 0 holds weights, panel 1 is free, panel 2 retired, panel 3 a spare. -/
def mapped : State :=
  { written .committed 1 with
    nv := { Nv.fresh with spares := [List.replicate 1853 3] }
    arr := { (written .committed 1).arr with
      tiles := [(0, { Tile.init with holds := some (toySrc 0 0 1) })], retired := [2] } }

theorem hyp_panelMap :
    (Starts (.panelRetire (hdr noHandle) 2) (hdr noHandle) bare ∧ panelState bare 2 = 0) ∧
    (Starts (.panelRetire (hdr noHandle) 0) (hdr noHandle) (written .committed 1) ∧ panelState (written .committed 1) 0 = 1) ∧
    (Starts (.panelRemap (hdr noHandle) 0 0 3 0) (hdr noHandle) mapped ∧ panelOk 3 = true ∧
      lowestSpare mapped (panelDie 0) ≠ none ∧ panelState mapped 3 = 3 ∧ panelState mapped 0 = 1 ∧ panelState mapped 2 = 4 ∧
      panelState mapped 1 = 0 ∧ panelBusy mapped 0 = false ∧ panelBusy mapped 3 = false ∧ panelDie 3 = panelDie 0) ∧
    Starts (.panelRemap (hdr noHandle) 1 1 0 64) (hdr noHandle) bare :=
  ⟨⟨starts_of (by decide +kernel), by decide +kernel⟩, ⟨starts_of (by decide +kernel), by decide +kernel⟩,
    ⟨starts_of (by decide +kernel), by decide +kernel⟩, starts_of (by decide +kernel)⟩


/-- The end of a PANEL_REMAP: the spare written and calibrated, and not calibrated under a panel that holds weights. -/
theorem hyp_remapEnds :
    let s := fun (b : Bool) => { mapped with
      spools := [(1, { open1 with out := [atWork (.remap 0 3)] })]
      arr := { mapped.arr with panels := [(3, { Panel.init with cal := b })] } }
    (s true).spools = [(1, { open1 with out := [atWork (.remap 0 3)] })] ∧ (atWork (.remap 0 3)).accepted = true ∧
    panelUnder (s true) 3 = false ∧ ((s true).panelAt 3).fresh = false ∧ EdgeAct.remap 0 3 ∉ ([] : List EdgeAct) ∧
    (panelHolds (s false) 0 = true ∧ ((s false).panelAt 3).cal = false) ∧ ((s true).panelAt 3).cal = true ∧
    (liveOrder mapped (panelDie 0))[0]? = some (0 % 2048) := by decide +kernel
/-! Session, frame, key-value and adapter commands. -/

/-- A session of the small model on spool 1, in a given state, with LENGTH 3 of 16, PENDING 2 and its layer root. -/
def toySess (st : SessSt) : Session :=
  { Session.init with
    st := st, used := true, gen := 1, spool := 1, model := toyH, epoch := 1, maxCtx := 16, length := 3, pend := some 2
    history := [1, 2, 3], runs := [(0, (0, 0))] }

/-- The module with the committed model and session 3. -/
def withSession (x : Session) : State := { written .committed 1 with sessions := [(3, x)] }

/-- The session's handle and a header that names it. -/
def sessH : W32 := 0x01000003
def sHdr (rd : Option (List Byte)) : Cmd := hdrIo 5 sessH rd

/-- SESSION_OPEN: in a model that is not committed; MAX_CONTEXT 0, 1, 16 and 17 of 16; a spool with no quota left; and a
success. -/
theorem hyp_sessionOpen :
    let i := fun ctx => Instr.sessionOpen (mHdr none) ctx noHandle noHandle none
    let full := { withModel .committed with spools := [(1, { open1 with sessQuota := some 0 })] }
    let u := begun (i 16) (mHdr none) (withModel .committed)
    Starts (i 16) (mHdr none) (withModel .written) ∧
    (Starts (i 16) (mHdr none) (withModel .committed) ∧ Starts (i 17) (mHdr none) (withModel .committed) ∧
      bMaxCtx toyBundle = 16 ∧ tokensOk (toyModel .committed) (bEndTokens toyBundle) = true ∧ findModel u toyH = some 0 ∧
      sessQuotaOk u 1 = true ∧ (allocSession u (toyModel .committed) none 16).isSome = true) ∧
    leastBelow 65536 (sessIndexFree u (mHdr none)) = some 0 ∧
    (Starts (i 1) (mHdr none) full ∧ sessQuotaOk (begun (i 1) (mHdr none) full) 1 = false) :=
  ⟨starts_of (by decide +kernel),
    ⟨starts_of (by decide +kernel), starts_of (by decide +kernel), by decide +kernel, by decide +kernel, by decide +kernel,
      by decide +kernel, by decide +kernel⟩,
    leastBelow_eq_some.mpr ⟨by decide +kernel, by decide, fun _ h => absurd h (Nat.not_lt_zero _)⟩,
    starts_of (by decide +kernel), by decide +kernel⟩

/-- Parameters with a TOP_K of 8, the most of VOCAB 8, and of 9. -/
def params (k : Nat) : SampleParams := { (defaultParams (withModel .committed) (mHdr none)) with topK := k }

/-- SESSION_OPEN in no model, and with a TOP_K above VOCAB; any session command with a stale handle, and on a session that
imports. -/
theorem hyp_sessionEnds :
    let i := Instr.sessionOpen (mHdr none) 16 noHandle noHandle none
    let e := { mHdr none with expert := true }
    let j := Instr.sessionOpen e 16 noHandle noHandle (some { cls := 1, params := params 9, draft := noHandle, stops := [] })
    let c := sHdr none
    (Starts i (mHdr none) bare ∧ findModel (begun i (mHdr none) bare) toyH = none) ∧
    (Starts j e (withModel .committed) ∧ ¬ (params 9).topK ≤ bVocab toyBundle) ∧
    (Starts (.sessionStep c 1) c ready ∧ findSession (begun (.sessionStep c 1) c ready) c = none ∧
      Starts (.sessionCancel c true) c ready ∧ Starts (.sessionRelease c) c ready ∧ Starts (.kvExport c 4096 64) c ready) ∧
    (let s := withSession { toySess .idle with importing := true };
      Starts (.sessionStep c 1) c s ∧ Starts (.sessionCancel c true) c s ∧ Starts (.sessionTruncate c 1 noHandle) c s ∧
      (s.sess 3).importing = true ∧ findSession (begun (.sessionStep c 1) c s) c = some 3) :=
  ⟨⟨starts_of (by decide +kernel), by decide +kernel⟩, ⟨starts_of (by decide +kernel), by decide +kernel⟩,
    ⟨starts_of (by decide +kernel), by decide +kernel, starts_of (by decide +kernel), starts_of (by decide +kernel),
      starts_of (by decide +kernel)⟩,
    starts_of (by decide +kernel), starts_of (by decide +kernel), starts_of (by decide +kernel), by decide +kernel, by decide +kernel⟩

/-- SESSION_PREFILL of two tokens: session busy; stale; a failed read; a token of VOCAB 8; LENGTH 14 and 13 of 16 with
PENDING and two tokens. -/
theorem hyp_sessionPrefill :
    let c := sHdr (some [1, 0, 0, 0, 7, 0, 0, 0])
    let i := fun c => Instr.sessionPrefill c 64 2 true false
    let x := toySess .idle
    let ok := withSession { x with length := 13 }
    (Starts (i c) c (withSession (toySess .busy)) ∧ ((withSession (toySess .busy)).sess 3).st ≠ .idle) ∧
    Starts (i c) c (withSession { x with kvStale := true }) ∧
    (Starts (i (sHdr none)) (sHdr none) ok ∧ Unread (i (sHdr none)) (sHdr none) ok 64 8) ∧
    tokensOk (toyModel .committed) (words [1, 0, 0, 0, 8, 0, 0, 0] 2) = false ∧
    (Starts (i c) c (withSession { x with length := 14 }) ∧ 16 < 14 + (x.pend.toList ++ words [1, 0, 0, 0, 7, 0, 0, 0] 2).length) ∧
    (Starts (i c) c ok ∧ findSession (begun (i c) c ok) c = some 3 ∧ (ok.sess 3).st = .idle ∧ (ok.sess 3).importing = false ∧
      tokensOk (toyModel .committed) (words [1, 0, 0, 0, 7, 0, 0, 0] 2) = true ∧ modelOf (ok.sess 3) = 0 ∧
      13 + (x.pend.toList ++ words [1, 0, 0, 0, 7, 0, 0, 0] 2).length ≤ 16 ∧
      frameQuotaOk (begun (i c) c ok) 3 16 false = true) :=
  ⟨⟨starts_of (by decide +kernel), by decide +kernel⟩, starts_of (by decide +kernel), ⟨starts_of (by decide +kernel), unread_of (by decide +kernel) rfl⟩,
    by decide +kernel, ⟨starts_of (by decide +kernel), by decide +kernel⟩, starts_of (by decide +kernel), by decide +kernel⟩

/-- SESSION_STEP without PENDING, full, and with one position left; SPEC_VERIFY of a session with and without a draft. -/
theorem hyp_sessionStep :
    let c := sHdr none
    let x := toySess .idle
    let one := withSession { x with length := 15 }
    let s := withSession { x with draft := some toyH, druns := [(0, (0, 0))] }
    let d := Instr.specVerify c 2 false false 0
    (Starts (.sessionStep c 4) c (withSession { x with pend := none }) ∧ Starts (.sessionStep c 4) c (withSession { x with length := 16 })) ∧
    (Starts (.sessionStep c 4) c one ∧ findSession (begun (.sessionStep c 4) c one) c = some 3 ∧ (one.sess 3).length < (one.sess 3).maxCtx ∧
      frameQuotaOk (begun (.sessionStep c 4) c one) 3 (min 16 (15 + 4)) false = true) ∧
    (Starts d c (withSession x) ∧ ((withSession x).sess 3).draft = none) ∧
    (Starts d c s ∧ (s.sess 3).length + 2 + 1 ≤ (s.sess 3).maxCtx ∧ frameQuotaOk (begun d c s) 3 (3 + 2 + 1) true = true ∧
      16 < 14 + 2 + 1) :=
  ⟨⟨starts_of (by decide +kernel), starts_of (by decide +kernel)⟩,
    ⟨starts_of (by decide +kernel), by decide +kernel, by decide +kernel, by decide +kernel⟩,
    ⟨starts_of (by decide +kernel), by decide +kernel⟩, starts_of (by decide +kernel), by decide +kernel, by decide +kernel,
    by decide +kernel⟩

/-- SPEC_VERIFY of one listed token with its probability: 1.0 is one, NaN is none. -/
theorem hyp_specVerify :
    let b := [3, 0, 0, 0, 0, 0, 0x80, (0x3F : Byte)]
    let c := { sHdr (some b) with expert := true }
    let i := Instr.specVerify c 1 true true 64
    Starts i c (withSession (toySess .idle)) ∧ findSession (begun i c (withSession (toySess .idle))) c = some 3 ∧
    tokensOk (toyModel .committed) (words b 1) = true ∧ ((words (b.drop 4) 1).map (BitVec.ofNat 32)).all probOk = true ∧
    probOk 0x7FC00000#32 = false ∧ frameQuotaOk (begun i c (withSession (toySess .idle))) 3 (3 + 1 + 1) false = true :=
  ⟨starts_of (by decide +kernel), by decide +kernel, by decide +kernel, by decide +kernel, by decide +kernel, by decide +kernel⟩

/-- A REBIND that changes the class and the stop list. -/
def rebind1 (stop : Nat) : Rebind := { steer := none, delta := none, cls := some 2, params := none, stops := some [stop] }

/-- SPEC_VERIFY by list with a read that fails; SESSION_REBIND on a HELD session, with a TOP_K above VOCAB; SESSION_RECOMPUTE
with COUNT 0, past LENGTH, and with a read that fails; SESSION_FORK of a busy session and of one whose K and V are stale. -/
theorem hyp_sessionEnds2 :
    let c := { sHdr none with expert := true }
    let s := withSession (toySess .idle)
    let h := withSession (toySess .held)
    let x := { toySess .idle with kvStale := true }
    let r : Rebind := { steer := none, delta := none, cls := none, params := some (params 9), stops := none }
    (Starts (.specVerify c 1 false true 64) c s ∧ Unread (.specVerify c 1 false true 64) c s 64 (4 * 1)) ∧
    (Starts (.sessionRebind (sHdr none) (rebind1 7)) (sHdr none) h ∧ (h.sess 3).st = .held ∧
      Starts (.sessionRebind (sHdr none) r) (sHdr none) s ∧ 8 < (params 9).topK) ∧
    (Starts (.sessionRecompute (sHdr none) 64 3 0) (sHdr none) s ∧ 0 = (s.sess 3).length - 3 ∧
      Starts (.sessionRecompute (sHdr none) 64 4 0) (sHdr none) s ∧ (s.sess 3).length < 4 ∧
      Starts (.sessionRecompute (sHdr none) 64 1 2) (sHdr none) s ∧
      Unread (.sessionRecompute (sHdr none) 64 1 2) (sHdr none) s 64 (4 * 2)) ∧
    (Starts (.sessionFork (sHdr none) none) (sHdr none) h ∧ Starts (.sessionFork (sHdr none) none) (sHdr none) (withSession x) ∧
      ((withSession x).sess 3).kvStale = true) :=
  ⟨⟨starts_of (by decide +kernel), unread_of (by decide +kernel) rfl⟩,
    ⟨starts_of (by decide +kernel), by decide +kernel, starts_of (by decide +kernel), by decide⟩,
    ⟨starts_of (by decide +kernel), by decide +kernel, starts_of (by decide +kernel), by decide +kernel, starts_of (by decide +kernel),
      unread_of (by decide +kernel) rfl⟩,
    starts_of (by decide +kernel), starts_of (by decide +kernel), by decide +kernel⟩

theorem test_step : after (exec (.sessionStep (sHdr none) 4) (withSession (toySess .idle)))
    (fun t => ((t.sess 3).st, (t.sess 3).run.map fun r => (r.tokens, r.pos, r.left))) (.idle, none) = (.busy, some ([2], 3, 4)) := by
  decide +kernel

theorem hyp_sessionCancel :
    let i := fun f => Instr.sessionCancel (sHdr none) f
    (Starts (i false) (sHdr none) (withSession (toySess .idle)) ∧
      findSession (begun (i false) (sHdr none) (withSession (toySess .idle))) (sHdr none) = some 3) ∧
    Starts (i true) (sHdr none) (withSession (toySess .idle)) ∧ Starts (i false) (sHdr none) (withSession (toySess .held)) ∧
    Starts (i true) (sHdr none) (withSession (toySess .busy)) ∧ Starts (i false) (sHdr none) (withSession (toySess .starved)) :=
  ⟨⟨starts_of (by decide +kernel), by decide +kernel⟩, starts_of (by decide +kernel), starts_of (by decide +kernel),
    starts_of (by decide +kernel), starts_of (by decide +kernel)⟩

/-- R271: FREE empties an idle session. -/
theorem test_cancel_free : after (exec (.sessionCancel (sHdr none) true) (withSession (toySess .idle)))
    (fun t => ((t.sess 3).st, (t.sess 3).length, (t.sess 3).pend, (t.sess 3).history)) (.busy, 1, none, [9]) = (.idle, 0, none, []) := by
  decide +kernel

/-- SESSION_EDIT: release idle and busy; rebind with stop 7 and with stop 8 of VOCAB 8; truncate to LENGTH and past it;
recompute from 1. -/
theorem hyp_sessionEdit :
    let s := withSession (toySess .idle)
    let c := sHdr (some [1, 0, 0, 0, 7, 0, 0, 0])
    (Starts (.sessionRelease c) c s ∧ findSession (begun (.sessionRelease c) c s) c = some 3 ∧
      Starts (.sessionRelease c) c (withSession (toySess .busy))) ∧
    (Starts (.sessionRebind c (rebind1 7)) c s ∧ findSession (begun (.sessionRebind c (rebind1 7)) c s) c = some 3 ∧
      tokensOk (toyModel .committed) [7] = true ∧ tokensOk (toyModel .committed) [8] = false) ∧
    (Starts (.sessionTruncate c 3 noHandle) c s ∧ (3 : Nat) ≤ (s.sess 3).length ∧ ¬ (4 : Nat) ≤ (s.sess 3).length) ∧
    (Starts (.sessionRecompute c 64 1 2) c s ∧ findSession (begun (.sessionRecompute c 64 1 2) c s) c = some 3 ∧
      2 = (s.sess 3).length - 1 ∧ tokensOk (toyModel .committed) (words [1, 0, 0, 0, 7, 0, 0, 0] 2) = true) :=
  ⟨⟨starts_of (by decide +kernel), by decide +kernel, starts_of (by decide +kernel)⟩,
    ⟨starts_of (by decide +kernel), by decide +kernel, by decide +kernel, by decide +kernel⟩,
    ⟨starts_of (by decide +kernel), by decide +kernel, by decide +kernel⟩, starts_of (by decide +kernel), by decide +kernel,
    by decide +kernel, by decide +kernel⟩

/-- A truncation to 3 positions of a session with two entries VALID: the first holds them, the second is cut (R229). -/
theorem test_truncate_pages :
    let m := toyModel .committed
    let ppf := layerPpf m 0
    let x := { toySess .idle with length := ppf + 1, maxCtx := 2 * ppf }
    let e : PageE := { frame := 5, copy := false, old := 0, valid := true }
    let s := { withSession x with kv := { Kv.init with
      pages := [(pageAt x.runs (0, 0) 0, e), (pageAt x.runs (0, 0) 1, { e with frame := 6 })]
      frames := [(frameKey 0 5, { FrameE.init with ref := 2 }), (frameKey 0 6, { FrameE.init with ref := 2 })] } }
    cutFrom s x 3 (pageAt x.runs (0, 0) 1) ∧
    after (exec (.sessionTruncate (sHdr none) 3 noHandle) s)
      (fun t => ((t.page (pageAt x.runs (0, 0) 0)).valid, (t.page (pageAt x.runs (0, 0) 1)).valid, (t.frame (frameKey 0 5)).ref,
        (t.frame (frameKey 0 6)).ref)) (false, true, 0, 0) = (true, false, 2, 1) :=
  ⟨Or.inl ⟨(0, 0), by decide +kernel, 1, by decide +kernel, by decide +kernel, rfl⟩, by decide +kernel⟩

theorem test_truncate : after (exec (.sessionTruncate (sHdr none) 2 noHandle) (withSession (toySess .idle)))
    (fun t => ((t.sess 3).length, (t.sess 3).pend, (t.sess 3).history)) (9, none, []) = (2, none, [1, 2]) := by decide +kernel

/-- A fork's entries: of a session of 3 positions, from run 0 to the run that begins at 65,536. -/
theorem hyp_forkShares :
    let ks := sharedKeys (toyModel .committed) [(0, (0, 0))] [(0, (65536, 0))] 3
    let key := pageAt [(0, (0, 0))] (0, 0) 0
    let s := { withSession (toySess .idle) with kv := { Kv.init with pages := [(key, { frame := 5, copy := false, old := 0, valid := true })] } }
    ks ≠ [] ∧ (∀ w ∈ ks, ∀ v ∈ ks, w.2.1 ≠ v.2.2) ∧ (ks.map fun w => w.2.2).Nodup ∧ ∀ w ∈ ks, (s.page w.2.1).valid = true := by
  decide +kernel

theorem hyp_sessionViews :
    let s := withSession (toySess .idle)
    let c := sHdr none
    let u := begun (.sessionFork c none) c s
    (Starts (.sessionFork c none) c s ∧ findSession u c = some 3 ∧ sessQuotaOk u 1 = true ∧
      (allocSession u (toyModel .committed) none 16).isSome = true) ∧
    leastBelow 65536 (sessIndexFree u c) = some 0 ∧
    (Starts (.sessionQuery c 0) c s ∧ Starts (.sessionQuery c 64) c s ∧
      findSession (begun (.sessionQuery c 0) c s) c = some 3) ∧
    (Starts (.sessionStep c 1) c ready ∧ findSession (begun (.sessionStep c 1) c ready) c = none) ∧
    (Starts (.frameQuota (hdr 2) 5 6) (hdr 2) ready ∧ Starts (.frameQuery (hdr 2) 0) (hdr 2) ready ∧
      Starts (.frameQuery (hdr 2) 64) (hdr 2) ready ∧ spoolOwner ready 1 = 0 ∧ (hdr 2).handle.toNat = 2) :=
  ⟨⟨starts_of (by decide +kernel), by decide +kernel, by decide +kernel, by decide +kernel⟩,
    leastBelow_eq_some.mpr ⟨by decide +kernel, by decide, fun _ h => absurd h (Nat.not_lt_zero _)⟩,
    ⟨starts_of (by decide +kernel), starts_of (by decide +kernel), by decide +kernel⟩,
    ⟨starts_of (by decide +kernel), by decide +kernel⟩, starts_of (by decide +kernel), starts_of (by decide +kernel),
    starts_of (by decide +kernel), by decide +kernel, by decide +kernel⟩

/-- FRAME_QUOTA and FRAME_QUERY of spool 0 and of number 4,096; FRAME_QUERY of the PF's spool from VF 1. -/
theorem hyp_frameEnds :
    let v := { hdr 2 with spool := 4095 }
    let s := { ready with spools := [(0, open1), (1, open1), (4095, open1)] }
    Starts (.frameQuota (hdr 0) 5 6) (hdr 0) ready ∧ Starts (.frameQuota (hdr 4096) 5 6) (hdr 4096) ready ∧
    Starts (.frameQuery (hdr 4096) 0) (hdr 4096) ready ∧ (hdr 4096).handle.toNat = 4096 ∧
    (Starts (.frameQuery v 0) v s ∧ spoolOwner s 4095 = 1 ∧ spoolOwner s 2 = 0) :=
  ⟨starts_of (by decide +kernel), starts_of (by decide +kernel), starts_of (by decide +kernel), by decide, starts_of (by decide +kernel),
    by decide +kernel, by decide +kernel⟩

theorem test_frameQuota : after (exec (.frameQuota (hdr 2) 5 6) ready) (fun t => (sessQuota t 2, frameQuota t 2)) (0, 0) = (5, 6) := by
  decide +kernel

/-- KV_EXPORT with a LIMIT one short of the stream and equal to it; KV_IMPORT on a session with LENGTH 3 and with 0. -/
theorem hyp_kvMove :
    let x := { toySess .idle with length := 0, history := [], runs := [(0, (0, 0))] }
    let n := exportLen (toyModel .committed) 0
    (1 ≤ n ∧ Starts (.kvExport (sHdr none) 4096 (n - 1)) (sHdr none) (withSession x) ∧
      Starts (.kvExport (sHdr none) 4096 n) (sHdr none) (withSession x) ∧
      findSession (begun (.kvExport (sHdr none) 4096 n) (sHdr none) (withSession x)) (sHdr none) = some 3) ∧
    (let c := sHdr (some (List.replicate 64 (0 : Byte)))
     Starts (.kvImport c 64 64 noHandle) c (withSession (toySess .idle)) ∧ Starts (.kvImport c 64 64 noHandle) c (withSession x)) :=
  ⟨⟨by decide +kernel, starts_of (by decide +kernel), starts_of (by decide +kernel), by decide +kernel⟩,
    starts_of (by decide +kernel), starts_of (by decide +kernel)⟩

/-- The stream of an empty session passes its checks; one byte wrong does not; an output and an export under way. -/
theorem hyp_kvTransfers :
    let x := { toySess .idle with length := 0, history := [], runs := [(0, (0, 0))], importing := true }
    let b := exportStream (withSession x) (toyModel .committed) x
    let o : OutCmd := { (atWork (.kvImport 3 b noHandle)) with instr := .kvImport { sHdr none with seq := 4 } 64 b.length noHandle }
    let s := { withSession x with spools := [(1, { open1 with out := [o] })] }
    (findOut s 1 4 = some o ∧ s.bus.viral = false ∧ (s.sess 3).importing = true ∧ bufferHere s o = false) ∧
    checkStream (toyModel .committed) 16 b = none ∧ checkStream (toyModel .committed) 16 (b.set 0 9) = some 0x010F ∧
    (List.range 8).any (fun k => decide (freeFrames s k < needOn (needsOf s (toyModel .committed) x.runs 0 (le b 4 4)) k)) = false ∧
    (atWork (.output [(64, b)] [])).job = .output [(64, b)] [] ∧
    tokensOk (toyModel .committed) ((optHandle 8).map BitVec.toNat).toList = false := by decide +kernel

/-- An import of that stream gives the session its LENGTH and ends with DONE's code. -/
theorem test_kvImport :
    let x := { toySess .idle with length := 0, history := [], runs := [(0, (0, 0))], importing := true }
    let b := exportStream (withSession x) (toyModel .committed) x
    let o : OutCmd := { (atWork (.kvImport 3 b 5)) with instr := .kvImport { sHdr none with seq := 4 } 64 b.length 5 }
    let s := { withSession x with spools := [(1, { open1 with out := [o] })] }
    after (exec (.hostDmaTransfer 1 4 true) s) (fun t => ((t.sess 3).importing, (t.sess 3).pend, (lastRec t 1).map fun r => r.2.1)) (true, none, none) =
      (false, some 5, some 0) := by decide +kernel

/-- The head of an adapter image of one layer of MODEL 1 (R272, R274). -/
def image32 (kind : Byte) : List Byte := [1, 0, kind, 0, 1, 0, 0, 0, 1] ++ zeros 23

/-- A whole steering image of a model without layers and HIDDEN 256, with its CRC. -/
def steerImage : List Byte := [1, 0, 0, 0, 1, 0, 0, 0] ++ zeros 20 ++ toLe 4 (crc32c ([1, 0, 0, 0, 1, 0, 0, 0] ++ zeros 20))

theorem hyp_steerOk : steerOk { Model.init with bytes := zeros 12 ++ toLe 4 1 ++ zeros 4 ++ toLe 4 256 } steerImage = true := by
  decide +kernel

theorem hyp_adapterLoad :
    let i := fun c => Instr.adapterLoad c 64 32 none
    let c := mHdr (some (image32 0))
    let u := begun (i c) c (withModel .committed)
    (Starts (i c) c (withModel .written) ∧ findModel (begun (i c) c (withModel .written)) toyH = some 0) ∧
    (Starts (i (mHdr (some (image32 2)))) (mHdr (some (image32 2))) (withModel .committed) ∧
      1 < byteAt ((image32 2).take 32) 2) ∧
    (Starts (i c) c (withModel .committed) ∧ leastBelow 4096 (adapterIndexFree u c 0) = some 0 ∧
      regionFits u (adapterRoom (toyModel .committed) ((image32 0).take 32)) = true ∧ byteAt ((image32 0).take 32) 2 = 0) :=
  ⟨⟨starts_of (by decide +kernel), by decide +kernel⟩, ⟨starts_of (by decide +kernel), by decide +kernel⟩,
    starts_of (by decide +kernel),
    leastBelow_eq_some.mpr ⟨by decide +kernel, by decide, fun _ h => absurd h (Nat.not_lt_zero _)⟩, by decide +kernel,
    by decide +kernel⟩

/-- A resident steering adapter of the small model, a retiring one whose command waits, and their handle. -/
def steerA : Adapter := { Adapter.init with gen := 1, used := true, resident := true, model := toyH, bytes := image32 0 }
def withAdapter (a : Adapter) : State := { withModel .committed with adapters := [(0, a)] }

/-- An image under way: its epoch is the model's or that of a steering image, its bytes pass, the transfer moved or not; a model
without layers takes the whole steering image. -/
theorem hyp_adapterArrives :
    let m := { toyModel .committed with bytes := zeros 12 ++ toLe 4 1 ++ zeros 4 ++ toLe 4 256 }
    let a : Adapter := { Adapter.init with gen := 1, used := true, model := toyH, bytes := steerImage, cmd := some (1, 4) }
    let o : OutCmd := { (atWork (.adapterLoad 0 0 steerImage)) with instr := .adapterLoad { mHdr none with seq := 4 } 64 32 none }
    let s := { bare with models := [(0, m)], adapters := [(0, a)], spools := [(1, { open1 with out := [o] })] }
    findOut s 1 4 = some o ∧ s.bus.viral = false ∧ o.job = .adapterLoad 0 0 steerImage ∧ bufferHere s o = false ∧
    steerOk (s.model 0) steerImage = true ∧ replacesOf o.instr = none ∧
    replacesCheck s 0 (s.model 0) toyH 0 0 none = none ∧ steerOk (toyModel .committed) steerImage = false := by decide +kernel

/-- ADAPTER_LOAD of no model, with a read that fails; STEER_BANK_LOAD of a model that is being staged; ADAPTER_RETIRE of no
adapter; ADAPTER_FREE while something holds it and once nothing does. -/
theorem hyp_adapterEnds :
    let i := Instr.adapterLoad (mHdr none) 64 32 none
    let h := adapterHandle 0 0 1
    let s := withAdapter { steerA with retiring := true, cmd := some (1, 4) }
    (Starts i (mHdr none) bare ∧ findModel (begun i (mHdr none) bare) toyH = none) ∧
    (Starts i (mHdr none) (withModel .committed) ∧ Unread i (mHdr none) (withModel .committed) 64 32) ∧
    (Starts (.steerBankLoad (mHdr none) 64 5 1) (mHdr none) (withModel .staging) ∧
      Unread (.steerBankLoad (mHdr none) 64 5 1) (mHdr none) (withModel .committed) 64 (2 * bHidden toyBundle * 1)) ∧
    (Starts (.adapterRetire (hdr h)) (hdr h) ready ∧
      findAdapter (begun (.adapterRetire (hdr h)) (hdr h) ready) (spoolOwner ready 1) h = none) ∧
    ((s.adapter 0).retiring = true ∧ refCount s h = 0 ∧ EdgeAct.freeAdapter 0 0 ∉ s.tick.acts ∧ (s.adapter 0).cmd = some (1, 4)) ∧
    refCount { s with sessions := [(3, { toySess .idle with steer := some h })] } h ≠ 0 :=
  ⟨⟨starts_of (by decide +kernel), by decide +kernel⟩, ⟨starts_of (by decide +kernel), unread_of (by decide +kernel) rfl⟩,
    ⟨starts_of (by decide +kernel), unread_of (by decide +kernel) rfl⟩, ⟨starts_of (by decide +kernel), by decide +kernel⟩,
    by decide +kernel, by decide +kernel⟩

theorem hyp_adapters :
    let h := adapterHandle 0 0 1
    let c := hdr h
    let b := hdrIo 5 toyH (some (zeros 8))
    let bank : OutCmd := { waiting with instr := .steerBankLoad { b with seq := 4 } 64 5 1, started := true, job := .bankLoad 0 5 (zeros 8) }
    (steerOk (toyModel .committed) (zeros 1) = false) ∧
    (Starts (.steerBankLoad b 64 5 1) b (withModel .committed) ∧ vectorInUse (withModel .committed) toyH 5 1 = false) ∧
    (Starts (.steerBankLoad b 64 0 1) b (withAdapter steerA) ∧ vectorInUse (withAdapter steerA) toyH 0 1 = true) ∧
    (let s := { withModel .committed with spools := [(1, { open1 with out := [bank] })] }
     findOut s 1 4 = some bank ∧ bank.job = .bankLoad 0 5 (zeros 8) ∧ 0 < bHidden (s.model 0).bytes ∧ s.bus.viral = false) ∧
    (Starts (.adapterRetire c) c (withAdapter steerA) ∧
      findAdapter (begun (.adapterRetire c) c (withAdapter steerA)) (spoolOwner (withAdapter steerA) 1) h = some (0, 0)) ∧
    Starts (.adapterRetire c) c (withAdapter { steerA with retiring := true }) ∧
    ((Instr.adapterFree 0 0).wf = true ∧ ({ steerA with retiring := true, cmd := some (1, 4) } : Adapter).cmd = some (1, 4) ∧
      refCount (withAdapter steerA) h = 0) ∧
    Starts (.adapterQuery c) c (withAdapter steerA) :=
  ⟨by decide +kernel, ⟨starts_of (by decide +kernel), by decide +kernel⟩, ⟨starts_of (by decide +kernel), by decide +kernel⟩,
    by decide +kernel, ⟨starts_of (by decide +kernel), by decide +kernel⟩, starts_of (by decide +kernel), by decide +kernel,
    starts_of (by decide +kernel)⟩

/-! Calibration, tests and reads. -/

theorem crcFeed_zeros (n : Nat) : crcFeed .crc32c 0 (zeros n) = 0 := by
  induction n with
  | zero => rfl
  | succ n ih =>
    have h : crcByte .crc32c 0 0 = 0 := by decide
    have e : crcFeed .crc32c 0 (zeros (n + 1)) = crcFeed .crc32c (crcByte .crc32c 0 0) (zeros n) := rfl
    rw [e, h, ih]

/-- The head of a trim record of panel 0 at TEMP 25, and the four bytes that bring its running check value to 0. -/
def trimHead : List Byte := [0, 0, 0, 0, 1, 0, 0, 0, 25, 0, 0, 0]
def trimFix : List Byte := toLe 4 (crcFeed .crc32c (crcInit .crc32c) trimHead).toNat

/-- A trim record of panel 0 that passes, and one whose CRC fails. -/
def trimGood : List Byte := trimHead ++ List.replicate 4 0xFF ++ trimFix ++ zeros 1568
def trimTorn : List Byte := trimHead ++ zeros 4 ++ trimFix ++ zeros 1568

theorem trim_crc : crc32c ((trimHead ++ trimFix) ++ zeros 1568) = 0xFFFFFFFF := by
  have e : crcFeed .crc32c (crcInit .crc32c) (trimHead ++ trimFix) = 0 := by decide +kernel
  have f : crcFeed .crc32c (crcInit .crc32c) ((trimHead ++ trimFix) ++ zeros 1568) = 0 := by
    unfold crcFeed at *
    rw [List.foldl_append, e]
    exact crcFeed_zeros 1568
  unfold crc32c crc
  rw [f]
  decide

theorem trimRecordOk_good : trimRecordOk trimGood = true := by
  have e : trimGood.take 12 ++ trimGood.drop 16 = (trimHead ++ trimFix) ++ zeros 1568 := by rfl
  unfold trimRecordOk
  rw [e, trim_crc]
  decide +kernel

theorem trimRecordOk_torn : trimRecordOk trimTorn = false := by
  have e : trimTorn.take 12 ++ trimTorn.drop 16 = (trimHead ++ trimFix) ++ zeros 1568 := by rfl
  unfold trimRecordOk
  rw [e, trim_crc]
  decide +kernel

/-- A calibration record of a panel: zero offsets, unit gains; and one whose first offset is infinite. -/
def calGood (p : Nat) : List Byte := (toLe 4 p ++ zeros 12) ++ (zeros 2048 ++ (List.replicate 1032 [0, (0x3C : Byte)]).flatten)
def calBad (p : Nat) : List Byte := toLe 4 p ++ zeros 12 ++ [0, 0x7C] ++ zeros 2046 ++ (List.replicate 1032 [0, (0x3C : Byte)]).flatten

/-- A thermal block and a sequence descriptor of one ON_DEMAND entry. -/
def thermalGood : List Byte := [50, 60, 70, 80, 8, 30, 0, 0, 0, 0, 0, 0, 32, 0] ++ zeros 18
def seqGood : List Byte := [1, 1, 0, 0, 0, 0, 0, 0] ++ toLe 4 60

/-- Panels 0 to 3 of a die with spares; panel 0 holds weights. -/
def served : State := mapped

theorem starts_io {i : Instr} {c : Cmd} {s : State} (hc : i.cmd? = some c)
    (h : (c.wf && canStart s c && (findOut s c.spool c.seq).isNone && (findFetched s c).isNone && headerCheck s c (opcodeOf i) == none &&
      paramCheck i == none && bankExtent s i == none && syncCheck s c == none && mayStart s c) = true) : Starts i c s := by
  simp only [Bool.and_eq_true, Option.isNone_iff_eq_none, beq_iff_eq] at h
  obtain ⟨⟨⟨⟨⟨⟨⟨⟨w, k⟩, o⟩, f⟩, a⟩, b⟩, x⟩, y⟩, m⟩ := h
  refine ⟨hc, w, o.trans f.symm, k, ?_⟩
  rw [f]
  exact ⟨a, b, x, y, m⟩

theorem gains_drop (n i : Nat) : ((List.replicate n [0, (0x3C : Byte)]).flatten).drop (2 * i) =
    (List.replicate (n - i) [0, (0x3C : Byte)]).flatten := by
  induction n generalizing i with
  | zero => simp
  | succ n ih =>
    cases i with
    | zero => simp
    | succ i => simpa [List.replicate_succ, Nat.mul_add] using ih i

theorem drop_past (a b : List Byte) (n : Nat) : (a ++ b).drop (a.length + n) = b.drop n := by
  rw [List.drop_append, List.drop_eq_nil_of_le (by omega), List.nil_append]
  congr 1
  omega

theorem le_zeros (a b : List Byte) (m i : Nat) (h : 2 * i + 2 ≤ m) : le (a ++ (zeros m ++ b)) (a.length + 2 * i) 2 = 0 := by
  obtain ⟨k, rfl⟩ : ∃ k, m = 2 * i + (k + 2) := ⟨m - 2 * i - 2, by omega⟩
  have e : zeros (2 * i + (k + 2)) ++ b = zeros (2 * i) ++ (0 :: 0 :: (zeros k ++ b)) := by
    simp [zeros, ← List.replicate_append_replicate, List.replicate_succ]
  have f := drop_past (zeros (2 * i)) (0 :: 0 :: (zeros k ++ b)) 0
  have l : (zeros (2 * i)).length = 2 * i := List.length_replicate
  rw [l, Nat.add_zero] at f
  unfold le
  rw [drop_past, e, f]
  rfl

theorem le_gains (a : List Byte) (n i : Nat) (h : i < n) :
    le (a ++ (List.replicate n [0, (0x3C : Byte)]).flatten) (a.length + 2 * i) 2 = 0x3C00 := by
  obtain ⟨k, hk⟩ : ∃ k, n - i = k + 1 := ⟨n - i - 1, by omega⟩
  unfold le
  rw [drop_past, gains_drop, hk]
  simp [List.replicate_succ, leFront, byteAt]

theorem calRecordOk_of (b : List Byte) (h : zeroAt b 4 4 = true) (hz : ∀ i, i < 1024 → le b (16 + 2 * i) 2 = 0)
    (hg : ∀ i, i < 1032 → le b (2064 + 2 * i) 2 = 0x3C00) : calRecordOk b = true := by
  unfold calRecordOk halfs
  rw [h]
  simp only [Bool.and_eq_true, List.all_map, List.all_eq_true, List.mem_range, Function.comp_def, true_and]
  refine ⟨⟨fun i hi => ?_, fun i hi => ?_⟩, fun i hi => ?_⟩
  · rw [hz i hi]
    decide
  · rw [hg i (by omega)]
    decide
  · have f : 4112 + 2 * i = 2064 + 2 * (1024 + i) := by omega
    rw [f, hg (1024 + i) (by omega)]
    decide

theorem calRecordOk_good : calRecordOk (calGood 0) = true := by
  have l : (toLe 4 0 ++ zeros 12).length = 16 := rfl
  have n : ∀ m, ((toLe 4 0 ++ zeros 12) ++ zeros m).length = 16 + m := by
    intro m
    rw [List.length_append, l, zeros, List.length_replicate]
  refine calRecordOk_of _ (by decide +kernel) (fun i hi => ?_) (fun i hi => ?_)
  · rw [← l]
    exact le_zeros _ _ _ i (by omega)
  · have f : 2064 = 16 + 2048 := rfl
    unfold calGood
    rw [← List.append_assoc, f, ← n]
    exact le_gains _ 1032 i hi

theorem hyp_edgeCommands :
    let h := hdr noHandle
    let r := fun b => hdrIo 5 noHandle (some b)
    (Starts (.refreshPolicy h 1 1) h served ∧ Starts (.checkPolicy h 0 0) h served ∧ Starts (.checkPolicy h 0 3) h served) ∧
    (Starts (.calWrite (r (calGood 0)) 64) (r (calGood 0)) served ∧ panelOk (le (calGood 0) 0 4) = true ∧
      calReady served 0 = true) ∧
    (Starts (.calWrite (r (calBad 0)) 64) (r (calBad 0)) served ∧ calRecordOk (calBad 0) = false) ∧
    (Starts (.calWrite (r (calGood 1)) 64) (r (calGood 1)) served ∧ panelOk (le (calGood 1) 0 4) = true ∧
      calReady served (le (calGood 1) 0 4) = false) ∧
    (Starts (.thermalConfig (r thermalGood) 64) (r thermalGood) served ∧ thermalOk (thermalGood.take 32) = true ∧
      thermalOk (zeros 32) = false) ∧
    (Starts (.adcSequence (r seqGood) 64) (r seqGood) served ∧ sequenceOk seqGood = true ∧
      sequenceOk ([33] ++ seqGood.drop 1) = false) ∧
    (∀ i ∈ [Instr.trimWrite h 64 1, .calWrite h 64, .thermalConfig h 64, .adcSequence h 64, .redundancyLoad h 64 1],
      Starts i h served ∧ ∀ n, Unread i h served 64 n) :=
  ⟨⟨starts_of (by decide +kernel), starts_of (by decide +kernel), starts_of (by decide +kernel)⟩,
    ⟨starts_io rfl (by decide +kernel), by decide +kernel, by decide +kernel⟩,
    ⟨starts_io rfl (by decide +kernel), by decide +kernel⟩,
    ⟨starts_io rfl (by decide +kernel), by decide +kernel, by decide +kernel⟩,
    ⟨starts_of (by decide +kernel), by decide +kernel, by decide +kernel⟩,
    ⟨starts_of (by decide +kernel), by decide +kernel, by decide +kernel⟩, 
    fun i hi => ⟨starts_of ((by decide +kernel : ∀ i ∈ [Instr.trimWrite (hdr noHandle) 64 1, .calWrite (hdr noHandle) 64,
      .thermalConfig (hdr noHandle) 64, .adcSequence (hdr noHandle) 64, .redundancyLoad (hdr noHandle) 64 1],
      startsB i (hdr noHandle) served = true) i hi), fun _ => unread_of ((by decide +kernel : ∀ i ∈
      [Instr.trimWrite (hdr noHandle) 64 1, .calWrite (hdr noHandle) 64, .thermalConfig (hdr noHandle) 64,
      .adcSequence (hdr noHandle) 64, .redundancyLoad (hdr noHandle) 64 1],
      (begun i (hdr noHandle) served).bus.hdmBase = none) i hi) rfl⟩⟩

theorem slice_whole (b : List Byte) (h : b.length = 1588) : slice b 0 1588 = b := List.take_of_length_le (by simp [h])

/-- TRIM_WRITE of one record: torn; of a panel that no stage holds; of a panel of a stage. -/
theorem hyp_trimWrite :
    let r := fun b => hdrIo 5 noHandle (some b)
    let free := { mapped with models := [] }
    (Starts (.trimWrite (r trimTorn) 64 1) (r trimTorn) free ∧ ∃ x ∈ (List.range 1).map fun i => slice trimTorn (1588 * i) 1588,
      trimRecordOk x = false) ∧
    (Starts (.trimWrite (r trimGood) 64 1) (r trimGood) free ∧
      ∀ x ∈ (List.range 1).map fun i => slice trimGood (1588 * i) 1588, trimRecordOk x = true ∧
        panelStage free (le x 0 4) = none ∧ replHolds free (le x 0 4) = false) ∧
    (Starts (.trimWrite (r trimGood) 64 1) (r trimGood) mapped ∧ panelStage mapped (le (slice trimGood 0 1588) 0 4) ≠ none) := by
  refine ⟨⟨starts_io rfl (by decide +kernel), slice trimTorn 0 1588, by simp, ?_⟩, ⟨starts_io rfl (by decide +kernel), ?_⟩,
    starts_io rfl (by decide +kernel), by decide +kernel⟩
  · rw [slice_whole trimTorn (by decide +kernel)]
    exact trimRecordOk_torn
  · intro x hx
    have e : x = trimGood := by
      have f : x = slice trimGood (1588 * 0) 1588 := by simpa using hx
      rw [f]
      exact slice_whole trimGood (by decide +kernel)
    subst e
    exact ⟨trimRecordOk_good, by decide +kernel, by decide +kernel⟩

theorem hyp_calibration :
    let h := hdr noHandle
    (Starts (.calRead h 0 64) h mapped ∧ Starts (.trimRead h 0 1 64) h mapped) ∧
    (Starts (.calRun h (BitVec.ofNat 32 0) 0) h mapped ∧ calReady (begun (.calRun h (BitVec.ofNat 32 0) 0) h mapped) 0 = true ∧
      panelOk 0 = true) ∧
    (Starts (.calRun h (BitVec.ofNat 32 1) 0) h mapped ∧ calReady (begun (.calRun h (BitVec.ofNat 32 1) 0) h mapped) 1 = false ∧
      panelOk 1 = true) :=
  ⟨⟨starts_of (by decide +kernel), starts_of (by decide +kernel)⟩,
    ⟨starts_of (by decide +kernel), by decide +kernel, by decide +kernel⟩, starts_of (by decide +kernel), by decide +kernel,
    by decide +kernel⟩

/-- A redundancy record of tile 8 that maps spare 0 to a column, and the two boundary columns. -/
def redRec (col : Nat) : List Byte := toLe 4 8 ++ toLe 2 (32768 + col) ++ zeros 30

theorem hyp_redundancyLoad :
    let r := fun b => hdrIo 5 noHandle (some b)
    Starts (.redundancyLoad (r (redRec 2047)) 64 1) (r (redRec 2047)) mapped ∧ redRecordOk (slice (redRec 2047) 0 36) = true ∧
    redRecordOk (slice (redRec 2048) 0 36) = false ∧
    (tileHolds mapped 8 = false ∧ tileHolds mapped 0 = true ∧ redValid 32768 = true ∧ 32768 ≠ (mapped.tileAt 0).red.getD 0 0) :=
  ⟨starts_of (by decide +kernel), by decide +kernel, by decide +kernel, by decide +kernel⟩

/-- Panel 0 has the urgent slot of its recalibration in the plan of the tick. -/
def recalNow : State :=
  { mapped with
    arr := { mapped.arr with panels := [(0, { Panel.init with cal := true, calUrgent := true })] }
    pipe := { mapped.pipe with plan := [{ panelOp 3 0 with ran := false }] } }

/-- Its slot has been used in this tick. -/
def slotUsed : State := { recalNow with pipe := { recalNow.pipe with plan := [{ panelOp 3 0 with ran := true }] } }

/-- A pass of ideal charges, but for the difference of column 0 in every zero-plane cycle. -/
def evenPass (d : Int) : CalPass := { zeroPlane := List.replicate 8 [d], quarters := [], allRows := [] }

theorem passes_agree (lim : Nat) (a : PassSums) (nq held : List Nat) : passesAgree lim a a nq held = true := by
  have h : ∀ l : List Nat, (l.map fun _ => (0 : Nat)).sum = 0 := by
    intro l
    induction l <;> simp_all
  unfold passesAgree
  generalize List.range 2048 = l
  simp [h, Function.comp_def]

theorem passes_disagree (lim : Nat) (a b : PassSums) (nq held : List Nat)
    (h : 4 * lim < ((a.sum0.getD 0 0 : Int) - b.sum0.getD 0 0).natAbs) : passesAgree lim a b nq held = false := by
  have m : ((List.range 2048).map fun c => ((a.sum0.getD c 0 : Int) - b.sum0.getD c 0).natAbs).all
      (fun x => decide (x ≤ 4 * lim)) = false := by
    rw [Bool.eq_false_iff]
    intro k
    rw [List.all_eq_true] at k
    have := k _ (List.mem_map.mpr ⟨0, List.mem_range.mpr (by decide), rfl⟩)
    simp only [decide_eq_true_eq] at this
    omega
  unfold passesAgree
  simp only [m, Bool.and_false, Bool.false_and]

/-- R71, R79: an ideal zero-plane column gives its pedestal of 8 in each of the 8 cycles. -/
theorem test_passSums : (passSums [] (evenPass 0)).sum0.getD 0 0 = 64 ∧ (passSums [] (evenPass (256 * 54))).sum0.getD 0 0 = 496 := by
  decide +kernel

theorem hyp_recalibration :
    (panelOk 0 = true ∧ mayRecalibrate recalNow 0 = true ∧ slotFor recalNow 3 (panelOp 6 0) ∧
      mayRecalibrate mapped 1 = false ∧ mayRecalibrate slotUsed 0 = true ∧ ¬ slotFor slotUsed 3 (panelOp 6 0)) ∧
    (let n := 8 * 0 + measuredTile recalNow 0
     let held := (List.range 8).filter fun i => tileHolds recalNow (8 * 0 + i)
     let sums := passSums (recalNow.tileAt n).counts
     passesAgree (opt recalNow oCalAgree) (sums (evenPass 0)) (sums (evenPass 0)) (calCounts recalNow n) held = true ∧
     passesAgree (opt recalNow oCalAgree) (sums (evenPass 0)) (sums (evenPass (256 * 54))) (calCounts recalNow n) held = false) :=
  ⟨⟨by decide +kernel, by decide +kernel, ⟨by decide +kernel, by decide +kernel, .inl (by decide +kernel)⟩, by decide +kernel,
      by decide +kernel, by unfold slotFor; decide +kernel⟩, passes_agree _ _ _ _, passes_disagree _ _ _ _ _ (by decide +kernel)⟩

theorem test_calRun : after (exec (.calRun (hdr noHandle) 0 0) mapped) (fun t => (t.panelAt 0).calForced) false = true ∧
    after (exec (.calRun (hdr noHandle) 1 0) mapped) (lastRec · 1) none = some (4, 0x020C, []) := by decide +kernel

/-- BIST outstanding alone on spool 1. -/
def bistOn : OutCmd := { waiting with started := true, accepted := true, job := .bist 1 }

theorem hyp_fieldTests :
    let h := hdr noHandle
    let s := { ready with spools := [(1, { open1 with out := [bistOn] })] }
    let t := { waiting with started := true, accepted := true, job := Job.testPanel 0 }
    let u := { mapped with spools := [(1, { open1 with out := [t] })]
                           pipe := { mapped.pipe with plan := [{ panelOp 8 0 with ran := false }] } }
    let v := { ready with chk := { ready.chk with failing := [8191] } }
    (Starts (.testPanel h 0) h mapped ∧ panelHolds mapped 0 = true ∧ Starts (.testPanel h 1) h mapped ∧ panelHolds mapped 1 = false) ∧
    Starts (.testCore h 8191) h ready ∧
    (Starts (.bistRun h 1) h mapped ∧ keelStaged mapped 0 = true ∧ Starts (.bistRun h 254) h mapped ∧
      (∀ k ∈ maskBits 254 8, keelStaged mapped k = false)) ∧
    (s.spools = [(1, { open1 with out := [bistOn] })] ∧ bistOn.job = .bist 1 ∧ bistBusy s = true) ∧
    (panelOk 0 = true ∧ panelUnder u 0 = false ∧ asked u (fun j => j == .testPanel 0) = true ∧ slotFor u 8 (panelOp 8 0) ∧
      asked mapped (fun j => j == .testPanel 1) = false ∧ nextTestPanel mapped (panelKeel 1) ≠ some 1) ∧
    (failingCores ready 7 = [] ∧ (∀ n, n < 8 → testImageOf { u with arr := { u.arr with tiles := [] } } n = none) ∧ 8191 ∉ failingCores ready 7 ∧ opt ready oFieldTests = 1 ∧
      ready.chk.coreNext.get 0 0 = 0 % 1024 ∧ ready.chk.coreNext.get 0 7 ≠ 8191 % 1024) ∧
    ((8191 : Nat) < 8192 ∧ stackStopped v 7 = false ∧ 8191 ∈ failingCores v 7) :=
  ⟨⟨starts_of (by decide +kernel), by decide +kernel, starts_of (by decide +kernel), by decide +kernel⟩,
    starts_of (by decide +kernel),
    ⟨starts_of (by decide +kernel), by decide +kernel, starts_of (by decide +kernel), by decide +kernel⟩, by decide +kernel,
    ⟨by decide +kernel, by decide +kernel, by decide +kernel, ⟨by decide +kernel, by decide +kernel, .inl (by decide +kernel)⟩, by decide +kernel, by decide +kernel⟩, by decide +kernel,
    by decide +kernel⟩

/-- A panel exposed by one record later than its last good check, and a capture of tile 3. -/
def exposed : State :=
  { mapped with
    pipe := { mapped.pipe with expo := [(0, [{ handle := 7, first := 1, count := 2, stage := 0, tick := 9 }])] }
    chk := { mapped.chk with captures := [(3, { tick := 4, codes := [5, -1] })] } }

theorem hyp_logReads :
    let h := hdr noHandle
    Starts (.faultRead h 64 0 1) h ready ∧ Starts (.exposureRead h 0 1 64) h mapped ∧ Starts (.captureRead h 3 64) h exposed ∧
    exposed.chk.captures.find 4 = none ∧ (exposed.chk.captures.find 3).isSome = true ∧ Starts (.adcRead h 1 64) h ready ∧
    Starts (.supplyStatus h) h ready ∧ ready.chk.log.length < 16384 ∧
    (∀ r : FaultRec, (List.replicate 16384 r).length = 16384) :=
  ⟨starts_of (by decide +kernel), starts_of (by decide +kernel), starts_of (by decide +kernel), by decide +kernel, by decide +kernel,
    starts_of (by decide +kernel), starts_of (by decide +kernel), by decide +kernel, fun _ => List.length_replicate⟩

/-- R463: a FIRST older than the oldest record held starts there. -/
theorem test_faultRead :
    let r : FaultRec := { index := 9, kind := 2, source := 0, recovered := true, tick := 0, location := 0, session := 0, position := 0,
                          detail := 0 }
    let s := { ready with chk := { ready.chk with log := [r], next := 10 } }
    after (exec (.faultRead (hdr noHandle) 64 4 8) s) (lastRec · 1) none = some (0, 0, [1, 0, 0, 0, 10, 0, 0, 0]) := by decide +kernel

theorem test_supplyStatus :
    after (exec (.supplyStatus (hdr noHandle)) { ready with supply := { ready.supply with mainGood := true, backupGood := false, mainV := 258, backupV := 0, pLast := 5, switches := 3 } })
      (lastRec · 1) none = some (0, 0, [0, 1, 2, 1, 0, 0, 5, 0, 3, 0, 0, 0]) := by decide +kernel

theorem hyp_attestKeys :
    let h := hdr noHandle
    let o : OutCmd := { waiting with started := true, accepted := true, job := .attest 64 [1] [2, 3] }
    Starts (.attest h 64 516 (zeros 32)) h ready ∧ reportLength ready = 516 ∧ Starts (.attest h 64 515 (zeros 32)) h ready ∧
    ({ ready with spools := [(1, { open1 with out := [o] })] } : State).spools = [(1, { open1 with out := [o] })] ∧
    Starts (.keyInfo h 64) h ready :=
  ⟨starts_of (by decide +kernel), by decide +kernel, starts_of (by decide +kernel), rfl, starts_of (by decide +kernel)⟩
/-! The work of the pipeline. -/

/-- Entry 7 of session 3 at position 3, with one open item. -/
def entryAt (kind : EntryKind) (items : List Item) : Entry :=
  { id := 7, sess := 3, handle := sessH, spool := 1, seq := 4, kind := kind, model := 0, first := 3, count := 1, tokens := [2],
    last := true, sample := true, stage := 0, away := false, epoch := 1, stamped := true, steer := none, delta := none, cls := 0,
    params := SampleParams.off, stops := [], arith := 0, dwell := 0, slip := 0, ready := true, readyEdge := 0, since := 0, items := items,
    reserved := [], credits := 0, sealing := false, masked := false, handed := [], late := 0, token := none, accepted := 0,
    noLogit := false, cutStop := false }

/-- An item of position 3 that runs in this tick. -/
def openOf (l : Nat) (k : ItemKind) : Item := { pos := 3, layer := l, kind := k, admitted := some 0, now := true, done := false }

/-- The module at work on the entry, its position in a given context. -/
def working (e : Entry) (c : PosCtx) : State :=
  let s := withSession (toySess .busy)
  { s with pipe := { s.pipe with entries := [e], ctx := [(ctxKey 7 3, c)] } }

/-- The work of the attention output projection's one tile. -/
def blk3 (st : BlockSt) : BlockWork :=
  { layer := 0, role := 3, tile := 0, phys := 49152, src := none, st := st, codes := [], sa := 0x3F800000, terms := [],
    vals := [], rows := [], outl := none, rowEdge := 0, edge := 0, spotNo := 0, wide := false, flags := 0 }

/-- A position whose attention output is a vector of zeros, with that projection under way. -/
def ctx3 (b : BlockWork) : PosCtx :=
  { PosCtx.init with
    hidden := [1, 2, 3, 4], vecs := [(8, [])], blocks := [b]
    qblocks := [{ layer := 0, point := 1, block := 0, codes := [], sa := 0x3F800000, noClip := 0x3F800000,
                  slots := b.rows, clip := false, resc := false, charged := [] }] }

/-- The module in a layer's item with that block; the block's key. -/
def inLayer (b : BlockWork) : State := working (entryAt .decode [openOf 0 .layer]) (ctx3 b)
def key3 : BlockKey := { entry := 7, pos := 3, layer := 0, role := 3, tile := 0 }

/-- The same with an offset of 65,504 on the first column of its panel. -/
def offset3 (b : BlockWork) : State :=
  let s := inLayer b
  { s with arr := { s.arr with panels := s.arr.panels.set 6144 { Panel.init with cal := true, o := [0x7BFF] } } }

theorem found {α : Type} {o : Option α} {p : α → Bool} (h : o.any p = true) : ∃ w, o = some w ∧ p w = true := by
  cases o with
  | none => simp at h
  | some w => exact ⟨w, rfl, by simpa using h⟩

/-! Products of codes that are all 0, on a tile without substitutions. -/

/-- What the tile's columns integrate of codes that are all 0, with the deviations of a product. -/
def still (dev : Charges) (fmt : Nat) (rec_ : List Byte) (codes : List Int) : Integrated := integrated fmt [] rec_ codes dev

theorem gated_zeros (fmt : Nat) (rec_ : List Byte) (codes : List Int) (k : Nat) (h : ∀ x ∈ codes, x = 0) :
    gatedCells fmt [] rec_ codes k = List.replicate 2096 0 := by
  have z : ∀ r, codes.getD r 0 = 0 := by
    intro r
    cases hr : codes[r]? with
    | none => simp [List.getD, hr]
    | some x => simpa [List.getD, hr] using h x (List.mem_of_getElem? hr)
  have f : (List.range 1024).filter (fun r => planeBit (codes.getD r 0) k) = [] := by
    rw [List.filter_eq_nil_iff]
    intro r _
    rw [z]
    simp [planeBit]
  unfold gatedCells
  rw [f]
  rfl

/-- The charge of a weight column is its deviation. -/
theorem still_charge (dev : Charges) (fmt : Nat) (rec_ : List Byte) (codes : List Int) (k p : Nat) (h : ∀ x ∈ codes, x = 0)
    (hk : k < 8) (hp : p < 2048) :
    ((still dev fmt rec_ codes).getD k []).getD p 0 = chargeOf 0 ((dev.getD k []).getD p 0) := by
  have n : pedestal p = 0 := by
    unfold pedestal
    rw [if_neg]
    simp
    omega
  unfold still integrated
  rw [List.getD_eq_getElem?_getD, List.getD_eq_getElem?_getD, List.getElem?_map, List.getElem?_range hk]
  simp only [Option.map_some, Option.getD_some, gated_zeros fmt rec_ codes k h, List.getElem?_map, List.getElem?_zipIdx,
    List.getElem?_replicate]
  rw [if_pos (by omega)]
  simp [n]

theorem subColumn_none (p : Nat) : subColumn [] p = p := by
  have h : ∀ i, (redValid (([] : List Nat).getD i 0) && redColumn (([] : List Nat).getD i 0) == p) = false := by
    intro i
    have v : redValid (([] : List Nat).getD i 0) = false := by
      simp [redValid]
      decide
    rw [v]
    rfl
  unfold subColumn
  simp only [h]
  rfl

theorem planeCode_none (fmt : Nat) (rec_ : List Byte) (codes : List Int) (k p : Nat) (h : ∀ x ∈ codes, x = 0) (hk : k < 8)
    (hp : p < 2048) : planeCode (still [] fmt rec_ codes) k (subColumn [] p) = (0, false) := by
  have z : convCode 0 = (0, false) := by simp [convCode, b2n]
  unfold planeCode
  rw [subColumn_none, still_charge [] fmt rec_ codes k p h hk hp]
  simpa [chargeOf] using z

theorem bitSum_zeros (codes : List Int) (k : Nat) (h : ∀ x ∈ codes, x = 0) : bitSum codes k = 0 := by
  unfold bitSum
  rw [List.countP_eq_zero]
  intro x hx
  rw [h x hx]
  simp [planeBit]

theorem getD_zeros (codes : List Int) (r : Nat) (h : ∀ x ∈ codes, x = 0) : codes.getD r 0 = 0 := by
  cases hr : codes[r]? with
  | none => simp [List.getD, hr]
  | some x => simpa [List.getD, hr] using h x (List.mem_of_getElem? hr)

theorem terms_zeros (fmt : Nat) (rec_ : List Byte) (codes : List Int) (h : ∀ x ∈ codes, x = 0) :
    productTerms fmt [] codes (still [] fmt rec_ codes) = List.replicate 8 (List.replicate 1024 0) := by
  have p : ∀ k ∈ List.range 8, planeTerms fmt [] codes (still [] fmt rec_ codes) k = List.replicate 1024 0 := by
    intro k hk
    have t : planeTerm fmt 0 0 0 = 0 := by
      match fmt with
      | 0 => rfl
      | 1 => rfl
      | _ + 2 => rfl
    have hk := List.mem_range.mp hk
    unfold planeTerms
    rw [bitSum_zeros codes k h]
    rw [show List.replicate 1024 (0 : Int) = (List.range 1024).map fun _ => 0 by rw [List.map_const', List.length_range]]
    refine List.map_congr_left fun c hc => ?_
    have hc := List.mem_range.mp hc
    rw [planeCode_none fmt rec_ codes k _ h hk (by omega), planeCode_none fmt rec_ codes k _ h hk (by omega)]
    exact t
  unfold productTerms
  rw [List.map_congr_left p, List.map_const', List.length_range]

theorem ovr_none (fmt : Nat) (rec_ : List Byte) (codes : List Int) (h : ∀ x ∈ codes, x = 0) :
    ovrCount fmt [] (still [] fmt rec_ codes) = 0 := by
  have c : ∀ k ∈ List.range 8, (List.range 2048).countP
      (fun p => (fmt != 2 || p % 2 == 0) && (planeCode (still [] fmt rec_ codes) k (subColumn [] p)).2) = 0 := by
    intro k hk
    rw [List.countP_eq_zero]
    intro p hp
    rw [planeCode_none fmt rec_ codes k p h (List.mem_range.mp hk) (List.mem_range.mp hp)]
    simp
  unfold ovrCount
  rw [List.map_congr_left c]
  decide

theorem adder_zeros (rec_ : List Byte) (codes : List Int) (k : Nat) (h : ∀ x ∈ codes, x = 0) : checkAdder rec_ codes k = 0 := by
  have z : ∀ n, (List.replicate n (0 : Int)).sum = 0 := by
    intro n
    induction n <;> simp_all [List.replicate_succ]
  unfold checkAdder
  simp only [getD_zeros codes _ h]
  have e : ∀ r, (if planeBit 0 k = true then tileRowSum rec_ r else 0) = 0 := by simp [planeBit]
  simp only [e]
  rw [List.map_const', z]

theorem tree_zeros : treeSum (List.replicate 1024 0) = 0 := by decide +kernel
theorem tree_offset : treeSum (0x477FE000#32 :: List.replicate 1023 0) = 0x477FE000#32 := by decide +kernel

theorem half_one : f16ToF32 0x3C00#16 = 0x3F800000#32 := by decide
theorem sum_zero : fmul 0x3F800000#32 (fadd (f32OfI 0) (f16ToF32 0)) = 0 := by decide
theorem sum_offset : fmul 0x3F800000#32 (fadd (f32OfI 0) (f16ToF32 0x7BFF#16)) = 0x477FE000#32 := by decide +kernel
theorem end_zero : fabs (fsub (fmul 0 0x3F800000#32) (f32OfI 0)) = 0 := by decide
theorem end_offset : fabs (fsub (fmul 0x477FE000#32 0x3F800000#32) (f32OfI 0)) = 0x477FE000#32 := by decide +kernel

theorem getD_replicate (m n k c : Nat) : ((List.replicate m (List.replicate n (0 : Int))).getD k []).getD c 0 = 0 := by
  apply getD_zeros
  intro x hx
  rw [List.getD_eq_getElem?_getD, List.getElem?_replicate] at hx
  split at hx <;> simp_all

theorem getD_terms (k c : Nat) : ((List.replicate 8 (List.replicate 1024 (0 : Int))).getD k []).getD c 0 = 0 := getD_replicate 8 1024 k c

/-- Zero terms pass on a panel without corrections. -/
theorem pass_zeros (p : Panel) (t fmt tol : Nat) (rec_ : List Byte) (codes : List Int) (ho : p.o = []) (hg : p.gc = [])
    (ht : p.gt = []) (h : ∀ x ∈ codes, x = 0) (hf : fle 0 (f32OfI (tol * formatW fmt : Nat)) = true) :
    checkPasses tol fmt (checkDiffs p t rec_ codes (List.replicate 8 (List.replicate 1024 0))) = true := by
  have d : ∀ k, fabs (planeDiff ((List.replicate 8 (List.replicate 1024 (0 : Int))).getD k []) (panelO p) (panelGc p)
      (panelGt p (t % 8)) (checkAdder rec_ codes k)) = 0 := by
    intro k
    unfold planeDiff
    simp only [adder_zeros rec_ codes k h, getD_terms, panelO, panelGc, panelGt, ho, hg, ht, List.getD_nil, half_one, sum_zero]
    rw [List.map_const', List.length_range, tree_zeros, end_zero]
  unfold checkPasses checkDiffs
  simp only [d, List.all_map, List.all_eq_true, Function.comp_def]
  intro _ _
  exact hf

/-- Zero terms fail on a panel with an offset of 65,504 on its first column. -/
theorem fail_offset (p : Panel) (t fmt tol : Nat) (rec_ : List Byte) (codes : List Int) (ho : p.o = [0x7BFF#16]) (hg : p.gc = [])
    (ht : p.gt = []) (h : ∀ x ∈ codes, x = 0) (hf : fle 0x477FE000#32 (f32OfI (tol * formatW fmt : Nat)) = false) :
    checkPasses tol fmt (checkDiffs p t rec_ codes (List.replicate 8 (List.replicate 1024 0))) = false := by
  have d : fabs (planeDiff ((List.replicate 8 (List.replicate 1024 (0 : Int))).getD 0 []) (panelO p) (panelGc p)
      (panelGt p (t % 8)) (checkAdder rec_ codes 0)) = 0x477FE000#32 := by
    have r : List.range 1024 = 0 :: (List.range 1023).map Nat.succ := List.range_succ_eq_map
    unfold planeDiff
    simp only [adder_zeros rec_ codes 0 h, getD_terms, panelO, panelGc, panelGt, ho, hg, ht, List.getD_nil, half_one, r, List.map_cons,
      List.map_map, Function.comp_def, List.getD_cons_zero, List.getD_cons_succ, sum_zero, sum_offset]
    rw [List.map_const', List.length_range, tree_offset, end_offset]
  unfold checkPasses checkDiffs
  rw [Bool.eq_false_iff]
  intro k
  rw [List.all_eq_true] at k
  have := k _ (List.mem_map.mpr ⟨0, List.mem_range.mpr (by decide), rfl⟩)
  rw [d, hf] at this
  exact Bool.false_ne_true this

/-- Codes at the low end of their range; counts and a bit sum at the top of theirs. -/
theorem hyp_fold : (List.replicate 1024 (-128 : Int)).length = 1024 ∧ (∀ x ∈ List.replicate 1024 (-128 : Int), -128 ≤ x ∧ x ≤ 127) ∧
    (∀ _ : Nat, (511 : Nat) ≤ 511 ∧ (511 : Nat) ≤ 511 ∧ (1024 : Nat) ≤ 1024) := by
  refine ⟨List.length_replicate, fun x hx => ?_, fun _ => by decide⟩
  rw [(List.mem_replicate.mp hx).2]
  decide

/-- R54, R55: the block result of a plane term of 3,066 in every plane, and of −3,072. -/
theorem test_fold : foldBlock (List.replicate 8 3066) = 3066 * (127 - 128) ∧ planeTerm 0 511 511 0 = 3066 ∧ planeTerm 0 0 0 1024 = -3072 ∧
    foldBlock (List.replicate 7 3066 ++ [-3072]) = 782598 ∧ foldBlock (List.replicate 7 (-3072) ++ [3066]) = -782592 := by decide

/-- A charge past the range on the first column of plane 0. -/
def hot : Charges := [[130945]]

theorem ovr_hot (fmt : Nat) (rec_ : List Byte) (codes : List Int) (h : ∀ x ∈ codes, x = 0) :
    0 < ovrCount fmt [] (still hot fmt rec_ codes) := by
  have c : 0 < (List.range 2048).countP fun p =>
      (fmt != 2 || p % 2 == 0) && (planeCode (still hot fmt rec_ codes) 0 (subColumn [] p)).2 := by
    rw [List.countP_pos_iff]
    refine ⟨0, List.mem_range.mpr (by decide), ?_⟩
    have v : (planeCode (still hot fmt rec_ codes) 0 (subColumn [] 0)).2 = true := by
      unfold planeCode
      rw [subColumn_none, still_charge hot fmt rec_ codes 0 0 h (by decide) (by decide)]
      rfl
    simp [v]
  have r : List.range 8 = 0 :: (List.range 7).map Nat.succ := List.range_succ_eq_map
  unfold ovrCount
  rw [r, List.map_cons, List.sum_cons]
  omega

theorem replay_zeros (xs : List F32) (h : xs.all (· == 0) = true) : ∀ c ∈ blockCodes xs 0x3F800000#32 [] [], c = 0 := by
  intro c hc
  unfold blockCodes at hc
  obtain ⟨i, -, rfl⟩ := List.mem_map.mp hc
  have x : xs.getD i 0 = 0 := by
    cases hr : xs[i]? with
    | none => simp [List.getD, hr]
    | some x => simpa [List.getD, hr] using (List.all_eq_true.mp h) x (List.mem_of_getElem? hr)
  have z : codeOf 0 0x3F800000#32 = 0 := by decide +kernel
  show (if List.contains [] i = true then (0 : Int) else if List.contains [] i = true then _ else codeOf (xs.getD i 0) 0x3F800000#32) = 0
  rw [x, z]
  rfl

theorem half_zeros (l : List Int) (b : Bool) (h : ∀ c ∈ l, c = 0) : ∀ c ∈ halfCodes l b, c = 0 := by
  intro c hc
  unfold halfCodes at hc
  cases b
  · rcases List.mem_append.mp hc with m | m
    · exact h c (List.mem_of_mem_take m)
    · exact (List.mem_replicate.mp m).2
  · rcases List.mem_append.mp hc with m | m
    · exact (List.mem_replicate.mp m).2
    · exact h c (List.mem_of_mem_drop m)

/-- What the witnesses of a product read from the block. -/
def seen3 (s : State) (b : BlockWork) (w : Blk) : Bool :=
  w.b == b && tileRuns s 49152 && blkFormat w == 0 && w.q.codes == [] && w.q.noClip == 0x3F800000#32 && w.q.slots == [] &&
  (blkInput s w).all (· == 0)

/-- TILE_PRODUCT: of a block already done; with no charge, passing and failing its checksum, with and without a failing check-store
word; with a column past the range, one more than the limit 0. -/
theorem hyp_tileProduct :
    let p := fun s w dev bad =>
      let ch := integrated (blkFormat w) (s.tileAt w.b.phys).red (blkRecord w) w.q.codes dev
      (decide (opt s oCheckSatLimit < ovrCount (blkFormat w) (s.tileAt w.b.phys).red ch),
        !List.isEmpty bad || (s.tileAt w.b.phys).csRecord,
        checkPasses (opt s oTileCheckTol) (blkFormat w) (checkDiffs (s.panelAt (w.b.phys / 8)) w.b.phys (blkRecord w) w.q.codes
          (productTerms (blkFormat w) (s.tileAt w.b.phys).red w.q.codes ch)))
    let s := inLayer (blk3 .fresh)
    let t := offset3 (blk3 .fresh)
    (∃ w, findBlk (inLayer (blk3 .done)) key3 = some w ∧ w.b.st ≠ .fresh) ∧
    (∃ w, findBlk s key3 = some w ∧ w.b.st = .fresh ∧ tileRuns s w.b.phys = true ∧ p s w [] [] = (false, false, true) ∧
      (p s w [] [0]).1 = false ∧ (p s w [] [0]).2.1 = true ∧ (p s w hot []).1 = true) ∧
    (∃ w, findBlk t key3 = some w ∧ w.b.st = .fresh ∧ tileRuns t w.b.phys = true ∧ p t w [] [] = (false, false, false)) := by
  obtain ⟨w, hw, h⟩ := found (o := findBlk (inLayer (blk3 .fresh)) key3) (p := seen3 (inLayer (blk3 .fresh)) (blk3 .fresh)) (by decide +kernel)
  obtain ⟨v, hv, g⟩ := found (o := findBlk (offset3 (blk3 .fresh)) key3) (p := seen3 (offset3 (blk3 .fresh)) (blk3 .fresh)) (by decide +kernel)
  obtain ⟨u, hu, f⟩ := found (o := findBlk (inLayer (blk3 .done)) key3) (p := fun w => w.b.st != .fresh) (by decide +kernel)
  simp only [seen3, Bool.and_eq_true, beq_iff_eq] at h g
  obtain ⟨⟨⟨⟨⟨⟨hb, hr⟩, hf⟩, hc⟩, -⟩, -⟩, -⟩ := h
  obtain ⟨⟨⟨⟨⟨⟨gb, gr⟩, gf⟩, gc⟩, -⟩, -⟩, -⟩ := g
  have hp : w.b.phys = 49152 := by rw [hb]; rfl
  have gp : v.b.phys = 49152 := by rw [gb]; rfl
  have hs : w.b.st = .fresh := by rw [hb]; rfl
  have gs : v.b.st = .fresh := by rw [gb]; rfl
  have rs : ((inLayer (blk3 .fresh)).tileAt 49152).red = [] := by decide +kernel
  have rt : ((offset3 (blk3 .fresh)).tileAt 49152).red = [] := by decide +kernel
  have cs : ((inLayer (blk3 .fresh)).tileAt 49152).csRecord = false := by decide +kernel
  have ct : ((offset3 (blk3 .fresh)).tileAt 49152).csRecord = false := by decide +kernel
  have ls : opt (inLayer (blk3 .fresh)) oCheckSatLimit = 0 := by decide +kernel
  have a := pass_zeros ((inLayer (blk3 .fresh)).panelAt (49152 / 8)) 49152 0 (opt (inLayer (blk3 .fresh)) oTileCheckTol) (blkRecord w) []
    (by decide +kernel) (by decide +kernel) (by decide +kernel) (by simp) (by decide +kernel)
  have b := fail_offset ((offset3 (blk3 .fresh)).panelAt (49152 / 8)) 49152 0 (opt (offset3 (blk3 .fresh)) oTileCheckTol) (blkRecord v) []
    (by decide +kernel) (by decide +kernel) (by decide +kernel) (by simp) (by decide +kernel)
  have n : ∀ x ∈ ([] : List Int), x = 0 := by simp
  have tz := fun r => terms_zeros 0 r [] n
  have oz := fun r => ovr_none 0 r [] n
  have oh := fun r => ovr_hot 0 r [] n
  unfold still at tz oz oh
  refine ⟨⟨u, hu, by simpa using f⟩, ⟨w, hw, hs, by rw [hp]; exact hr, ?_, ?_, ?_, ?_⟩, v, hv, gs, by rw [gp]; exact gr, ?_⟩
  · simp only [hp, hf, hc, rs, oz, tz, a, cs]
    rfl
  · simp only [hp, hf, hc, rs, oz]
    rfl
  · rfl
  · simp only [hp, hf, hc, rs, ls, oh, decide_true]
  · simp only [gp, gf, gc, rt, oz, tz, b, ct]
    rfl

/-- The replay codes of the block are 0. -/
theorem replayed {s : State} {b : BlockWork} {w : Blk} (h : seen3 s b w = true) : ∀ c ∈ replayCodes s w, c = 0 := by
  simp only [seen3, Bool.and_eq_true, beq_iff_eq] at h
  unfold replayCodes
  rw [h.1.1.2, h.1.2]
  exact replay_zeros _ h.2

/-- PRODUCT_REPEAT: passing and failing, with a failing word, with a column past the range; SPLIT_REPLAY: both halves
passing, one past the range, failing. -/
theorem hyp_replays :
    let p := fun s w codes dev =>
      let ch := integrated (blkFormat w) (s.tileAt w.b.phys).red (blkRecord w) codes dev
      (decide (opt s oCheckSatLimit < ovrCount (blkFormat w) (s.tileAt w.b.phys).red ch),
        (s.tileAt w.b.phys).csRecord,
        checkPasses (opt s oTileCheckTol) (blkFormat w) (checkDiffs (s.panelAt (w.b.phys / 8)) w.b.phys (blkRecord w) codes
          (productTerms (blkFormat w) (s.tileAt w.b.phys).red codes ch)))
    ∀ st, st = BlockSt.needRepeat ∨ st = .needSplit true →
    (let s := inLayer (blk3 st)
     ∃ w, findBlk s key3 = some w ∧ w.b.st = st ∧ tileRuns s w.b.phys = true ∧ repeatRoom s w.b.phys 1 = true ∧
      repeatRoom s w.b.phys 2 = true ∧ p s w (replayCodes s w) [] = (false, false, true) ∧
      (∀ b, p s w (halfCodes (replayCodes s w) b) [] = (false, false, true)) ∧
      (∀ b, (p s w (halfCodes (replayCodes s w) b) hot).1 = true) ∧ (p s w (replayCodes s w) hot).1 = true) ∧
    (let t := offset3 (blk3 st)
     ∃ w, findBlk t key3 = some w ∧ w.b.st = st ∧ tileRuns t w.b.phys = true ∧ p t w (replayCodes t w) [] = (false, false, false) ∧
      ∀ b, p t w (halfCodes (replayCodes t w) b) [] = (false, false, false)) := by
  intro p st hst
  obtain ⟨w, hw, h⟩ : ∃ w, findBlk (inLayer (blk3 st)) key3 = some w ∧ seen3 (inLayer (blk3 st)) (blk3 st) w = true := by
    rcases hst with rfl | rfl <;> exact found (by decide +kernel)
  obtain ⟨v, hv, g⟩ : ∃ w, findBlk (offset3 (blk3 st)) key3 = some w ∧ seen3 (offset3 (blk3 st)) (blk3 st) w = true := by
    rcases hst with rfl | rfl <;> exact found (by decide +kernel)
  have hz := replayed h
  have gz := replayed g
  simp only [seen3, Bool.and_eq_true, beq_iff_eq] at h g
  obtain ⟨⟨⟨⟨⟨⟨hb, hr⟩, hf⟩, -⟩, -⟩, -⟩, -⟩ := h
  obtain ⟨⟨⟨⟨⟨⟨gb, gr⟩, gf⟩, -⟩, -⟩, -⟩, -⟩ := g
  have room : ∀ n, n = 1 ∨ n = 2 → repeatRoom (inLayer (blk3 st)) 49152 n = true := by
    rintro n (rfl | rfl) <;> rcases hst with rfl | rfl <;> decide +kernel
  have hp : w.b.phys = 49152 := by rw [hb]; rfl
  have gp : v.b.phys = 49152 := by rw [gb]; rfl
  have hs : w.b.st = st := by rw [hb]; rfl
  have gs : v.b.st = st := by rw [gb]; rfl
  have rs : ((inLayer (blk3 st)).tileAt 49152) = ((inLayer (blk3 .fresh)).tileAt 49152) := rfl
  have rt : ((offset3 (blk3 st)).tileAt 49152) = ((inLayer (blk3 .fresh)).tileAt 49152) := rfl
  have r0 : ((inLayer (blk3 .fresh)).tileAt 49152).red = [] := by decide +kernel
  have c0 : ((inLayer (blk3 .fresh)).tileAt 49152).csRecord = false := by decide +kernel
  have ls : opt (inLayer (blk3 st)) oCheckSatLimit = 0 := by rcases hst with rfl | rfl <;> decide +kernel
  have a := fun codes hc => pass_zeros ((inLayer (blk3 .fresh)).panelAt (49152 / 8)) 49152 0 (opt (inLayer (blk3 .fresh)) oTileCheckTol)
    (blkRecord w) codes (by decide +kernel) (by decide +kernel) (by decide +kernel) hc (by decide +kernel)
  have b := fun codes hc => fail_offset ((offset3 (blk3 .fresh)).panelAt (49152 / 8)) 49152 0 (opt (inLayer (blk3 .fresh)) oTileCheckTol)
    (blkRecord v) codes (by decide +kernel) (by decide +kernel) (by decide +kernel) hc (by decide +kernel)
  have ps : (inLayer (blk3 st)).panelAt (49152 / 8) = (inLayer (blk3 .fresh)).panelAt (49152 / 8) := rfl
  have pt : (offset3 (blk3 st)).panelAt (49152 / 8) = (offset3 (blk3 .fresh)).panelAt (49152 / 8) := rfl
  have os : opt (inLayer (blk3 st)) oTileCheckTol = opt (inLayer (blk3 .fresh)) oTileCheckTol := rfl
  have ot : opt (offset3 (blk3 st)) oTileCheckTol = opt (inLayer (blk3 .fresh)) oTileCheckTol := rfl
  have tz := fun r codes hc => terms_zeros 0 r codes hc
  have oz := fun r codes hc => ovr_none 0 r codes hc
  have oh := fun r codes hc => ovr_hot 0 r codes hc
  unfold still at tz oz oh
  have good : ∀ codes, (∀ c ∈ codes, c = 0) → p (inLayer (blk3 st)) w codes [] = (false, false, true) := by
    intro codes hc
    simp only [p, hp, hf, rs, r0, c0, ps, os, oz _ codes hc, tz _ codes hc, a codes hc]
    rfl
  have bad : ∀ codes, (∀ c ∈ codes, c = 0) → p (offset3 (blk3 st)) v codes [] = (false, false, false) := by
    intro codes hc
    simp only [p, gp, gf, rt, r0, c0, pt, ot, oz _ codes hc, tz _ codes hc, b codes hc]
    rfl
  have hotter : ∀ codes, (∀ c ∈ codes, c = 0) → (p (inLayer (blk3 st)) w codes hot).1 = true := by
    intro codes hc
    simp only [p, hp, hf, rs, r0, ls, oh _ codes hc, decide_true]
  exact ⟨⟨w, hw, hs, by rw [hp]; exact hr, by rw [hp]; exact room 1 (.inl rfl), by rw [hp]; exact room 2 (.inr rfl), good _ hz, fun b => good _ (half_zeros _ b hz), fun b => hotter _ (half_zeros _ b hz),
    hotter _ hz⟩, v, hv, gs, by rw [gp]; exact gr, bad _ gz, fun b => bad _ (half_zeros _ b gz)⟩

/-- A panel whose first column has an offset of 65,504; its tile 0 is pattern-suspect with a capture of zeros and is to be tested. -/
def suspectWork : State :=
  { mapped with
    arr := { mapped.arr with
      panels := mapped.arr.panels.set 0 { Panel.init with cal := true, o := [0x7BFF] }
      tiles := mapped.arr.tiles.set 0 { mapped.tileAt 0 with suspect := true } }
    chk := { mapped.chk with captures := [(0, { tick := 4, codes := [] })] }
    spools := [(1, { open1 with out := [{ waiting with started := true, accepted := true, job := .testPanel 0 }] })]
    pipe := { mapped.pipe with plan := [{ panelOp 8 0 with ran := false }] } }

/-- The fourth product of tile 0 fails its checksum; panel 0 has its slot for the test. -/
theorem hyp_fieldTestFails :
    (panelOk 0 = true ∧ asked suspectWork (fun j => j == .testPanel 0) = true ∧ panelUnder suspectWork 0 = false ∧
      slotFor suspectWork 8 (panelOp 8 0)) ∧
    ∃ img, testImageOf suspectWork 0 = some img ∧
      checkPasses (opt suspectWork oTileCheckTol) img.1 (checkDiffs (suspectWork.panelAt 0) 0 img.2 (testCodes suspectWork 0 3)
        (productTerms img.1 (suspectWork.tileAt 0).red (testCodes suspectWork 0 3)
          (integrated img.1 (suspectWork.tileAt 0).red img.2 (testCodes suspectWork 0 3) []))) = false := by
  refine ⟨⟨by decide, by decide +kernel, by decide +kernel, ⟨by decide +kernel, by decide +kernel, .inl (by decide +kernel)⟩⟩, ?_⟩
  obtain ⟨img, hi, h⟩ := found (o := testImageOf suspectWork 0) (p := fun i => i.1 == 0) (by decide +kernel)
  have f0 : img.1 = 0 := beq_iff_eq.mp h
  have rd : (suspectWork.tileAt 0).red = [] := by decide +kernel
  have cs : testCodes suspectWork 0 3 = [] := by
    have a : (suspectWork.tileAt 0).suspect = true := by decide +kernel
    have b : suspectWork.chk.captures.find 0 = some { tick := 4, codes := [] } := by decide +kernel
    unfold testCodes
    rw [a, b]
    rfl
  have tz := terms_zeros 0 img.2 [] (by simp)
  unfold still at tz
  refine ⟨img, hi, ?_⟩
  rw [f0, rd, cs, tz]
  exact fail_offset _ 0 0 _ _ [] (by decide +kernel) (by decide +kernel) (by decide +kernel) (by simp) (by decide +kernel)

/-- R32: a weight column integrates one unit charge for each gated row whose cell stores 1, and a zero column its pedestal. -/
theorem test_integrated :
    let ch := integrated 0 [] (List.replicate 96 0 ++ zeros 2080 ++ List.replicate 1 1) [1, 1] []
    (ch.getD 0 []).getD 2049 0 = 256 * 8 ∧ (ch.getD 0 []).getD 2048 0 = 256 * 1 ∧ (ch.getD 1 []).getD 0 0 = 0 := by
  decide +kernel
/-! The tail path, the checks, the drain and the choice of a token. -/

/-- A block that asks for wide mode, and one with slotted rows to compute. -/
def wideB : BlockWork := blk3 (.wide 5)
def rowsB (l : List Nat) : BlockWork := { blk3 .done with rows := l }

/-- The keel's counters at a use. -/
def onKeel0 (s : State) (f : KeelCtr → KeelCtr) : State := s.onKeel 0 f

/-- The same block, its entry masked. -/
def maskedWork (b : BlockWork) : State := working { entryAt .decode [openOf 0 .layer] with masked := true } (ctx3 b)

theorem hyp_maskedTail : ∀ b ∈ [wideB, rowsB [5]], ∃ w, findBlk (maskedWork b) key3 = some w ∧ w.b = b ∧ w.entry.masked = true := by
  intro b hb
  obtain ⟨w, hw, h⟩ : ∃ w, findBlk (maskedWork b) key3 = some w ∧ (w.b == b && w.entry.masked) = true := by
    simp only [List.mem_cons, List.not_mem_nil, or_false] at hb
    rcases hb with rfl | rfl <;> exact found (by decide +kernel)
  simp only [Bool.and_eq_true, beq_iff_eq] at h
  exact ⟨w, hw, h.1, h.2⟩

theorem hyp_tailPath :
    let s := inLayer wideB
    let full := onKeel0 s fun x => { x with wideUsed := 16 }
    (∃ w, findBlk s key3 = some w ∧ (wideRank s w.b).isSome = true ∧ (s.keelCtr w.keel).wideUsed < opt s oWideBudget ∧
      servable s w.entry w.key.pos w.b = true ∧ wideFirst s w = true) ∧
    (∃ w, findBlk full key3 = some w ∧ opt full oWideBudget ≤ (full.keelCtr w.keel).wideUsed) ∧
    (∃ w, findBlk (inLayer (blk3 .done)) key3 = some w ∧ wideRank (inLayer (blk3 .done)) w.b = none) ∧
    (∀ l ∈ [[5], [5, 9]], ∃ w, findBlk (inLayer (rowsB l)) key3 = some w ∧ w.b.rows = l ∧
      rowRoom (inLayer (rowsB l)) w.keel w.entry w.key.pos w.b = true ∧ servable (inLayer (rowsB l)) w.entry w.key.pos w.b = true ∧
      rowFirst (inLayer (rowsB l)) w = true) := by
  refine ⟨?_, ?_, ?_, ?_⟩
  · obtain ⟨w, hw, h⟩ := found (o := findBlk (inLayer wideB) key3) (p := fun w => (wideRank (inLayer wideB) w.b).isSome &&
      decide (((inLayer wideB).keelCtr w.keel).wideUsed < opt (inLayer wideB) oWideBudget) &&
      servable (inLayer wideB) w.entry w.key.pos w.b && wideFirst (inLayer wideB) w) (by decide +kernel)
    simp only [Bool.and_eq_true, decide_eq_true_eq] at h
    exact ⟨w, hw, h.1.1.1, h.1.1.2, h.1.2, h.2⟩
  · obtain ⟨w, hw, h⟩ := found (o := findBlk (onKeel0 (inLayer wideB) fun x => { x with wideUsed := 16 }) key3)
      (p := fun w => decide (opt (inLayer wideB) oWideBudget ≤
        ((onKeel0 (inLayer wideB) fun x => { x with wideUsed := 16 }).keelCtr w.keel).wideUsed)) (by decide +kernel)
    exact ⟨w, hw, of_decide_eq_true h⟩
  · obtain ⟨w, hw, h⟩ := found (o := findBlk (inLayer (blk3 .done)) key3) (p := fun w => wideRank (inLayer (blk3 .done)) w.b == none) (by decide +kernel)
    exact ⟨w, hw, by simpa using h⟩
  · intro l hl
    obtain ⟨w, hw, h⟩ : ∃ w, findBlk (inLayer (rowsB l)) key3 = some w ∧ (w.b.rows == l &&
        rowRoom (inLayer (rowsB l)) w.keel w.entry w.key.pos w.b && servable (inLayer (rowsB l)) w.entry w.key.pos w.b &&
        rowFirst (inLayer (rowsB l)) w) = true := by
      simp only [List.mem_cons, List.not_mem_nil, or_false] at hl
      rcases hl with rfl | rfl <;> exact found (by decide +kernel)
    simp only [Bool.and_eq_true, beq_iff_eq] at h
    exact ⟨w, hw, h.1.1.1, h.1.1.2, h.1.2, h.2⟩

/-- A delta adapter with one section, of the attention output projection, of 1,025 non-zeros in the descriptor. -/
def deltaImage : List Byte :=
  [1, 0, 1, 0, 1, 0, 0, 0, 1, 0, 1, 0] ++ zeros 52 ++ ([0, 3, 0, 0] ++ toLe 4 0 ++ toLe 4 1025 ++ toLe 8 96 ++ zeros 12)

/-- The entry bound to it. -/
def deltaWork : State :=
  let s := working { entryAt .decode [openOf 0 .layer] with delta := some (adapterHandle 1 0 1) } (ctx3 (blk3 .done))
  { s with adapters := [(adapterKey 1 0, { steerA with bytes := deltaImage })] }

theorem hyp_deltaSection : ∃ e r b d v, workEntry deltaWork 7 = some (e, r) ∧ deltaFor deltaWork e 0 3 = some (b, d) ∧
    pointInput (entrySection deltaWork e 0) (entryHidden deltaWork e) (deltaWork.ctxAt 7 3) 0 (rolePoint 3) = some v ∧
    deltaWaits deltaWork e 3 (deltaWork.ctxAt 7 3) 0 3 = true ∧
    deltaFirst deltaWork r.keel (deltaKey deltaWork e 3 (deltaWork.ctxAt 7 3) 0 3) = true ∧ ceilDiv d.count 1024 = 2 ∧
    (deltaWork.keelCtr r.keel).deltaUsed + ceilDiv d.count 1024 ≤ opt deltaWork oDeltaBudget := by
  obtain ⟨x, hx, h⟩ := found (o := workEntry deltaWork 7) (p := fun x => (deltaFor deltaWork x.1 0 3).any (fun y =>
    ceilDiv y.2.count 1024 == 2 && decide ((deltaWork.keelCtr x.2.keel).deltaUsed + ceilDiv y.2.count 1024 ≤ opt deltaWork oDeltaBudget)) &&
    (pointInput (entrySection deltaWork x.1 0) (entryHidden deltaWork x.1) (deltaWork.ctxAt 7 3) 0 (rolePoint 3)).isSome &&
    deltaWaits deltaWork x.1 3 (deltaWork.ctxAt 7 3) 0 3 &&
    deltaFirst deltaWork x.2.keel (deltaKey deltaWork x.1 3 (deltaWork.ctxAt 7 3) 0 3)) (by decide +kernel)
  simp only [Bool.and_eq_true] at h
  obtain ⟨y, hy, g⟩ := found h.1.1.1
  obtain ⟨v, hv⟩ := Option.isSome_iff_exists.mp h.1.1.2
  simp only [Bool.and_eq_true, beq_iff_eq, decide_eq_true_eq] at g
  exact ⟨x.1, x.2, y.1, y.2, v, hx, hy, hv, h.1.2, h.2, g.1, g.2⟩

theorem spot_term (o : F16) : spotTerm 0 o 0x3C00#16 0x3C00#16 = fmul 0x3F800000#32 (fmul 0x3F800000#32 (fadd (f32OfI 0) (f16ToF32 o))) := by
  unfold spotTerm
  rw [half_one]

theorem exact_zeros (fmt : Nat) (rec_ : List Byte) (codes : List Int) (k : Nat) (h : ∀ x ∈ codes, x = 0) :
    exactTerms fmt rec_ codes k = List.replicate 1024 0 := by
  have z : ∀ n, (List.replicate n (0 : Int)).sum = 0 := by
    intro n
    induction n <;> simp_all [List.replicate_succ]
  have e : ∀ r c, (if planeBit 0 k = true then rowWeight fmt (imageRow rec_ r) c else 0) = 0 := by simp [planeBit]
  unfold exactTerms
  simp only [getD_zeros codes _ h, e]
  rw [List.map_const', List.map_const', z, List.length_range]

theorem spot_pass (s : State) (t fmt : Nat) (rec_ : List Byte) (ho : (s.panelAt (t / 8)).o = []) (hg : (s.panelAt (t / 8)).gc = [])
    (ht : (s.panelAt (t / 8)).gt = []) (hf : fle 0 (f32OfI (opt s oSpotTol * formatW fmt : Nat)) = true) :
    (spotResult s t fmt rec_ [] []).1 = true := by
  have d : fabs (fsub (fmul 0x3F800000#32 (fmul 0x3F800000#32 (fadd (f32OfI 0) (f16ToF32 0)))) (f32OfI 0)) = 0 := by decide
  have r : ∀ c, (List.replicate 1024 (0 : Int)).getD c 0 = 0 := fun c => getD_zeros _ c fun _ h => (List.mem_replicate.mp h).2
  unfold spotResult
  simp only [List.all_eq_true]
  intro x hx
  obtain ⟨k, -, hk⟩ := List.mem_flatMap.mp hx
  obtain ⟨c, -, rfl⟩ := List.mem_map.mp hk
  simp only [panelO, panelGc, panelGt, ho, hg, ht, List.getD_nil, spot_term, exact_zeros fmt rec_ [] k (by simp), r, d]
  exact hf

theorem spot_fail (s : State) (t fmt : Nat) (rec_ : List Byte) (ho : (s.panelAt (t / 8)).o = [0x7BFF#16]) (hg : (s.panelAt (t / 8)).gc = [])
    (ht : (s.panelAt (t / 8)).gt = []) (hf : fle 0x477FE000#32 (f32OfI (opt s oSpotTol * formatW fmt : Nat)) = false) :
    (spotResult s t fmt rec_ [] []).1 = false := by
  have d : fabs (fsub (fmul 0x3F800000#32 (fmul 0x3F800000#32 (fadd (f32OfI 0) (f16ToF32 0x7BFF#16)))) (f32OfI 0)) = 0x477FE000#32 := by
    decide +kernel
  have r : ∀ c, (List.replicate 1024 (0 : Int)).getD c 0 = 0 := fun c => getD_zeros _ c fun _ h => (List.mem_replicate.mp h).2
  unfold spotResult
  rw [Bool.eq_false_iff]
  simp only [List.all_eq_true, ne_eq]
  intro k
  have := k _ (List.mem_flatMap.mpr ⟨0, List.mem_range.mpr (by decide), List.mem_map.mpr ⟨0, List.mem_range.mpr (by decide), rfl⟩⟩)
  simp only [panelO, panelGc, panelGt, ho, hg, ht, List.getD_nil, List.getD_cons_zero, spot_term, exact_zeros fmt rec_ [] 0 (by simp), r,
    d, hf] at this
  exact Bool.false_ne_true this

/-- What the witnesses of a spot check read. -/
def seenSpot (s : State) (w : Blk) : Bool :=
  w.b == blk3 (.spot 0) && blkFormat w == 0 && (spotRoom s w.keel 0).any (fun f => spotTurn s w.keel f (spotKey s 0 w.b.edge w.b.spotNo)) && masterOk s w && !tailStuck s 7 3

theorem hyp_spotCheck : ∀ s good, (s = inLayer (blk3 (.spot 0)) ∧ good = true) ∨ (s = offset3 (blk3 (.spot 0)) ∧ good = false) →
    ∃ w f, s.pipe.spots.find? (fun h => h.key == key3) = none ∧ findBlk s key3 = some w ∧ w.b.st = .spot 0 ∧
      spotRoom s w.keel 0 = some f ∧ spotTurn s w.keel f (spotKey s 0 w.b.edge w.b.spotNo) = true ∧ masterOk s w = true ∧ tailStuck s 7 3 = false ∧
      (spotResult s w.b.phys (blkFormat w) (blkRecord w) w.b.codes w.b.terms).1 = good := by
  intro s good hs
  obtain ⟨w, hw, h⟩ : ∃ w, findBlk s key3 = some w ∧ seenSpot s w = true := by
    rcases hs with ⟨rfl, -⟩ | ⟨rfl, -⟩ <;> exact found (by decide +kernel)
  have e : s.pipe.spots.find? (fun h => h.key == key3) = none := by rcases hs with ⟨rfl, -⟩ | ⟨rfl, -⟩ <;> rfl
  simp only [seenSpot, Bool.and_eq_true, beq_iff_eq] at h
  obtain ⟨⟨⟨⟨hb, hf⟩, hr⟩, hm⟩, hk⟩ := h
  obtain ⟨f, hf', ht⟩ := found hr
  refine ⟨w, f, e, hw, by rw [hb]; rfl, hf', ht, hm, by simpa using hk, ?_⟩
  have hp : w.b.phys = 49152 := by rw [hb]; rfl
  have hc : w.b.codes = [] := by rw [hb]; rfl
  have hq : w.b.terms = [] := by rw [hb]; rfl
  rw [hp, hc, hq, hf]
  rcases hs with ⟨rfl, rfl⟩ | ⟨rfl, rfl⟩
  · exact spot_pass _ _ _ _ (by decide +kernel) (by decide +kernel) (by decide +kernel) (by decide +kernel)
  · exact spot_fail _ _ _ _ (by decide +kernel) (by decide +kernel) (by decide +kernel) (by decide +kernel)

/-- The check of a product whose entry has gone, on the fixed allowance; and with that and the extra capacity used up. -/
def heldWork : State :=
  let h : HeldSpot := { key := key3, phys := 49152, src := { model := 0, unit := 0, record := 3, epoch := 1 }, cls := 0, codes := [],
                        terms := [], edge := 0, no := 0 }
  { mapped with pipe := { mapped.pipe with spots := [h] } }

theorem hyp_heldSpot :
    let no := fun s : State => onKeel0 s fun x => { x with spotUsed := 2048, extraUsed := 2 ^ 32 }
    heldWork.pipe.spots.any (fun h => h.key == key3 && spotRoom heldWork (tileKeel h.phys) h.cls == some true &&
      spotTurn heldWork (tileKeel h.phys) true (spotKey heldWork h.cls h.edge h.no) && !sourceLost heldWork h.src &&
      spotRoom (no heldWork) (tileKeel h.phys) h.cls == none) = true := by decide +kernel

/-- A burst as it was written at a keel DRAM offset, and the same with its check value spoilt. -/
def burstAt (off : Nat) (d : List Byte) : Burst :=
  { data := d, crc := BitVec.ofNat 16 (crc .crc16 ((d ++ zeros 64).take 64 ++ toLe 8 off)) }
def spoilt (b : Burst) : Burst := { b with crc := ~~~b.crc }

/-- R439: a burst fails at another offset, as it does with another check value. -/
theorem test_burst : let b := burstAt 64 [1, 2, 3]
    burstOk 64 b = true ∧ burstOk 128 b = false ∧ burstOk 64 (spoilt b) = false := by decide +kernel

/-- Whatever the polarity of the parity bit, one of the two values fails. -/
theorem hyp_parity : ∃ par, parityBad 0 par = true ∧ parityBad 0 (!par) = false := by
  refine ⟨!Config.oddParity, ?_⟩
  unfold parityBad
  generalize Config.oddParity = o
  cases o <;> decide

/-- Attempts at an addition whose result is right, and off by one; a product of two operands. -/
def tryOf (u : Nat) (d : Int) : ResidueTry := { unit := u, mul := false, x := 7, y := 9, result := 16 + d }

/-- R437, R438: an error that is a multiple of 15 passes; a unit that failed is not taken again, and a fourth attempt is not made. -/
theorem test_failedTries :
    failedTries 3 [] [tryOf 1 1, tryOf 1 2, tryOf 2 15] = [tryOf 1 1] ∧
    failedTries 3 [] [tryOf 1 1, tryOf 2 1, tryOf 3 1, tryOf 4 1] = [tryOf 1 1, tryOf 2 1, tryOf 3 1] ∧
    failedTries 3 [] [{ unit := 0, mul := true, x := -4, y := 5, result := -20 }] = [] := by decide

/-- SPOT_CHECK_DUE one tick before and at its time; a rerun for an entry in flight; lines and words of every region named. -/
theorem hyp_checking :
    let due := fun n => { mapped with tick := { mapped.tick with edges := n } }
    let s := inLayer (blk3 .done)
    (panelOk 0 = true ∧ panelHolds mapped 0 = true ∧
      ((due (opt mapped oSpotPeriod - 2)).panelAt 0).goodEdge + opt mapped oSpotPeriod ≤ (due (opt mapped oSpotPeriod - 2)).tick.edges + 2 ∧
      (due (opt mapped oSpotPeriod - 3)).tick.edges + 2 < ((due (opt mapped oSpotPeriod - 3)).panelAt 0).goodEdge + opt mapped oSpotPeriod) ∧
    ((7 : Nat) < 8 ∧ (s.entry 7).isSome = true) ∧ (burstOk 64 (burstAt 64 []) = true ∧ burstOk 64 (spoilt (burstAt 64 [])) = false) ∧
    (∀ r ∈ [DramRegion.frame 5, .frameTable 3 0, .scores 7, .held 7, .embedVectors 7 0, .adapter 7, .calCounts 6144,
      .master 0 false 0 0 3 none, .master 0 false 0 0 3 (some (4, 128)), .master 0 true 0 0 3 (some (4, 128))],
      (Instr.dramLineFail 7 r 64 (spoilt (burstAt 64 [])) (burstAt 64 [])).wf = true) ∧
    (groupSecond 3 (some (4, 128)) = some (4, 128) ∧ groupSecond 3 (some (8, 128)) = none ∧ regionWaits (.adapter 7) = true) ∧
    (Instr.residueRerun 0 true [tryOf 31 1] 7 3).wf = true ∧
    ((mapped.tileAt 0).holds = some (toySrc 0 0 1) ∧ sourceLost mapped (toySrc 0 0 1) = false) ∧
    (7, 64 / 64) ∉ s.chk.badLines ∧ panelOk 6144 = true ∧ tileOk 49152 = true ∧ (s.entry 7).isSome = true ∧
    mayRecalibrate recalNow 0 = true ∧ mayRecalibrate mapped 1 = false := by decide +kernel

/-- R298, R440: a line that a rebuild cannot restore loses its record; both lines and the record are recorded once. -/
theorem test_masterLost :
    let i := Instr.dramLineFail 0 (.master 0 false 0 0 3 (some (4, 128))) 64 (spoilt (burstAt 64 [])) (spoilt (burstAt 64 []))
    after (exec i mapped) (fun t => ((t.model 0).lost, t.chk.log.length)) ([], 0) = ([(256, 0)], 3) ∧
    after (step { after (exec i mapped) id mapped with pending := [i] }) (fun t => ((t.model 0).lost, t.chk.log.length)) ([], 0) =
      ([(256, 0)], 3) := by decide +kernel

/-- R438: three failures hold the work of the position for the tick and name the cores to test; two do not. -/
theorem test_residueRerun :
    after (exec (.residueRerun 0 false [tryOf 1 1, tryOf 2 1, tryOf 3 1] 7 3) (inLayer (blk3 .done)))
      (fun t => (t.chk.residue, (t.entry 7).map Entry.late, t.chk.log.length, t.chk.failing, coreStuck t 7 3)) (0, none, 0, [], false) =
        (3, some 1, 3, [1, 2, 3], true) ∧
    after (exec (.residueRerun 0 false [tryOf 1 1, tryOf 2 1, tryOf 3 0] 7 3) (inLayer (blk3 .done)))
      (fun t => (t.chk.residue, (t.entry 7).map Entry.late, t.chk.log.map FaultRec.recovered)) (0, none, []) =
        (2, some 0, [true, true]) := by decide +kernel

theorem test_sramFails : let t := sramFails 0 4 (.correction 6144) (inLayer (blk3 .done))
    (t.chk.sram, tileRuns t 49152) = (1, false) := by decide +kernel

/-- An item whose projection of the attention output is complete; one whose gate projection is; the head's; and one that waits for
the steering update after its down projection. -/
def doneB (l role tile : Nat) : BlockWork := { blk3 .done with layer := l, role := role, tile := tile, vals := [0x3F800000, 0x40000000] }
def drainable (l role : Nat) (k : ItemKind) : State :=
  working (entryAt .decode [openOf l k]) { ctx3 (blk3 .done) with blocks := [doneB l role 0] }

theorem hyp_drain : ∀ x ∈ [(0, 0, ItemKind.pre), (0, 3, .post), (0, 4, .layer), (0, 6, .layer), (257, 7, .head)],
    let s := drainable x.1 x.2.1 x.2.2
    (workEntry s 7).any (fun w => openFor w.1 3 x.1 x.2.1 && drained (s.ctxAt 7 3) x.1 x.2.1 == none &&
      matrixReady (s.ctxAt 7 3) x.1 x.2.1 (matTiles (roleDesc (entrySection s w.1 x.1) x.2.1)) &&
      deltaFor s w.1 x.1 x.2.1 == none && !coreStuck s 7 3) = true := by decide +kernel

/-- R145: with one row block and no delta the logits are the block's values. -/
theorem test_drain : after (exec (.drain 7 3 257 7) (drainable 257 7 .head)) (fun t => ((t.ctxAt 7 3).logits.take 2)) [] =
    [0x3F800000, 0x40000000] := by decide +kernel

/-- R147, R148: parts of two rows add in another order than the unsplit tree only where they are not aligned. -/
theorem test_splitTree :
    let l := [some 0x3F800000, some 0x40000000, some 0x40400000#32]
    splitTree [2] l = tree l ∧ splitTree [1] [some 0x4B800000, some 0x3F800000, some 0x3F800000#32] ≠
      tree [some 0x4B800000, some 0x3F800000, some 0x3F800000#32] := by decide +kernel

/-- A steering adapter that adds one times vector 5 to the layer, and the entry bound to it. -/
def steering : State :=
  let s := working { entryAt .decode [openOf 0 .layer] with steer := some (adapterHandle 0 0 1) }
    { ctx3 (blk3 .done) with vecs := [(6, [])] }
  { s with adapters := [(0, { steerA with bytes := image32 0 ++ (List.replicate 256 [0, (0x3C : Byte)]).flatten ++ [0, 0x3C, 5, 0] })] }

theorem hyp_steeringUpdate : ∃ e r b, workEntry steering 7 = some (e, r) ∧ steerFor steering e 0 = some b ∧ openFor e 3 0 6 = true ∧
    (drained (steering.ctxAt 7 3) 0 6).isSome = true ∧ (steering.ctxAt 7 3).steered.contains 0 = false ∧
    adapterBad steering e = false ∧ coreStuck steering 7 3 = false := by
  obtain ⟨x, hx, h⟩ := found (o := workEntry steering 7) (p := fun x => (steerFor steering x.1 0).isSome && openFor x.1 3 0 6 && !adapterBad steering x.1)
    (by decide +kernel)
  simp only [Bool.and_eq_true, Bool.not_eq_true'] at h
  obtain ⟨b, hb⟩ := Option.isSome_iff_exists.mp h.1.1
  exact ⟨x.1, x.2, b, hx, hb, h.1.2, by decide +kernel, by decide +kernel, h.2, by decide +kernel⟩
/-! Attention and tokens. -/

/-- The session's page list with one frame that is its own. -/
def paged (e : Entry) (c : PosCtx) (g : PageE) : State :=
  let s := working e c
  { s with kv := { s.kv with pages := [(0, g)], frames := [(g.frame, { FrameE.init with ref := 1, owner := 3 })] } }

def own : PageE := { PageE.init with valid := true, frame := 9 }

/-- A position whose Q, K and V are drained. -/
def qkv : PosCtx :=
  { PosCtx.init with
    hidden := [1, 2, 3, 4], vecs := [(0, List.replicate 64 0), (1, List.replicate 64 0), (2, List.replicate 64 0)]
    qblocks := [{ layer := 0, point := 0, block := 0, codes := [], sa := 0x3F800000, noClip := 0x3F800000, slots := [], clip := false,
                  resc := false, charged := [] }] }

theorem hyp_kvWrites :
    let s := paged (entryAt .decode [openOf 0 .layer]) qkv own
    let t := paged (entryAt .decode []) qkv { own with copy := true, old := 4 }
    (workEntry s 7).any (fun w =>
      let pg := kvPage s w.1 w.2 0 3
      (drained (s.ctxAt 7 3) 0 1).isSome && (drained (s.ctxAt 7 3) 0 2).isSome && openFor w.1 3 0 1 &&
      !(s.ctxAt 7 3).kvDone.contains 0 && !(s.page pg.1).copy && (s.page pg.1).valid && !frameBad s (pageFrame s w.2 pg.1) &&
      w.1.first == 3 && !tableBad s w.1.sess 0 && !coreStuck s 7 3) = true ∧
    ((layerStage (t.model (modelOf (t.sess 3))) 0).map StageRec.keel = some 0 ∧ (t.sess 3).runs.find 0 ≠ none ∧ copyHeld t 3 0 0 false = false ∧
      (t.page (pageAt (t.sess 3).runs (0, 0) 0)).copy = true ∧ (t.page (pageAt (t.sess 3).runs (0, 0) 0)).valid = true ∧
      (t.page (pageAt (t.sess 3).runs (0, 0) 0)).old ≠ (t.page (pageAt (t.sess 3).runs (0, 0) 0)).frame ∧
      (s.page (pageAt (s.sess 3).runs (0, 0) 0)).copy = false) := by decide +kernel

/-- R231: after the copy the page names the new frame alone. -/
theorem test_frameCopy : let t := paged (entryAt .decode []) qkv { own with copy := true, old := 4 }
    after (exec (.frameCopy 3 0 0 false) t) (fun u => ((u.page 0).copy, (u.page 0).frame)) (true, 0) = (false, 9) := by decide +kernel

/-- A shard of four keys after a pass. -/
def shard0 (a b : Bool) : Shard :=
  { layer := 0, n := 0, scores := [List.replicate 4 0], maxs := [0], sums := if b then [0x40800000] else [], parts := [], passA := a,
    passB := b, passC := false }

/-- The position with its keys written, in one shard of 16 keys. -/
def attending (l : List Shard) : State :=
  paged (entryAt .decode [openOf 0 .layer]) { qkv with lens := [(0, 16)], kvDone := [0], shards := l } own

theorem hyp_attention :
    let s := attending []
    let b := attending [shard0 true false]
    let c := attending [shard0 true true]
    (workEntry s 7).any (fun w => (drained (s.ctxAt 7 3) 0 0).isSome && passOpen w.1 3 0 (.passA 0) &&
      shardKeys ((s.ctxAt 7 3).lens.get 0 0) 3 0 != [] && findShard (s.ctxAt 7 3) 0 0 == none &&
      keysReady s w.1 w.2 0 (shardKeys ((s.ctxAt 7 3).lens.get 0 0) 3 0) && !coreStuck s 7 3) = true ∧
    (workEntry b 7).any (fun w => (shardsAfter (b.ctxAt 7 3) 0 (shardCount 16 3) Shard.passA).isSome &&
      (findShard (b.ctxAt 7 3) 0 0).any (fun d => !d.passB) && passOpen w.1 3 0 (.passB 0) && !coreStuck b 7 3) = true ∧
    (workEntry c 7).any (fun w => (shardsAfter (c.ctxAt 7 3) 0 (shardCount 16 3) Shard.passB).isSome &&
      (findShard (c.ctxAt 7 3) 0 0).any (fun d => !d.passC) && passOpen w.1 3 0 (.passC 0) &&
      keysReady c w.1 w.2 0 (shardKeys 16 3 0) && !coreStuck c 7 3) = true := by decide +kernel

/-- R210: a pass B marks its shard and leaves the next pass open. -/
theorem test_attnPassB : after (exec (.attnPassB 7 3 0 0) (attending [shard0 true false]))
    (fun t => (findShard (t.ctxAt 7 3) 0 0).map fun d => (d.passB, d.passC)) none = some (true, false) := by decide +kernel

/-- R149, R210: EXP of 0 is 1 within 2 ulp, and of a NaN the quiet NaN. -/
theorem test_exp : expReal 0 = 2 ^ 256 ∧ fIsNaN 0 = false ∧ fIsNaN 0x7FC00001 = true ∧ expClose (expReal 0) 0x3F800002 = true ∧
    expClose (expReal 0) 0x3F800003 = false := by decide +kernel

/-- A position that has its logits and waits for the choice of a token. -/
def sampling (kind : EntryKind) (l : List F32) : State :=
  working { entryAt kind [openOf 257 .sampling] with params := SampleParams.off } { PosCtx.init with hidden := [1], logits := l }

/-- A verification of one draft token. -/
def verifying : State :=
  let s := sampling .verify [0, 0x3F800000]
  { s with sessions := [(3, { toySess .busy with
      run := some { spool := 1, seq := 4, opcode := 0x24, kind := .verify, tokens := [], pos := 3, total := 1, sample := true, left := 1, chunk := 1,
                    keep := none, k := 0, rejection := false, list := true, drafts := [], probs := [], emitted := 0, stop := 0,
                    held := 0 } })] }

theorem hyp_sampling :
    (workEntry (sampling .decode [0, 0x3F800000]) 7).any (fun w => lastPos w.1 == 3 && (openItem w.1 3).map Item.kind == some .sampling &&
      w.1.kind == .decode && !coreStuck (sampling .decode [0, 0x3F800000]) 7 3) = true ∧
    (workEntry (sampling .draft [0, 0x3F800000]) 7).any (fun w => (openItem w.1 3).map Item.kind == some .sampling &&
      w.1.kind == .draft && !coreStuck (sampling .draft [0, 0x3F800000]) 7 3) = true ∧ lastPos (entryAt .draft [openOf 257 .sampling]) = 3 ∧
    unusable [0, 0x3F800000] = false ∧ unusable [0x7FC00000] = true ∧ unusable [0xFF800000] = true ∧
    (workEntry verifying 7).any (fun w => w.1.kind == .verify && w.1.count == 1 && ((verifying.sess w.1.sess).run).isSome &&
      (openItem w.1 (lastPos w.1)).map Item.kind == some .sampling && !(verifying.ctxAt 7 w.1.first).logits.isEmpty && !coreStuck verifying 7 3) = true := by
  decide +kernel

/-- R259: greedy takes the largest logit, the lower identifier first; no usable logit gives none. -/
theorem test_samplingJob :
    let tok := fun l => after (exec (.samplingJob 7) (sampling .decode l)) (fun t => (t.entry 7).map fun e => (e.token, e.noLogit)) none
    tok [0, 0x3F800000, 0x3F800000] = some (some 1, false) ∧ tok [0x7FC00000, 0] = some (none, true) := by decide +kernel
/-! Service of the arrays, replacement, the tick, supplies and the ADC. -/

/-- Tile 0 in a given condition, with a service operation placed on it in this tick. -/
def served0 (f : Tile → Tile) (v : Service) : State :=
  let s := written .committed 1
  { s with arr := { s.arr with tiles := s.arr.tiles.set 0 (f { Tile.init with holds := some (toySrc 0 0 1) }) }
           pipe := { s.pipe with plan := [v] } }

/-- What a scrub reads of a row of zeros whose last and first four bytes bring the check value of its 256 bytes to 0. -/
def scrubWeight (p : Nat) : Nat := if p < 32 then 1 else if p < 2016 then 0 else bitsOf 0x641F6454 (p - 2016) 1

def goodRow (r : Nat) : List Nat :=
  (List.range 2080).map fun p => if p < 2048 then scrubWeight p else refPattern p r + if p % 2 = 1 then 8 else 0

theorem goodRow_get (r p : Nat) (h : p < 2080) :
    (goodRow r).getD p 0 = if p < 2048 then scrubWeight p else refPattern p r + if p % 2 = 1 then 8 else 0 := by
  have e : (goodRow r)[p]? = some (if p < 2048 then scrubWeight p else refPattern p r + if p % 2 = 1 then 8 else 0) := by
    unfold goodRow
    rw [List.getElem?_map, List.getElem?_range h]
    rfl
  rw [List.getD_eq_getElem?_getD, e]
  rfl

theorem goodRow_weight (r p : Nat) (h : p < 2048) : scrubCode (goodRow r) p = scrubWeight p := by
  have n : ¬ 2048 ≤ p := by omega
  unfold scrubCode
  rw [goodRow_get r p (by omega)]
  simp [h, n]

theorem goodRow_ref (r j : Nat) (h : j < 32) : scrubCode (goodRow r) (2048 + j) = refPattern (2048 + j) r := by
  have n : ¬ 2048 + j < 2048 := by omega
  unfold scrubCode
  rw [goodRow_get r (2048 + j) (by omega)]
  by_cases o : (2048 + j) % 2 = 1
  · simp [o, n]
    omega
  · simp [o, n]

theorem scrubWeight_lt (p : Nat) : scrubWeight p < 2 := by
  unfold scrubWeight
  split
  · decide
  · split
    · decide
    · unfold bitsOf
      omega

theorem scrubColumn_none (p : Nat) : scrubColumn [] p = p := by
  have e : (List.range 16).find? (fun i => redValid ([].getD i 0) && redColumn ([].getD i 0) == p) = none := by
    rw [List.find?_eq_none]
    intro i _
    simp [redValid, bitOf]
  unfold scrubColumn
  rw [e]

theorem goodRow_bytes (r : Nat) : scrubBytes [] (goodRow r) = [0xFF, 0xFF, 0xFF, 0xFF] ++ zeros 248 ++ [0x54, 0x64, 0x1F, 0x64] := by
  have e : scrubBytes [] (goodRow r) = (List.range 256).map fun i =>
      BitVec.ofNat 8 ((List.range 8).map fun j => scrubWeight (8 * i + j) % 2 * 2 ^ j).sum := by
    unfold scrubBytes
    apply List.map_congr_left
    intro i hi
    congr 2
    apply List.map_congr_left
    intro j hj
    have hi := List.mem_range.mp hi
    have hj := List.mem_range.mp hj
    rw [scrubColumn_none, goodRow_weight r _ (by omega)]
  rw [e]
  decide +kernel

theorem goodRow_crc (r : Nat) : crc32c (scrubBytes [] (goodRow r)) = 0 := by
  have a : crcFeed .crc32c (crcInit .crc32c) [0xFF, 0xFF, 0xFF, 0xFF] = 0 := by decide +kernel
  have b : crcFeed .crc32c 0 [0x54, 0x64, 0x1F, 0x64] = 0xFFFFFFFF := by decide +kernel
  have c : crcFeed .crc32c (crcInit .crc32c) ([0xFF, 0xFF, 0xFF, 0xFF] ++ zeros 248 ++ [0x54, 0x64, 0x1F, 0x64]) = 0xFFFFFFFF := by
    have z := crcFeed_zeros 248
    unfold crcFeed at *
    rw [List.foldl_append, List.foldl_append, a, z, b]
  rw [goodRow_bytes]
  unfold crc32c crc
  rw [c]
  decide

/-- A row whose record's check value is 0 matches. -/
theorem goodRow_matches (rec_ : List Byte) (r : Nat) (h : le rec_ (262144 + 4 * r) 4 = 0) : rowMismatch [] (some rec_) r (goodRow r) = false := by
  have w : (List.range 2096).any (fun p => decide (2 ≤ scrubCode (goodRow r) p)) = false := by
    rw [List.any_eq_false]
    intro p _
    have h : scrubCode (goodRow r) p < 2 := by
      by_cases a : p < 2048
      · rw [goodRow_weight r p a]
        exact scrubWeight_lt p
      · by_cases b : p < 2080
        · obtain ⟨j, rfl⟩ : ∃ j, p = 2048 + j := ⟨p - 2048, by omega⟩
          rw [goodRow_ref r j (by omega)]
          unfold refPattern
          split <;> decide
        · have e : (goodRow r).length = 2080 := by unfold goodRow; rw [List.length_map, List.length_range]
          have z : (goodRow r).getD p 0 = 0 := by
            rw [List.getD_eq_getElem?_getD, List.getElem?_eq_none (by omega)]
            rfl
          unfold scrubCode
          rw [z]
          simp
    simp
    omega
  have f : (List.range 32).any (fun j => scrubCode (goodRow r) (2048 + j) != refPattern (2048 + j) r) = false := by
    rw [List.any_eq_false]
    intro j hj
    simp [goodRow_ref r j (List.mem_range.mp hj)]
  unfold rowMismatch scrubRow
  simp only [w, goodRow_crc, f, Option.any_some, h, Bool.false_or, Bool.or_false]
  decide

theorem le_past (b : List Byte) (n k : Nat) (h : b.length ≤ n) : le b n k = 0 := by
  have d : ∀ k, leFront [] k = 0 := by
    intro k
    induction k with
    | zero => rfl
    | succ k ih => simp [leFront, byteAt, ih]
  unfold le
  rw [List.drop_eq_nil_of_le h, d]

/-- SCRUB_UNIT: the first unit and the last of a tile, whose rows all match; a row that is missing mismatches. -/
theorem hyp_scrubUnit : ∀ x ∈ [(0, 0), (14, 0), (7, 3)],
    let s := served0 (fun t => { t with units := x.1 }) (tileOp 2 0 true)
    let src := toySrc 0 0 1
    (tileOk 0 = true ∧ x.2 < 4 ∧ (s.tileAt 0).holds = some src ∧ bitOf (s.tileAt 0).units x.2 = false ∧ sourceLost s src = false ∧
      slotFor s 2 (tileOp 7 0 true)) ∧
    (∀ i, i < 256 → rowMismatch (s.tileAt 0).red (some (srcRecord s src)) (256 * x.2 + i)
      (((List.range 256).map fun i => goodRow (256 * x.2 + i)).getD i []) = false) ∧
    rowMismatch (s.tileAt 0).red (some (srcRecord s src)) 0 [] = true := by
  intro x hx s src
  have b : rowMismatch [] (some (srcRecord s src)) 0 [] = true := by
    have f : (List.range 32).any (fun j => scrubCode [] (2048 + j) != refPattern (2048 + j) 0) = true :=
      List.any_eq_true.mpr ⟨0, List.mem_range.mpr (by decide), by decide⟩
    unfold rowMismatch
    rw [f, Bool.or_true]
  have a : (srcRecord s src).length ≤ 262144 ∧ (s.tileAt 0).red = [] := by
    simp only [List.mem_cons, List.not_mem_nil, or_false] at hx
    rcases hx with rfl | rfl | rfl <;> decide +kernel
  refine ⟨?_, ?_, by rw [a.2]; exact b⟩
  · simp only [List.mem_cons, List.not_mem_nil, or_false] at hx
    rcases hx with rfl | rfl | rfl <;>
      exact ⟨by decide +kernel, by decide +kernel, by decide +kernel, by decide +kernel, by decide +kernel, by decide +kernel,
        by decide +kernel, .inl (by decide +kernel)⟩
  · intro i hi
    have g : ((List.range 256).map fun i => goodRow (256 * x.2 + i)).getD i [] = goodRow (256 * x.2 + i) := by
      rw [List.getD_eq_getElem?_getD, List.getElem?_map, List.getElem?_range hi, Option.map_some, Option.getD_some]
    rw [g, a.2]
    exact goodRow_matches _ _ (le_past _ _ _ (by omega))

/-- REFRESH_HALF with an urgent slot, its first half and its second; without a slot; the rewrites with theirs. -/
theorem hyp_tileService :
    let a := served0 id (tileOp 1 0 false)
    let b := served0 (fun t => { t with half := some 9 }) (tileOp 1 0 false)
    let none_ := served0 id (tileOp 9 0 false)
    let c := served0 (fun t => { t with rewrites := [(1023, 4)], csDue := some 4, csBad := [1], redWant := some [32768] }) (tileOp 4 0 false)
    (tileOk 0 = true ∧ (a.tileAt 0).holds.isSome = true ∧ slotFor a 1 (tileOp 5 0 false) ∧ (a.tileAt 0).half = none ∧
      onDieCount (underRefresh a) 0 < 32) ∧
    (slotFor b 1 (tileOp 5 0 false) ∧ (b.tileAt 0).half = some 9) ∧
    ¬ slotFor none_ 1 (tileOp 5 0 false) ∧
    ((c.tileAt 0).holds = some (toySrc 0 0 1) ∧ sourceLost c (toySrc 0 0 1) = false ∧ slotFor c 4 (tileOp 4 0 false) ∧
      (1023 : Nat) ∈ (c.tileAt 0).rewrites.map Prod.fst ∧ (c.tileAt 0).csDue = some 4 ∧ (c.tileAt 0).redWant = some [32768]) :=
  ⟨⟨by decide +kernel, by decide +kernel, ⟨by decide +kernel, by decide +kernel, .inl (by decide +kernel)⟩, by decide +kernel, by decide +kernel⟩,
    ⟨⟨by decide +kernel, by decide +kernel, .inl (by decide +kernel)⟩, by decide +kernel⟩,
    fun h => by
      rcases h.2.2 with g | g
      · exact absurd g (by decide +kernel)
      · exact absurd g (by decide +kernel),
    by decide +kernel, by decide +kernel, ⟨by decide +kernel, by decide +kernel, .inl (by decide +kernel)⟩, by decide +kernel, by decide +kernel,
    by decide +kernel⟩

/-- A tile whose record is lost, and one without weights. -/
theorem hyp_tileLost :
    let a := served0 id (tileOp 2 0 true)
    sourceLost { a with models := [(0, { a.model 0 with lost := [(0, 0)] })] } (toySrc 0 0 1) = true ∧
    ((served0 (fun t => { t with holds := none }) (tileOp 2 0 true)).tileAt 0).holds = none := by decide +kernel

/-- A scrub without its record (log 128), and a row that is missing, which mismatches there too. -/
theorem hyp_scrubLost :
    let a := served0 id (tileOp 2 0 true)
    let s := { a with models := [(0, { a.model 0 with lost := [(0, 0)] })] }
    (s.tileAt 0).holds = some (toySrc 0 0 1) ∧ sourceLost s (toySrc 0 0 1) = true ∧ bitOf (s.tileAt 0).units 0 = false ∧
    slotFor s 2 (tileOp 7 0 true) ∧ rowMismatch (s.tileAt 0).red none 0 [] = true :=
  ⟨by decide +kernel, by decide +kernel, by decide +kernel, ⟨by decide +kernel, by decide +kernel, .inl (by decide +kernel)⟩,
    by decide +kernel⟩

/-- R102: the age of a refresh counts from its first half. -/
theorem test_refreshHalf :
    after (exec (.refreshHalf 0 1) (served0 (fun t => { t with half := some 9, refreshed := 2 }) (tileOp 1 0 false)))
      (fun t => ((t.tileAt 0).half, (t.tileAt 0).refreshed)) (none, 0) = (none, 9) := by decide +kernel

theorem test_checkStoreRewrite :
    after (exec (.checkStoreRewrite 0) (served0 (fun t => { t with csDue := some 4, csBad := [1] }) (tileOp 4 0 false)))
      (fun t => ((t.tileAt 0).csBad, (t.tileAt 0).csDue)) ([], none) = ([], none) := by decide +kernel

/-- A time at which a service falls due, on the tile's last scrub at 0. -/
def atEdges (n : Nat) : State :=
  let s := served0 id (tileOp 9 0 false)
  { s with tick := { s.tick with edges := n, time := n } }

/-- The refresh of a band-0 die is urgent from 224 ms, not before; SCRUB_PERIOD and one edge more; CAL_INTERVAL and its double. -/
theorem hyp_serviceDue :
    let p := opt (atEdges 0) oScrubPeriod
    let c := opt (atEdges 0) oCalInterval
    tileOk 0 = true ∧ panelOk 0 = true ∧ ((atEdges 0).tileAt 0).holds.isSome = true ∧ panelHolds (atEdges 0) 0 = true ∧
    7 * refreshInterval (atEdges 224000000) 0 ≤ 8 * ((atEdges 224000000).tick.time - ((atEdges 224000000).tileAt 0).refreshed) ∧
    ¬ 7 * refreshInterval (atEdges 223999999) 0 ≤ 8 * ((atEdges 223999999).tick.time - ((atEdges 223999999).tileAt 0).refreshed) ∧
    (¬ p < (atEdges p).tick.edges ∧ p < (atEdges (p + 1)).tick.edges ∧ takesEvent (atEdges (p + 1)) 0 = true) ∧
    ((atEdges c).panelAt 0).lastAttempt + c ≤ (atEdges c).tick.edges ∧ ((atEdges c).panelAt 0).calDue = false ∧
    ((atEdges (2 * c)).panelAt 0).lastAttempt + 2 * c ≤ (atEdges (2 * c)).tick.edges := by decide +kernel

theorem test_scrubLate : after (exec (.scrubLate 0) (atEdges (opt (atEdges 0) oScrubPeriod + 1))) (fun t => (t.tileAt 0).late) false = true ∧
    after (exec (.scrubLate 0) (atEdges (opt (atEdges 0) oScrubPeriod))) (fun t => (t.tileAt 0).late) true = false := by decide +kernel

/-- Tile 0 under write, with some rows done. -/
def writing0 (f : Tile → Tile) : State :=
  served0 (fun t => f { t with holds := none, under := some (toySrc 0 0 1) }) (tileOp 9 0 false)

theorem hyp_writing :
    let first := writing0 id
    let last := writing0 fun t => { t with rows := 1008 }
    let third := writing0 fun t => { t with rows := 1024, rowFails := [(5, 2)] }
    let done := writing0 fun t => { t with rows := 1024 }
    let many := writing0 fun t => { t with rows := 16, pieces := pieceLimit (tickNs first), pieceEdge := first.tick.edges }
    (tileOk 0 = true ∧ (first.tileAt 0).under = some (toySrc 0 0 1) ∧ sourceLost first (toySrc 0 0 1) = false ∧
      pieceFits first 0 = true ∧ slotFor first 9 (tileOp 9 0 false) ∧ (first.tileAt 0).rows = 0) ∧
    ((∀ x ∈ [first, last, third], (pieceRows (x.tileAt 0)).Nodup) ∧ (pieceRows (first.tileAt 0)).length = 16 ∧
      (∀ i, i < 16 → (List.replicate 16 true).getD i false = true) ∧ pieceRows (third.tileAt 0) = [5] ∧
      2 ≤ (third.tileAt 0).rowFails.get 0 5 ∧ pieceFits third 0 = true) ∧
    (pieceFits many 0 = false ∧
      sourceLost { first with models := [(0, { first.model 0 with lost := [(0, 0)] })] } (toySrc 0 0 1) = true) ∧
    ((last.tileAt 0).rows ≠ 0 ∧ slotFor last 9 (tileOp 9 0 false) ∧ (last.tileAt 0).rows < 1024) ∧
    (slotFor third 9 (tileOp 9 0 false) ∧ (third.tileAt 0).rows = 1024 ∧ (third.tileAt 0).rowFails = [(5, 2)] ∧
      (third.tileAt 0).fail = false) ∧
    ((last.tileAt 0).rows < 1024 ∧ (third.tileAt 0).rowFails ≠ [] ∧ 1024 ≤ (done.tileAt 0).rows ∧ (done.tileAt 0).rowFails = []) :=
  ⟨⟨by decide +kernel, by decide +kernel, by decide +kernel, by decide +kernel, ⟨by decide +kernel, by decide +kernel, .inl (by decide +kernel)⟩,
      by decide +kernel⟩, by decide +kernel, by decide +kernel,
    ⟨by decide +kernel, ⟨by decide +kernel, by decide +kernel, .inl (by decide +kernel)⟩, by decide +kernel⟩,
    ⟨⟨by decide +kernel, by decide +kernel, .inl (by decide +kernel)⟩, by decide +kernel, by decide +kernel, by decide +kernel⟩, by decide +kernel⟩

/-- R304: a row fails its third verify. -/
theorem test_writePiece :
    after (exec (.writePiece 0 [false]) (writing0 fun t => { t with rows := 1024, rowFails := [(5, 2)] }))
      (fun t => ((t.tileAt 0).fail, (t.tileAt 0).under.isSome, t.chk.log.map FaultRec.kind)) (false, true, []) = (true, false, [6]) := by
  decide +kernel

/-- A replacement of the layer, in BARRIER mode and cut over or not, with a fate. -/
def replacing (fate : Nat) (cut : Bool) (units : Tbl ReplUnit) : State :=
  let s := written .committed 1
  { s with models := [(0, { toyModel .replacing with
      pendB := some (toyBundle, [0, 0, 0])
      repl := some { spool := 1, seq := 4, newEpoch := 2, fate := fate, prewrite := false, mask := [0], pairs := [], cut := cut, units := units,
                     blocked := [] } })] }

/-- The same with an open session of the old epoch. -/
def withOld (s : State) : State := { s with sessions := [(3, toySess .idle)] }

theorem hyp_cutOver :
    let s := replacing 0 false []
    let t := withOld (replacing 0 false [])
    let u := withOld (replacing 2 false [])
    (((s.model 0).repl.any fun r => !r.cut && r.fate == 0 && oldSessions s 0 r == []) = true) ∧
    (((t.model 0).repl.any fun r => r.fate == 0 && oldSessions t 0 r == [3]) = true) ∧
    (((u.model 0).repl.any fun r => r.fate == 2 && !r.cut && oldSessions u 0 r == [3] && !unmapped u (u.model 0) r 3 && !r.prewrite &&
      r.mask == [0] && (r.units.find 0).map ReplUnit.switched == none) = true) := by decide +kernel

/-- A session with an old delta adapter that no pair maps blocks a KEEP; a PREWRITE waits for its mask; no replacement. -/
theorem hyp_cutOverWaits :
    let u := withOld (replacing 2 false [])
    let r : Repl := { spool := 1, seq := 4, newEpoch := 2, fate := 2, prewrite := true, mask := [0], pairs := [], cut := false,
                      units := [], blocked := [] }
    let p := { u with models := [(0, { toyModel .replacing with pendB := some (toyBundle, [0, 0, 0]), repl := some r })] }
    let d := { u with sessions := [(3, { toySess .idle with delta := some (adapterHandle 1 0 1) })]
                      adapters := [(adapterKey 1 0, { steerA with base := 1 })] }
    ((p.model 0).repl = some r ∧ prewritten p (p.model 0) r = false ∧ (oldSessions p 0 r).filter (unmapped p (p.model 0) r) = []) ∧
    ((d.model 0).repl.any (fun r => !r.cut && oldSessions d 0 r == [3] && unmapped d (d.model 0) r 3) = true) ∧
    ((withModel .committed).model 0).repl = none ∧ (u.model 0).units.find 9 = none ∧
    ((u.model 0).repl.any (fun r => (oldSessions u 0 r).Nodup && (r.units.find 0).isNone) = true) := by decide +kernel

theorem test_cutOver : after (exec (.cutOver 0) (withOld (replacing 2 false []))) (fun t => ((t.sess 3).epoch, (t.sess 3).mixed)) (0, false) =
      (2, true) ∧
    after (exec (.cutOver 0) (withOld (replacing 0 false []))) (fun t => (t.sess 3).epoch) 0 = 1 := by decide +kernel

/-- The layer's new copy in place, its tiles of epoch 2 written. -/
def newCopy : State := { replacing 0 true [(0, { barrier := true, first := 0, edge := 0, switched := false })] with arr := (written .committed 2).arr }

theorem hyp_replacing :
    let s := replacing 0 true []
    let t := replacing 0 false []
    let n := newCopy
    let x : ReplUnit := { barrier := true, first := 0, edge := 0, switched := false }
    ((s.model 0).repl.any (fun r => nextUnit s (s.model 0) r 0 == some 0 && r.cut && !oldBefore s 0 r 0) = true ∧
      ((s.model 0).units.find 0).map UnitPl.keel = some 0) ∧
    ((t.model 0).repl.any (fun r => nextUnit t (t.model 0) r 0 == some 0 && !r.cut) = true ∧ shadowRun t (t.model 0) 0 = some 8) ∧
    ((n.model 0).repl.any (fun r => r.units.find 0 == some x && r.cut && unitReady n (n.model 0) r 0 x && !oldBefore n 0 r 0) = true) := by
  decide +kernel

/-- The layer written into a shadow run, ready to switch; no run free; a record that is lost; and the end of a replacement. -/
theorem hyp_switching :
    let sh : ReplUnit := { barrier := false, first := 8, edge := 0, switched := false }
    let tiles := (unitTiles bare toyBundle 0 0 8).map fun w => (w.1, { Tile.init with holds := some (toySrc 0 w.2 2) })
    let n := { replacing 0 true [(0, sh)] with
      arr := { (written .committed 1).arr with
        tiles := (written .committed 1).arr.tiles ++ tiles
        panels := (written .committed 1).arr.panels ++ tiles.map fun w => (w.1 / 8, { Panel.init with cal := true }) } }
    let done := replacing 0 true [(0, { sh with switched := true })]
    let lost := replacing 0 true []
    ((n.model 0).repl.any (fun r => unitReady n (n.model 0) r 0 sh && r.cut && !oldBefore n 0 r 0) = true ∧
      (unitTiles n (n.model 0).bytes 0 0 0).length = 7 ∧ tiles.length = 7) ∧
    ((done.model 0).repl.any (fun r => r.cut && r.mask.all fun u => (r.units.find u).map ReplUnit.switched == some true) = true ∧
      (done.model 0).pendB = some (toyBundle, [0, 0, 0]) ∧ ((done.model 0).units.find 0).isSome = true) ∧
    ((n.model 0).repl.any (fun r => r.mask.any fun u => (r.units.find u).map ReplUnit.switched == some false) = true) ∧
    (recordLost { lost.model 0 with pendLost := [(0, 0)] } 2 0 0 = true ∧
      newTiles lost (lost.model 0) 0 { sh with first := 0 } = [(0, 0), (16384, 1), (32768, 2), (49152, 3), (8, 4), (16392, 5), (32776, 6)]) ∧
    shadowRun { lost with arr := { lost.arr with places := (List.range 4).map fun d => (d, [0, 1, 2]) } } (lost.model 0) 0 = none := by decide +kernel

theorem test_layerSwitched : after (exec (.layerSwitched 0 0) newCopy) (fun t => ((t.model 0).units.find 0).map UnitPl.epoch) none = some 2 := by
  decide +kernel
/-! The tick, supplies, heat, the ADC and the whole machine. -/

/-- TICK_EDGE: with an option, a divisor and a policy that wait; before ready; with a stop asked for. -/
theorem hyp_tickEdge :
    let s := fun p a => { ready with opts := { ready.opts with pend := p }, tick := { ready.tick with acts := a } }
    let t := s [(oCheckSatLimit, 255)] [.refresh 0x80000001 2]
    let u := s [] [.policy 65535 2]
    let v := { ready with supply := { ready.supply with stopping := true } }
    State.reset.boot.ready = false ∧
    (t.boot.ready = true ∧ t.supply.stopping = false ∧ t.tick.adopt = false ∧ t.tick.edges = 0 ∧ t.opts.pend = [(oCheckSatLimit, 255)] ∧
      oCheckSatLimit ≠ oTickRole ∧ oCheckSatLimit ≠ oTickInComp ∧ oCheckSatLimit ≠ oTickPeriod ∧
      t.tick.acts = [.refresh 0x80000001 2] ∧ maskBits 0x80000001 32 = [0, 31]) ∧
    u.tick.acts = [.policy 65535 2] ∧ ({ ready with tick := { ready.tick with edges := 1 } } : State).tick.edges ≠ 0 ∧
    (v.boot.ready = true ∧ v.supply.stopping = true) := by decide +kernel

/-- TICK_EDGE of a follower that locks with the master's count and without it, with TICK_CONFIG's role and compensation, and at the
last tick of the quota window and the first of the next. -/
theorem hyp_tickEdgeMore :
    let on := fun (t : Tick) => ({ ready with tick := t } : State)
    let x := ready.tick
    let a := on { x with role := 2, adopt := true, master := some 41 }
    let b := on { x with adopt := true }
    let c := on { x with acts := [.tickCfg 2 3] }
    let q := fun n => on { x with edges := n }
    let w := opt ready oQuotaWindow
    (a.tick.role = 2 ∧ a.tick.adopt = true ∧ a.tick.master = some 41) ∧ (b.tick.adopt = true ∧ b.tick.master = none) ∧
    c.tick.acts = [.tickCfg 2 3] ∧ ready.tick.role ≠ 2 ∧
    ((q (w - 1)).opts.pend = [] ∧ (q (w - 1)).tick.quotaEdge + w ≤ (q (w - 1)).tick.edges + 1) ∧
    (q (w - 2)).tick.edges + 1 < (q (w - 2)).tick.quotaEdge + w ∧ ready.boot.ready = true := by decide +kernel

/-- R165, R166: the count that a locking follower takes, and the clamp of its tick's change. -/
theorem test_followerEdge :
    after (exec (.tickEdge 170) { ready with tick := { ready.tick with role := 2, adopt := true, master := some 41 } })
      (fun t => (t.tick.count, t.tick.adjust, t.tick.adopt)) (0, 0, true) = (42, 100, false) := by decide +kernel

/-- R160: TICK_COUNT is 0 at the first edge after ready and counts from there. -/
theorem test_tickEdge :
    after (exec (.tickEdge 0) ready) (fun t => (t.tick.count, t.tick.edges)) (9, 0) = (0, 1) ∧
    after (exec (.tickEdge 0) { ready with tick := { ready.tick with edges := 1 } }) (fun t => (t.tick.count, t.tick.edges)) (9, 0) =
      (1, 2) := by decide +kernel

/-- An entry whose one item is done, and one whose item is not, at the decision of keel 0. -/
theorem hyp_sealQuota :
    let s := fun d => working (entryAt .decode [{ openOf 0 .layer with done := d }]) PosCtx.init
    ((s true).boot.ready = true ∧ 0 ∉ (s true).pipe.decided ∧ (s true).entry 7 = some (entryAt .decode [{ openOf 0 .layer with done := true }]) ∧
      entryStage (s true) (entryAt .decode [{ openOf 0 .layer with done := true }]) = some toyStage ∧ toyStage.keel = 0 ∧
      (entryAt .decode [{ openOf 0 .layer with done := true }]).items.all Item.done = true ∧
      handoffDone (s true) (entryAt .decode [{ openOf 0 .layer with done := true }]) toyStage = true ∧ stackStopped (s true) 0 = false) ∧
    ((entryAt .decode [{ openOf 0 .layer with done := false }]).items.all Item.done = false) ∧
    entryKeel (s true) (entryAt .decode [{ openOf 0 .layer with done := true }]) ≠ some 1 ∧
    ({ ready with pipe := { ready.pipe with decided := [7] } } : State).pipe.decided = [7] ∧
    ready.tick.edges < ready.tick.quotaEdge + opt ready oQuotaWindow := by decide +kernel

/-- A masked entry; one that dwells for an item not admitted; one that slips; a link end with nothing to send; blocks that wait for a
repeat and for a split; and the last tick of the quota window. -/
theorem hyp_sealMore :
    let on := fun (e : Entry) (b : BlockSt) => working e (ctx3 (blk3 b))
    let e := entryAt .decode [{ openOf 0 .layer with admitted := none }]
    let o := entryAt .decode [openOf 0 .layer]
    let m := { o with masked := true }
    ((on e .done).entry 7 = some e ∧ e.masked = false ∧ sealWhy (replaysToWide (on e .done) 0) e toyStage = .dwell) ∧
    ((on o .done).entry 7 = some o ∧ sealWhy (replaysToWide (on o .done) 0) o toyStage = .slip .overrun) ∧
    (sealWhy (replaysToWide (on o .needRepeat) 0) o toyStage = .slip .wide) ∧
    ((on m .done).entry 7 = some m ∧ m.masked = true) ∧ (on o .done).ends = [] ∧ ((on o .done).pipe.entries.map Entry.id).Nodup ∧
    (((on o .needRepeat).entry 7).bind (entryKeel (on o .needRepeat)) = some 0 ∧ (3 : Nat) < 2097152) ∧
    (let q := { ready with tick := { ready.tick with edges := opt ready oQuotaWindow } }
     q.tick.quotaEdge + opt q oQuotaWindow ≤ q.tick.edges) := by decide +kernel

theorem test_sealReplays :
    after (exec (.sealDecision 0) (working (entryAt .decode [openOf 0 .layer]) (ctx3 (blk3 (.needSplit true)))))
      (fun t => (t.ctxAt 7 3).blocks.map BlockWork.st) [] = [.wide 4] := by decide +kernel

theorem test_sealDecision :
    after (exec (.sealDecision 0) (working (entryAt .decode [{ openOf 0 .layer with done := true }]) PosCtx.init))
      (fun t => (t.entry 7).map Entry.sealing) none = some true := by decide +kernel

/-- TICK_EDGE with a stop asked for and with an NV pulse on; the word of a trip; and REFRESH_DIVISOR set alone. -/
theorem hyp_tickStop :
    let v := { ready with supply := { ready.supply with stopping := true } }
    let p := { v with boot := { v.boot with pulse := true } }
    let t := { v with nv := { v.nv with cause := .thermalTrip } }
    let o := { ready with opts := { ready.opts with pend := [(oRefreshDivisor, 3)] } }
    (v.boot.ready = true ∧ v.supply.stopping = true ∧ v.boot.pulse = false ∧ v.nv.cause ≠ .thermalTrip) ∧
    (p.boot.ready = true ∧ p.supply.stopping = true ∧ p.boot.pulse = true) ∧ t.nv.cause = .thermalTrip ∧
    (o.opts.pend = [(oRefreshDivisor, 3)] ∧ ∀ dies div, EdgeAct.refresh dies div ∉ o.tick.acts) :=
  ⟨by decide +kernel, by decide +kernel, rfl, rfl, fun _ _ h => nomatch h⟩

/-- R506, R536: the stop removes power at the edge and keeps the word of a trip. -/
theorem test_stopEdge :
    let v := { ready with supply := { ready.supply with stopping := true } }
    let cause := fun s => after (exec (.tickEdge 0) s) (fun t => (t.boot.powered, t.nv.cause)) (true, .none)
    cause v = (false, .brownout) ∧ cause { v with nv := { v.nv with cause := .thermalTrip } } = (false, .thermalTrip) := by decide +kernel

/-- Supplies in each condition of the statement. -/
theorem hyp_supplies :
    let on := fun u => ({ ready with supply := u } : State)
    let u := ready.supply
    let a := on { u with backup := false, backupGood := true }
    let b := on { u with backup := true, mainGood := true, timer := some 0 }
    let late := { b with tick := { b.tick with time := 250000000 } }
    let c := on { u with backup := false, backupGood := false }
    (a.boot.powered = true ∧ otherServes a = true ∧ a.supply.backup = false ∧ a.supply.backupGood = true) ∧
    (otherServes b = true ∧ b.supply.backup = true ∧ b.supply.mainGood = true ∧ returnDue b = false) ∧
    (late.supply.backup = true ∧ late.supply.mainGood = true ∧ returnDue late = true) ∧
    (otherServes c = false ∧ c.boot.ready = true) ∧
    (otherServes { State.reset with supply := c.supply } = false ∧ State.reset.boot.ready = false ∧ State.reset.boot.pulse = false ∧
      State.reset.boot.powered = true) ∧
    otherServes (on { u with backup := true, mainGood := false, mainAbove := false }) = false ∧
    otherServes (on { u with backup := true, mainGood := false, mainAbove := true }) = true := by decide +kernel

/-- Supplies of an unpowered module; on backup without a timer and before ready; with neither input able, during an NV pulse too; a
comparator that fails high, at 44 to 46 V and low; and the injections that SUPPLY_SWITCH makes, full and not. -/
theorem hyp_suppliesMore :
    let on := fun u => ({ ready with supply := u } : State)
    let u := ready.supply
    let off := { ready with boot := { ready.boot with powered := false } }
    let b := on { u with backup := true, mainGood := true, timer := none }
    let n := on { u with backup := false, backupGood := false }
    let p := { n with boot := { n.boot with ready := false, pulse := true } }
    off.boot.powered = false ∧ (b.supply.backup = true ∧ b.supply.mainGood = true ∧ returnDue b = false) ∧
    (n.supply.backup = false ∧ otherServes n = false) ∧ (otherServes p = false ∧ p.boot.ready = false ∧ p.boot.pulse = true) ∧
    returnDue { State.reset with supply := { u with timer := some 0 } } = true ∧
    ((u.fails false .low).mainAbove = false ∧ (u.fails false .sag).mainAbove = true ∧ (u.fails false .high).mainOv = true) ∧
    u.backup = false ∧ ready.adc.inject.length ≤ 2 := by decide +kernel

/-- R503: main returns 250 ms after its timer has started. -/
theorem test_supplyReturn :
    let b := { ready with supply := { ready.supply with backup := true, mainGood := true, timer := some 7 } }
    let on := fun n => after (exec .supplyReturn { b with tick := { b.tick with time := n } }) (fun t => t.supply.backup) true
    on 250000006 = true ∧ on 250000007 = false := by decide +kernel

theorem test_supplySwitch : after (exec (.supplySwitch true) { ready with supply := { ready.supply with backup := false, backupGood := true } })
    (fun t => (t.supply.backup, t.supply.mainGood, t.supply.mainOv, t.supply.switches)) (false, true, false, 0) = (true, false, true, 1) := by
  decide +kernel

/-- Sensors at 104.9375 and 105 °C; a diode at each bound of its range; CAP_UNMET one nanosecond early and on time; a stopped stack
after 1,023 and 1,024 calm edges. -/
theorem hyp_heat :
    let hot := fun n => { ready with thermal := { ready.thermal with diodes := [(40, { Sensor.init with temp := BitVec.ofInt 16 n })] } }
    let cap := fun n => { ready with tick := { ready.tick with capStep := 7, time := n }
                                     supply := { ready.supply with pAvg := opt ready oPowerCap + 1, capTime := 0, highSince := some 0 } }
    let stop := fun n => { ready with thermal := { ready.thermal with tripStop := 128, calm := [(7, n)] } }
    (ready.boot.pulse = false ∧ ready.supply.stopping = false ∧ 1680 ≤ ((hot 1680).thermal.diodes.get Sensor.init 40).temp.toInt ∧
      ((hot 1679).thermal.diodes.get Sensor.init 40).temp.toInt < 1680 ∧ ((hot 1679).thermal.therms.get Sensor.init 40).temp.toInt < 1680) ∧
    ((hot (-1)).thermal.diodes.get Sensor.init 40).temp.toInt = -1 ∧ ((hot 0).thermal.diodes.get Sensor.init 40).broken = false ∧
    ((cap 16000000).tick.capStep = 7 ∧ opt (cap 16000000) oPowerCap < (cap 16000000).supply.pAvg ∧ (cap 16000000).supply.unmet = false ∧
      (cap 16000000).supply.capTime + 16000000 ≤ (cap 16000000).tick.time ∧
      (cap 16000000).supply.highSince = some 0 ∧ ¬ 0 + 16000000 ≤ (cap 15999999).tick.time) ∧
    (ready.boot.powered = true ∧ ({ ready with boot := { ready.boot with pulse := true } } : State).boot.pulse = true ∧
      (({ ready with thermal := { ready.thermal with diodes := [(40, { Sensor.init with broken := true, run := 1 })] } } :
        State).thermal.diodes.get Sensor.init 40).run ≠ 0) ∧
    (stackStopped (stop 1024) 7 = true ∧ 1024 ≤ (stop 1024).thermal.calm.get 0 7 ∧ (∀ d ∈ stackDies 7, bothBroken (stop 1024) d = false)) ∧
    (stackStopped (stop 1023) 7 = true ∧ (stop 1023).thermal.calm.get 0 7 < 1024) := by decide +kernel

/-- R512: two bad readings in a row break a diode; 250 mV is a good one; the die read next is the one after, and 0 after 40. -/
theorem test_diodeReading :
    let at40 := fun (s : State) => { s with thermal := { s.thermal with turn := 40 } }
    let r := fun mv s => after (exec (.diodeReading mv 400) (at40 s)) id s
    let bad := fun (s : State) => (s.thermal.diodes.get Sensor.init 40).broken
    bad (r 249 ready) = false ∧ bad (r 851 (r 249 ready)) = true ∧ bad (r 249 (r 250 (r 249 ready))) = false ∧
    (r 249 ready).thermal.turn = 0 ∧ after (exec (.diodeReading 400 1) ready) (fun t => t.thermal.turn) 9 = 1 := by decide +kernel

theorem test_stackResume :
    let stop := fun n => { ready with thermal := { ready.thermal with tripStop := 128, calm := [(7, n)] } }
    after (exec (.stackResume 7) (stop 1024)) (fun t => stackStopped t 7) true = false ∧
    after (exec (.stackResume 7) (stop 1023)) (fun t => stackStopped t 7) false = true := by decide +kernel

/-- An ADC with limits 5 to 4,094 on the channel that its scan is at, with injections performed and waiting, with a sequence in its
last entry, and idle. -/
theorem hyp_adcRuns :
    let on := fun a => ({ ready with adc := a } : State)
    let a := ready.adc
    let lim := on { a with pos := 44, chans := [(44, { AdcChan.init with high := 4094, low := 5 })] }
    let inj := on { a with injecting := some (1, false), inject := [(2, true), (3, false), (4, false), (5, false)] }
    let run := on { a with seqn := [60], running := true, entry := 0, trigger := 1 }
    (lim.boot.powered = true ∧ lim.adc.openPass = false ∧ lim.adc.pos ≤ 44 ∧
      (lim.adc.chans.get AdcChan.init 44).high < min 4095 4095 ∧ ¬ (lim.adc.chans.get AdcChan.init 44).high < min 4094 4095) ∧
    (inj.adc.injecting = some (1, false) ∧ 4 ≤ inj.adc.inject.length ∧ a.injecting = none ∧ a.inject.length < 4) ∧
    (run.adc.injecting = none ∧ run.adc.running = true ∧ run.adc.next = none ∧ ¬ run.adc.entry + 1 < run.adc.seqn.length ∧
      run.adc.trigger = 1 ∧ run.adc.seqn ≠ []) ∧
    (ready.adc.injecting = none ∧ ready.adc.running = false ∧ ready.adc.seqn = [] ∧ ready.boot.ready = true) ∧
    ((0xBC#32).toNat / 128 % 2 = 1 ∧ (0xBC#32).toNat % 64 ≤ 60 ∧ (0xBC#32).toNat / 32768 % 2 = 0) := by decide +kernel

/-- An ADC of an unpowered module; the scan at an input voltage, at the current of the input in use and at its end; an open-wire pass of a
thermistor that passed its last, of one that failed it, and of a broken one; a descriptor that waits; and triggers of each source. -/
theorem hyp_adcMore :
    let on := fun a => ({ ready with adc := a } : State)
    let a := ready.adc
    let at_ := fun n => on { a with pos := n }
    let once := on { a with openPass := true, pos := 44, openRuns := [(44, 1)] }
    let next := on { a with seqn := [60], running := true, next := some seqGood }
    let pwm := on { a with trigger := 3, pwm := 2, seqn := [7] }
    ({ ready with boot := { ready.boot with powered := false } } : State).boot.powered = false ∧
    ((at_ 45).adc.pos = 45 ∧ (at_ 47).adc.pos = (if ready.supply.backup then 48 else 47) ∧ 60 ≤ (at_ 60).adc.pos) ∧
    (once.adc.openPass = true ∧ 1 ≤ once.adc.openRuns.get 0 44 ∧ (once.thermal.therms.get Sensor.init (thermInput 44)).broken = false ∧
      decide (0 + 1024 < 1025 ∨ 1025 + 1024 < 0) = true ∧ decide (0 + 1024 < 1024 ∨ 1024 + 1024 < 0) = false) ∧
    ready.adc.openRuns.get 0 44 = 0 ∧ (next.adc.injecting = none ∧ next.adc.running = true ∧ next.adc.next = some seqGood) ∧
    (pwm.adc.trigger = 3 ∧ pwm.adc.pwm = 2 ∧ pwm.adc.seqn ≠ [] ∧ pwm.adc.running = false) ∧
    ((0x8080#32).toNat / 32768 % 2 = 1 ∧ (0xBF#32).toNat % 64 = 63) := by decide +kernel

/-- An injection of the supply controller that brings the first of its record's voltages, one that brings the last, and none of its own. -/
theorem hyp_adcNotes :
    let first : SwitchNote := { input := 1, main := none, backup := none }
    let last : SwitchNote := { input := 1, main := some 4800, backup := none }
    (fillNote 45 4800 [first]).all (fun n => n.detail.isNone) = true ∧
    (fillNote 46 5000 [last]).filter (fun n => n.detail.isSome) = [{ last with backup := some 5000 }] ∧
    ({ last with backup := some 5000 } : SwitchNote).detail.isSome = true ∧
    (({ ready with adc := { ready.adc with injecting := some (46, true) } } : State).adc.injecting = some (46, true)) := by decide +kernel

/-- R513, R525: a second open-wire pass with codes more than 1,024 apart breaks the thermistor. -/
theorem test_openWire :
    let s := { ready with adc := { ready.adc with openPass := true, pos := 44, openRuns := [(44, 1)] } }
    let broken := fun up => after (exec (.scanConversion up 0) s) (fun t => (t.thermal.therms.get Sensor.init (thermInput 44)).broken) true
    broken 1024 = false ∧ broken 1025 = true := by decide +kernel

theorem test_scanConversion :
    let s := { ready with adc := { ready.adc with pos := 44, chans := [(44, { AdcChan.init with high := 4094 })] } }
    let hit := fun c => after (exec (.scanConversion c 0) s) (fun t => ((t.adc.chans.get AdcChan.init 44).highHit, t.supply.alert)) (true, 0)
    hit 4094 = (false, ready.supply.alert) ∧ (hit 4095).1 = true ∧ (hit 4095).2.getLsbD 8 = true := by decide +kernel

/-- R524: channel 60 ends the scan, and the 16th scan brings the open-wire pass. -/
theorem test_scanOrder :
    let at_ := fun n r => after (exec (.scanConversion 9 0) { ready with adc := { ready.adc with pos := n, round := r } })
      (fun t => (t.adc.pos, t.adc.scans, t.adc.openPass)) (9, 9, false)
    at_ 59 15 = (60, 0, false) ∧ at_ 60 14 = (0, 1, false) ∧ at_ 60 15 = (0, 1, true) := by decide +kernel

theorem test_adcConversion :
    after (exec (.adcConversion 7) { ready with adc := { ready.adc with injecting := some (9, false), inject := [(3, false)] } })
      (fun t => (t.adc.injecting, t.adc.inject, (t.adc.chans.get AdcChan.init 9).code)) (none, [], 0) = (some (3, false), [], 7) := by
  decide +kernel

/-- A step with a command at the front, idle, and with an ill-formed command. -/
theorem hyp_steps :
    let s := { ready with pending := [.nop (hdr noHandle), .nop (hdr noHandle)] }
    (s.pending = .nop (hdr noHandle) :: [.nop (hdr noHandle)] ∧ outcome (step s) = 0) ∧ ready.pending = [] ∧
    (Instr.laneFault 36 0).wf = false ∧
    (s.kv.dram.wf = true ∧ s.bus.host.wf = true ∧ s.boot.buffer.wf = true) ∧
    ((s.spool 2).st = .closed ∧ (s.spool 0).st = .opened ∧
      (({ s with spools := [(2, { open1 with st := .orphaned })] } : State).spool 2).st = .orphaned) := by decide +kernel

theorem test_step_nop :
    after (step { ready with pending := [.nop (hdr noHandle), .nop (hdr noHandle)] }) (fun t => (t.pending.length, lastRec t 1)) (9, none) =
      (1, some (0, 0, [])) ∧
    step ready = .next ready ∧ step { ready with pending := [.laneFault 36 0] } = .next ready := by
  refine ⟨by decide +kernel, rfl, rfl⟩

/-- No word spells a command. -/
theorem test_words (n w : Nat) (s : State) : decodeTableWord n w = none ∧ s.withFetchWord n w = s := ⟨rfl, rfl⟩
/-! An option image that passes, the host-loaded and the written one. -/

/-- MAGIC and VERSION, then zeros to SIGNATURE; the thermal block, ALERT_ENABLE 0 and a policy that allows unsigned images. -/
def imageHead : List Byte := [0x48, 0x59, 0x53, 0x4B, 0x41, 0x4F, 0x50, 0x54, 1, 0] ++ zeros 78
def imageBody : List Byte := (thermalGood ++ zeros 224) ++ ([1, 0, 0, 0] ++ zeros 12)

/-- The bytes that bring the running check value to 0 after each. -/
def imageFix1 : List Byte := toLe 4 0xFE2B6D9D
def imageFix2 : List Byte := toLe 4 0x99DB48F8

/-- The image: the fixing bytes stand in SIGNATURE and in an unused key, so the CRC is that of a register at 0. -/
def imageFront : List Byte := (imageHead ++ imageFix1) ++ zeros 12452
def imageRest : List Byte := (imageBody ++ imageFix2) ++ (zeros 52712 ++ List.replicate 4 0xFF)
def imageGood : List Byte := imageFront ++ imageRest

theorem zeros_length (n : Nat) : (zeros n).length = n := List.length_replicate

theorem front_length : imageFront.length = 12544 := by
  have a : (imageHead ++ imageFix1).length = 92 := by decide +kernel
  unfold imageFront
  rw [List.length_append, a, zeros_length]

theorem rest_length : imageRest.length = 52992 := by
  have a : (imageBody ++ imageFix2).length = 276 := by decide +kernel
  have b : (zeros 52712 ++ List.replicate 4 (0xFF : Byte)).length = 52716 := by rw [List.length_append, zeros_length, List.length_replicate]
  unfold imageRest
  rw [List.length_append (as := imageBody ++ imageFix2), a, b]

theorem image_length : imageGood.length = 65536 := by
  unfold imageGood
  rw [List.length_append, front_length, rest_length]

/-- A field past the front is a field of the rest. -/
theorem image_le (k n : Nat) : le imageGood (12544 + k) n = le imageRest k n := by
  unfold le imageGood
  rw [← front_length, drop_past]

theorem image_slice (k n : Nat) : slice imageGood (12544 + k) n = slice imageRest k n := by
  unfold slice imageGood
  rw [← front_length, drop_past]

theorem zeros_drop (m k : Nat) : (zeros (m + k)).drop m = zeros k := by
  unfold zeros
  rw [List.drop_replicate, Nat.add_sub_cancel_left]

theorem zeroAt_zeros (a b : List Byte) (m k n : Nat) : zeroAt (a ++ (zeros (m + (n + k)) ++ b)) (a.length + m) n = true := by
  have z : zeros (n + k) = zeros n ++ zeros k := by simp [zeros]
  have e : (zeros (m + (n + k)) ++ b).drop m = zeros n ++ (zeros k ++ b) := by
    rw [List.drop_append_of_le_length (by rw [zeros_length]; omega), zeros_drop, z, List.append_assoc]
  unfold zeroAt slice
  rw [drop_past, e, List.take_left' (zeros_length n)]
  unfold zeros
  rw [List.all_eq_true]
  intro x hx
  rw [(List.mem_replicate.mp hx).2]
  decide

theorem image_zero1 : zeroAt imageGood 256 12288 = true := by
  have a : (imageHead ++ imageFix1).length = 92 := by decide +kernel
  have h := zeroAt_zeros (imageHead ++ imageFix1) imageRest 164 0 12288
  rw [a, Nat.add_zero] at h
  unfold imageGood imageFront
  rw [List.append_assoc]
  exact h

theorem image_zero2 : zeroAt imageGood 14400 51132 = true := by
  have a : (imageBody ++ imageFix2).length = 276 := by decide +kernel
  have h := zeroAt_zeros (imageBody ++ imageFix2) (List.replicate 4 0xFF) 1580 0 51132
  rw [a, Nat.add_zero] at h
  have e : zeroAt imageGood (12544 + 1856) 51132 = zeroAt imageRest 1856 51132 := by
    unfold zeroAt
    rw [image_slice]
  exact e.trans h

/-- A running check value with its number computed at each byte. -/
def feedNat : List Byte → Nat → Nat
  | [], r => r
  | b :: bs, r => match (crcByte .crc32c (BitVec.ofNat 64 r) b).toNat with
    | 0 => feedNat bs 0
    | n + 1 => feedNat bs (n + 1)

theorem feedNat_eq (bs : List Byte) : ∀ r : W64, crcFeed .crc32c r bs = BitVec.ofNat 64 (feedNat bs r.toNat) := by
  induction bs with
  | nil => intro r; simp [crcFeed, feedNat]
  | cons b bs ih =>
    intro r
    have e : feedNat (b :: bs) r.toNat = feedNat bs (crcByte .crc32c r b).toNat := by
      rw [feedNat.eq_2, BitVec.ofNat_toNat, BitVec.setWidth_eq]
      split <;> simp_all
    rw [e, ← ih]
    rfl

theorem image_crc : crc32c (imageGood.take 65532) = 0xFFFFFFFF := by
  have t : imageGood.take 65532 = imageHead ++ imageFix1 ++ zeros 12452 ++ (thermalGood ++ zeros 224) ++ ([1, 0, 0, 0] ++ zeros 12) ++ imageFix2 ++ zeros 52712 := by
    have e : imageGood = (imageHead ++ imageFix1 ++ zeros 12452 ++ (thermalGood ++ zeros 224) ++ ([1, 0, 0, 0] ++ zeros 12) ++ imageFix2 ++ zeros 52712) ++
        List.replicate 4 0xFF := by
      simp only [imageGood, imageFront, imageRest, imageBody, List.append_assoc]
    rw [e]
    apply List.take_left'
    have l := image_length
    rw [e, List.length_append, List.length_replicate] at l
    omega
  have a : crcFeed .crc32c (crcInit .crc32c) (imageHead ++ imageFix1) = 0 := by
    rw [feedNat_eq]
    decide +kernel
  have b : crcFeed .crc32c 0 (thermalGood ++ zeros 224 ++ ([1, 0, 0, 0] ++ zeros 12) ++ imageFix2) = 0 := by
    rw [feedNat_eq]
    decide +kernel
  have z1 := crcFeed_zeros 12452
  have z2 := crcFeed_zeros 52712
  have f : crcFeed .crc32c (crcInit .crc32c) (imageGood.take 65532) = 0 := by
    rw [t]
    unfold crcFeed at *
    simp only [List.foldl_append] at *
    rw [a, z1, b, z2]
  unfold crc32c crc
  rw [f]
  decide

theorem image_status (part : Part) (h : part.signedOnly = false) : imageStatus part imageGood = 0 := by
  have crc : le imageGood 65532 4 = 0xFFFFFFFF := by
    have e : le imageGood (12544 + 52988) 4 = le imageRest 52988 4 := image_le 52988 4
    have m : (imageBody ++ imageFix2).length + 52712 = 52988 := by
      have a : (imageBody ++ imageFix2).length = 276 := by decide +kernel
      rw [a]
    have f : le imageRest 52988 4 = le (List.replicate 4 (0xFF : Byte)) 0 4 := by
      have d := drop_past (zeros 52712) (List.replicate 4 (0xFF : Byte)) 0
      rw [zeros_length] at d
      unfold le imageRest
      rw [← m, drop_past]
      exact congrArg (leFront · 4) d
    have g : le (List.replicate 4 (0xFF : Byte)) 0 4 = 0xFFFFFFFF := by decide
    rw [show (65532 : Nat) = 12544 + 52988 from rfl, e, f, g]
  have pol : imgPolicy imageGood = slice imageRest 256 1600 := image_slice 256 1600
  have th : slice imageGood 12544 32 = slice imageRest 0 32 := image_slice 0 32
  have al : le imageGood 12576 4 = le imageRest 32 4 := image_le 32 4
  have az : zeroAt imageGood 12580 220 = zeroAt imageRest 36 220 := by
    unfold zeroAt
    rw [show (12580 : Nat) = 12544 + 36 from rfl, image_slice]
  have en : imgEntries imageGood = 0 := by decide +kernel
  have eo : entriesOk imageGood = true := by
    unfold entriesOk
    rw [en]
    rfl
  have lay : imageLayoutOk imageGood = true := by
    unfold imageLayoutOk
    rw [image_length, en, image_zero2, crc, image_crc, eo, pol, th, al, az]
    simp only [Nat.mul_zero, Nat.add_zero, Nat.sub_zero, image_zero1]
    decide +kernel
  have sg : imgSigned imageGood = false := by decide +kernel
  have fl : bitOf (polFlags (imgPolicy imageGood)) 0 = true := by
    rw [pol]
    decide +kernel
  unfold imageStatus
  rw [lay, sg, fl, h]
  rfl

/-- IMAGE_WRITE of it is accepted. -/
theorem hyp_imageWrite_good :
    let c := hdrIo 5 noHandle (some imageGood)
    Starts (.imageWrite c 0 1) c ready ∧ ready.boot.imgJob = none ∧ imageAccepted ready (imageGood.take 65536) = true := by
  refine ⟨starts_io rfl (by decide +kernel), rfl, ?_⟩
  rw [List.take_of_length_le (Nat.le_of_eq image_length)]
  have a : polMin (policy ready) = 0 := by decide +kernel
  have b : bitOf (policyFlags ready) 0 = true := by decide +kernel
  have sg : imgSigned imageGood = false := by decide +kernel
  unfold imageAccepted
  dsimp only
  rw [image_status _ rfl, a, sg, b]
  simp

theorem host_ok (b : List Byte) (s : State) (h : imageStatus s.nv.part b = 0) (n : (chooseCopy s.nv false).2.2.2 = none) :
    hostImageStatus s b = 0 := by
  unfold hostImageStatus
  rw [h, n]
  rfl

/-- IMAGE_GO with an empty buffer, and with an image in it. -/
def bufferOf (b : List Byte) : State := { waitImage with boot := { waitImage.boot with buffer := Mem.writeBytes [] 0 b } }

theorem buffer_reads (b : List Byte) (n : Nat) (h : b.length = n) : (bufferOf b).boot.buffer.readBytes 0 n = b := by
  subst h
  exact Mem.readBytes_writeBytes b [] 0 (by decide)

theorem hyp_imageGo :
    (waitImage.boot.waitImage = true ∧ sidebandControl waitImage = true ∧
      hostImageStatus waitImage (waitImage.boot.buffer.readBytes 0 65536) ≠ 0) ∧
    ((bufferOf imageGood).boot.waitImage = true ∧ sidebandControl (bufferOf imageGood) = true ∧
      hostImageStatus (bufferOf imageGood) ((bufferOf imageGood).boot.buffer.readBytes 0 65536) = 0) := by
  refine ⟨⟨by decide +kernel, by decide +kernel, ?_⟩, by decide +kernel, by decide +kernel, ?_⟩
  · have e : waitImage.boot.buffer.readBytes 0 65536 = zeros 65536 := by
      show (List.range 65536).map (fun _ => (0 : Byte)) = zeros 65536
      rw [List.map_const', List.length_range]
      rfl
    have m : imageLayoutOk (zeros 65536) = false := by
      have t : ((zeros 65536).take 8 == [0x48, 0x59, 0x53, 0x4B, 0x41, 0x4F, 0x50, 0x54]) = false := by decide +kernel
      unfold imageLayoutOk
      rw [t]
      simp only [Bool.and_false, Bool.false_and]
    rw [e]
    unfold hostImageStatus imageStatus
    rw [m]
    decide
  · rw [buffer_reads imageGood 65536 image_length]
    exact host_ok imageGood _ (image_status _ rfl) (by decide +kernel)
/-! A key-value stream of one frame. -/

/-- The session that it is imported into, its header, its one frame record, and the stream. -/
def importing : Session := { toySess .idle with length := 0, history := [], runs := [(0, (0, 0))], importing := true }
def streamHead : List Byte := exportHeader (toyModel .committed) { importing with length := 3 }
def recordHead : List Byte := [0, 0, 3, 0] ++ zeros 8 ++ List.replicate 4 0xFF
def recordBody : List Byte := List.replicate 4 0xFF ++ zeros 65596
def streamRecord : List Byte := recordHead ++ recordBody
def streamOne : List Byte := streamHead ++ streamRecord

theorem streamHead_length : streamHead.length = 72 := by decide +kernel

theorem recordBody_length : recordBody.length = 65600 := by
  unfold recordBody
  rw [List.length_append, List.length_replicate, zeros_length]

theorem streamRecord_length : streamRecord.length = 65616 := by
  have a : recordHead.length = 16 := by decide +kernel
  unfold streamRecord
  rw [List.length_append, a, recordBody_length]

theorem streamOne_length : streamOne.length = 65688 := by
  unfold streamOne
  rw [List.length_append, streamHead_length, streamRecord_length]

theorem streamOne_record : slice streamOne 72 65616 = streamRecord := by
  unfold slice streamOne
  rw [List.drop_left' streamHead_length, List.take_of_length_le (Nat.le_of_eq streamRecord_length)]

theorem recordBody_crc : crc32c recordBody = 0xFFFFFFFF := by
  have a : crcFeed .crc32c (crcInit .crc32c) (List.replicate 4 0xFF) = 0 := by decide +kernel
  have z := crcFeed_zeros 65596
  unfold crc32c crc recordBody
  unfold crcFeed at *
  rw [List.foldl_append, a, z]
  decide

/-- The stream passes its checks. -/
theorem streamOne_ok : checkStream (toyModel .committed) 16 streamOne = none := by
  have n : bLayers (toyModel .committed).bytes = 1 := by decide +kernel
  have l : le streamOne 4 4 = 3 := by decide +kernel
  have w : exportList (toyModel .committed) 3 = [((0, 0), 0, 3)] := by decide +kernel
  have t : (slice streamOne 64 8 == (List.range 1).flatMap (layerEntry (toyModel .committed))) = true := by decide +kernel
  have h : (le streamOne 0 2 == 1 && le streamOne 2 2 == 1 && zeroAt streamOne 8 6 && zeroAt streamOne 16 44 &&
    le streamOne 60 4 == crc32c (streamOne.take 60 ++ slice streamOne 64 8)) = true := by decide +kernel
  have r : (byteAt streamRecord 0 == 0 && zeroAt streamRecord 1 1 && le streamRecord 2 2 == 3 && le streamRecord 4 4 == 0 &&
    zeroAt streamRecord 8 4 && le streamRecord 12 4 == 0xFFFFFFFF) = true := by decide +kernel
  have d : streamRecord.drop 16 = recordBody := List.drop_left' (by decide +kernel)
  have c : (le streamRecord 12 4 == crc32c (streamRecord.drop 16)) = true := by
    rw [d, recordBody_crc]
    decide +kernel
  unfold checkStream
  simp only [n, l, w, Nat.mul_one, h, t, streamOne_length, List.length_singleton, Nat.reduceAdd]
  simp only [Bool.not_true, Bool.false_eq_true, if_false, Bool.false_or, bne_self_eq_false]
  simp only [Bool.and_eq_true] at r
  obtain ⟨⟨⟨⟨⟨r0, r1⟩, r2⟩, r3⟩, r4⟩, _⟩ := r
  simp [List.range_succ, streamOne_record, r1, r4, c]
  simp at r0 r2 r3
  simp [r0, r2, r3]

/-- KV_IMPORT of three positions into a session whose page list has room. -/
theorem hyp_kvImportFrame :
    let m := toyModel .committed
    let o : OutCmd := { (atWork (.kvImport 3 streamOne noHandle)) with
      instr := .kvImport { sHdr none with seq := 4 } 64 65688 noHandle }
    let s := { withSession importing with spools := [(1, { open1 with out := [o] })] }
    findOut s 1 4 = some o ∧ s.bus.viral = false ∧ (s.sess 3).importing = true ∧ s.model (modelOf (s.sess 3)) = m ∧
    checkStream m (s.sess 3).maxCtx streamOne = none ∧
    (List.range 8).any (fun k => decide (freeFrames s k < needOn (needsOf s m importing.runs 0 (le streamOne 4 4)) k)) = false ∧
    layersHere m = [(0, 0)] ∧ 0 < le streamOne 4 4 ∧ le streamOne 4 4 ≤ layerPpf m 0 ∧
    (s.page (pageAt importing.runs (0, 0) 0)).valid = false ∧ s.kv.dram.wf = true := by
  refine ⟨?_, by decide +kernel, by decide +kernel, by decide +kernel, streamOne_ok, by decide +kernel, by decide +kernel, by decide +kernel,
    by decide +kernel, by decide +kernel, by decide +kernel⟩
  rfl
end Sys2Proof.Tests
end

section
/-!
SUPPORT. What steps leave of NV flash: it changes with an IMAGE_WRITE, with the NV cause word of power cuts, trips and bring-up, and
nowhere else; and no change reaches the facts of the factory. One lemma for each function on the way from `step`.
-/
namespace Sys2Proof.Machine

variable (s : State)

/-! What folds and branches keep. -/

/-- A fold keeps what each of its steps keeps. -/
theorem foldl_keeps {σ α β : Type} (g : σ → β) {f : σ → α → σ} (h : ∀ s x, g (f s x) = g s) (l : List α) (s : σ) :
    g (l.foldl f s) = g s := by
  induction l generalizing s with
  | nil => rfl
  | cons x r ih => rw [List.foldl_cons, ih, h]

@[simp] theorem foldl_nv {α : Type} {f : State → α → State} (h : ∀ s x, (f s x).nv = s.nv) (l : List α) (s : State) :
    (l.foldl f s).nv = s.nv := foldl_keeps State.nv h l s

@[simp] theorem State.nv_ite (p : Prop) [Decidable p] (a b : State) :
    (if p then a else b).nv = if p then a.nv else b.nv := apply_ite State.nv p a b

@[simp] theorem fst_nv_ite {α : Type} (p : Prop) [Decidable p] (a b : State × α) :
    (if p then a else b).1.nv = if p then a.1.nv else b.1.nv := apply_ite (fun x => x.1.nv) p a b

theorem OnlySpools.nv {s t : State} (h : OnlySpools s t) : t.nv = s.nv := by rw [h]

/-! What the factory wrote. -/

/-- NV flash without what the module itself writes: the user copies of the option image and the NV cause word. -/
def Nv.factory (n : Nv) : Nv := { n with copyA := .blank, copyB := .blank, cause := .none }

theorem Nv.factory_eq_iff {m n : Nv} : m.factory = n.factory ↔
    m.part = n.part ∧ m.stepMajor = n.stepMajor ∧ m.stepMinor = n.stepMinor ∧ m.serial = n.serial ∧ m.spares = n.spares := by
  simp [Nv.factory]

@[simp] theorem Nv.factory_copyA (n : Nv) (x : NvCopy) : { n with copyA := x }.factory = n.factory := rfl
@[simp] theorem Nv.factory_copyB (n : Nv) (x : NvCopy) : { n with copyB := x }.factory = n.factory := rfl
@[simp] theorem Nv.factory_cause (n : Nv) (x : NvCause) : { n with cause := x }.factory = n.factory := rfl

@[simp] theorem Nv.factory_ite (p : Prop) [Decidable p] (a b : Nv) :
    (if p then a else b).factory = if p then a.factory else b.factory := apply_ite Nv.factory p a b

/-! Records, events, counters, and the start and end of a command. -/

@[simp] theorem atEdge_nv (l) : (atEdge s l).nv = s.nv := rfl
@[simp] theorem pushDue_nv (p r sig closes) : (pushDue s p r sig closes).nv = s.nv := rfl
@[simp] theorem event_nv (p num h res) : (event s p num h res).nv = s.nv := (event_only ..).nv
@[simp] theorem event0_nv (num res) : (event0 s num res).nv = s.nv := by simp [event0]
@[simp] theorem faultRecord_nv (kind src rec loc se po d) : (faultRecord s kind src rec loc se po d).nv = s.nv :=
  State.onChk_nv ..
@[simp] theorem faultRec_nv (kind source location detail) : (faultRec s kind source location detail).nv = s.nv := by
  simp [faultRec]
@[simp] theorem onOut_nv (p seq f) : (onOut s p seq f).nv = s.nv := rfl
@[simp] theorem finishRaw_nv (p seq code res closes) : (finishRaw s p seq code res closes).1.nv = s.nv :=
  (finishRaw_only ..).nv
@[simp] theorem updateCounter_nv (u) : (updateCounter s u).nv = s.nv := (updateCounter_only ..).nv
@[simp] theorem sendSignal_nv (sig) : (sendSignal s sig).nv = s.nv := (sendSignal_only ..).nv
@[simp] theorem finish_nv (p seq code res) : (finish s p seq code res).nv = s.nv := (finish_only ..).nv
@[simp] theorem reply_nv (c r) : (reply s c r).nv = s.nv := (reply_only ..).nv
@[simp] theorem moveRefs_nv (f) : (moveRefs s f).nv = s.nv := rfl
@[simp] theorem makeRoom_nv (p seq) : (makeRoom s p seq).nv = s.nv := by simp [makeRoom]
@[simp] theorem ensureOut_nv (c op i) : (ensureOut s c op i).nv = s.nv := by
  unfold ensureOut
  split <;> simp
@[simp] theorem refuseFetch_nv (p slot op seq handle code sig) :
    (refuseFetch s p slot op seq handle code sig).nv = s.nv := rfl
theorem startCommand_keeps {β : Type} (g : Nv → β) {body : State → State × Reply} (h : ∀ u, g (body u).1.nv = g u.nv)
    (i c op) : g (startCommand i c op body s).nv = g s.nv := by simp [startCommand, h]
@[simp] theorem holdCommand_nv (i c op) : (holdCommand i c op s).nv = s.nv := by simp [holdCommand]
theorem hostCommand_keeps {β : Type} (g : Nv → β) {body : State → State × Reply} (h : ∀ u, g (body u).1.nv = g u.nv)
    (i c op pr) : g (hostCommand i c op pr body s).nv = g s.nv := by
  unfold hostCommand
  repeat' split
  all_goals simp [startCommand_keeps s g h]

@[simp] theorem hostCommand_nv {body : State → State × Reply} (h : ∀ u, (body u).1.nv = u.nv) (i c op pr) :
    (hostCommand i c op pr body s).nv = s.nv := hostCommand_keeps s id h i c op pr

/-! Frames on the links. -/

@[simp] theorem pump_nv (k) : (pump s k).nv = s.nv := by simp [pump]
@[simp] theorem queueFrame_nv (k f) : (queueFrame s k f).nv = s.nv := by simp [queueFrame]
@[simp] theorem sendChain_nv (l cls p) : (sendChain s l cls p).nv = s.nv := by simp [sendChain]
@[simp] theorem sendBridle_nv (src dest cls p) : (sendBridle s src dest cls p).nv = s.nv := by
  unfold sendBridle
  split <;> simp
@[simp] theorem sendBulk_nv (src dest b) : (sendBulk s src dest b).nv = s.nv := by simp [sendBulk]
@[simp] theorem sendVia_nv (src l dest cls p) : (sendVia s src l dest cls p).nv = s.nv := by simp [sendVia]
@[simp] theorem sendModule_nv (src dest cls p) : (sendModule s src dest cls p).nv = s.nv := by simp [sendModule]
@[simp] theorem tellModules_nv (but c) : (tellModules s but c).nv = s.nv := by simp [tellModules]
@[simp] theorem resend_nv (k) : (resend s k).nv = s.nv := rfl
@[simp] theorem sendAck_nv (k) : (sendAck s k).nv = s.nv := by simp [sendAck]

/-! Device commands. -/

@[simp] theorem hostWrite_nv (a b) : (hostWrite s a b).nv = s.nv := by simp [hostWrite]
@[simp] theorem writeBack_nv (ls back) : (writeBack s ls back).nv = s.nv := foldl_nv (by intros; rfl) ..
@[simp] theorem takeLines_nv (w n back) : (takeLines s w n back).nv = s.nv := by simp [takeLines]
theorem bufRead_nv {s c a n b t} (h : bufRead s c a n = some (b, t)) : t.nv = s.nv := by
  unfold bufRead at h
  split at h
  · obtain rfl : _ = t := congrArg Prod.snd (Option.some.inj h)
    simp only [takeLines_nv]
  · obtain ⟨_, -, e⟩ := Option.map_eq_some_iff.mp h
    obtain rfl : s = t := congrArg Prod.snd e
    rfl
@[simp] theorem bufWrite_nv (io a b) : (bufWrite s io a b).nv = s.nv := by
  unfold bufWrite
  split <;> simp
@[simp] theorem outputTo_nv (c a b res) : (outputTo s c a b res).1.nv = s.nv := by simp [outputTo]
@[simp] theorem runNop_nv (c) : (runNop c s).nv = s.nv := by simp [runNop]
@[simp] theorem runIdentify_nv (c addr) : (runIdentify c addr s).nv = s.nv := by simp [runIdentify]
@[simp] theorem runGetStatus_nv (c) : (runGetStatus c s).nv = s.nv := by simp [runGetStatus]
@[simp] theorem runSetOption_nv (c o v) : (runSetOption c o v s).nv = s.nv := by simp [runSetOption]
@[simp] theorem runGetOption_nv (c o src) : (runGetOption c o src s).nv = s.nv := by simp [runGetOption]
@[simp] theorem runSyncSignal_nv (c n o v) : (runSyncSignal c n o v s).nv = s.nv := by simp [runSyncSignal]
@[simp] theorem runSyncWait_nv (c n rel timeout target) : (runSyncWait c n rel timeout target s).nv = s.nv := by
  simp [runSyncWait]
@[simp] theorem syncWaitTimeout_nv (p seq) : (syncWaitTimeout p seq s).nv = s.nv := by
  unfold syncWaitTimeout
  split <;> simp
@[simp] theorem runKeepalive_nv (c) : (runKeepalive c s).nv = s.nv := by simp [runKeepalive]
@[simp] theorem runSpoolOpen_nv (c sqB cqB sqO cqO first q) : (runSpoolOpen c sqB cqB sqO cqO first q s).nv = s.nv := by
  unfold runSpoolOpen
  split <;> simp

/-! Frames, pages and buffers of the key-value store. -/

@[simp] theorem State.onFrame_nv (key f) : (State.onFrame s key f).nv = s.nv := rfl
@[simp] theorem State.setPage_nv (key e) : (State.setPage s key e).nv = s.nv := rfl
theorem takeFrame_nv {s k f t} (h : takeFrame s k = some (f, t)) : t.nv = s.nv := by
  unfold takeFrame at h
  split at h <;> grind [State.onKv_nv]
@[simp] theorem dropRef_nv (key) : (dropRef s key).nv = s.nv := by simp [dropRef]
@[simp] theorem addRef_nv (key) : (addRef s key).nv = s.nv := rfl
@[simp] theorem returnFrames_nv : (returnFrames s).nv = s.nv := by simp [returnFrames]
theorem allocRuns_nv {s m ctx r t} (h : allocRuns s m ctx = some (r, t)) : t.nv = s.nv := by
  suffices keeps : ∀ x : Tbl (Nat × Nat) × State, allocRuns s m ctx = some x → x.2.nv = s.nv from keeps _ h
  refine List.foldlRecOn (motive := fun acc => ∀ x : Tbl (Nat × Nat) × State, acc = some x → x.2.nv = s.nv) _ _
    (by simp) fun acc ih lk _ x hx => ?_
  split at hx
  · cases hx
  next t u =>
    have keeps : u.nv = s.nv := ih (t, u) rfl
    dsimp only at hx
    split at hx
    · cases hx
    · cases hx; exact keeps
@[simp] theorem freeRunsOf_nv (m runs) : (freeRunsOf s m runs).nv = s.nv := by
  refine foldl_nv (fun s lk => ?_) ..
  split <;> rfl
@[simp] theorem abandonCopy_nv (key) : (abandonCopy s key).nv = s.nv := by simp [abandonCopy]
@[simp] theorem clearPage_nv (key) : (clearPage s key).nv = s.nv := by simp [clearPage]
@[simp] theorem clearFrom_nv (runs lk idx) : (clearFrom s runs lk idx).nv = s.nv := by simp [clearFrom]
@[simp] theorem truncPages_nv (m runs n) : (truncPages s m runs n).nv = s.nv := by simp [truncPages]
@[simp] theorem truncSession_nv (i n) : (truncSession s i n).nv = s.nv := by
  unfold truncSession
  dsimp only
  split <;> simp
@[simp] theorem sharePages_nv (m src dst n) : (sharePages s m src dst n).nv = s.nv := by simp [sharePages]
@[simp] theorem clearTail_nv (m l key) : (clearTail s m l key).nv = s.nv := rfl
@[simp] theorem reserveOne_nv (owner epoch m runs n) : (reserveOne s owner epoch m runs n).nv = s.nv := by
  unfold reserveOne
  split
  · rfl
  next h => simp [takeFrame_nv h]
@[simp] theorem reserveAll_nv (owner epoch m runs l) : (reserveAll s owner epoch m runs l).nv = s.nv := by
  simp [reserveAll]
@[simp] theorem returnReserved_nv (sess reserved others) : (returnReserved s sess reserved others).nv = s.nv := by
  simp [returnReserved]
@[simp] theorem doCopy_nv (sess draft l idx) : (doCopy s sess draft l idx).nv = s.nv := by
  unfold doCopy
  dsimp only
  split <;> simp
@[simp] theorem importFrame_nv (m runs x r) : (importFrame s m runs x r).nv = s.nv := by simp [importFrame]

/-! Session commands. -/

@[simp] theorem endRun_nv (i code stop) : (endRun s i code stop).nv = s.nv := by
  unfold endRun
  dsimp only
  split <;> simp
theorem allocSession_nv {s m draft ctx r d t} (h : allocSession s m draft ctx = some (r, d, t)) : t.nv = s.nv := by
  unfold allocSession at h
  split at h
  · cases h
  next _ _ e =>
    split at h
    · cases h; exact allocRuns_nv e
    · split at h
      · cases h
      next _ _ f => cases h; rw [allocRuns_nv f, allocRuns_nv e]
@[simp] theorem runSessionOpen_nv (c maxCtx steer delta e) : (runSessionOpen c maxCtx steer delta e s).nv = s.nv := by
  refine hostCommand_nv s (fun s => ?_) ..
  dsimp only
  split
  · rfl
  · generalize firstCode _ = code
    split
    · rfl
    · split
      · rfl
      · split
        · rfl
        next h => simp [allocSession_nv h]
@[simp] theorem sessError_nv (i code) : (sessError s i code).1.nv = s.nv := rfl
@[simp] theorem onSession_nv {wrong body : Nat → State → State × Reply} (hw : ∀ i u, (wrong i u).1.nv = u.nv)
    (hb : ∀ i u, (body i u).1.nv = u.nv) (c legal) : (onSession c legal wrong body s).1.nv = s.nv := by
  unfold onSession
  split <;> simp [hw, hb]
@[simp] theorem sessionCommand_nv {body : Nat → State → State × Reply} (h : ∀ i u, (body i u).1.nv = u.nv) (c legal) :
    (sessionCommand c legal body s).1.nv = s.nv := onSession_nv s (fun _ _ => rfl) h c legal
@[simp] theorem plainSession_nv {body : Nat → State → State × Reply} (h : ∀ i u, (body i u).1.nv = u.nv) (c legal) :
    (plainSession c legal body s).1.nv = s.nv := onSession_nv s (fun _ _ => rfl) h c legal
@[simp] theorem startRun_nv (i r pend) : (startRun s i r pend).1.nv = s.nv := rfl
@[simp] theorem runSessionPrefill_nv (c addr count sample dropPending) :
    (runSessionPrefill c addr count sample dropPending s).nv = s.nv := by
  refine hostCommand_nv s (fun s => sessionCommand_nv s (fun i s => ?_) ..) ..
  dsimp only
  split
  · rfl
  · split
    · rfl
    · split
      · rfl
      next h => simp [bufRead_nv h]
@[simp] theorem runSessionStep_nv (c count) : (runSessionStep c count s).nv = s.nv := by
  refine hostCommand_nv s (fun s => sessionCommand_nv s (fun i s => ?_) ..) ..
  dsimp only
  repeat' split
  all_goals rfl
@[simp] theorem freeSession_nv (i) : (freeSession s i).nv = s.nv := by simp [freeSession]
@[simp] theorem maskLane_nv (i) : (maskLane s i).nv = s.nv := by simp [maskLane]
@[simp] theorem unpark_nv (i) : (unpark s i).nv = s.nv := rfl
@[simp] theorem runSessionCancel_nv (c free) : (runSessionCancel c free s).nv = s.nv := by simp [runSessionCancel]
@[simp] theorem releaseSession_nv (i) : (releaseSession s i).nv = s.nv := by
  unfold releaseSession
  dsimp only
  split <;> simp
@[simp] theorem runSessionRelease_nv (c) : (runSessionRelease c s).nv = s.nv := by simp [runSessionRelease]
@[simp] theorem runSessionRebind_nv (c r) : (runSessionRebind c r s).nv = s.nv := by
  refine hostCommand_nv s (fun s => plainSession_nv s (fun i s => ?_) ..) ..
  dsimp only
  split <;> rfl
@[simp] theorem runSessionFork_nv (c e) : (runSessionFork c e s).nv = s.nv := by
  refine hostCommand_nv s (fun s => plainSession_nv s (fun i s => ?_) ..) ..
  dsimp only
  generalize firstCode _ = code
  split
  · rfl
  · split
    · rfl
    · split
      · rfl
      next h => split <;> simp [allocSession_nv h]
@[simp] theorem runSessionTruncate_nv (c n p) : (runSessionTruncate c n p s).nv = s.nv := by simp [runSessionTruncate]
@[simp] theorem runSessionRecompute_nv (c addr first count) : (runSessionRecompute c addr first count s).nv = s.nv := by
  refine hostCommand_nv s (fun s => sessionCommand_nv s (fun i s => ?_) ..) ..
  dsimp only
  split
  · rfl
  · split
    · rfl
    · split
      · rfl
      next h => simp [bufRead_nv h]
@[simp] theorem runSessionQuery_nv (c addr) : (runSessionQuery c addr s).nv = s.nv := by simp [runSessionQuery]
@[simp] theorem runSpecVerify_nv (c k rejection list addr) : (runSpecVerify c k rejection list addr s).nv = s.nv := by
  refine hostCommand_nv s (fun s => sessionCommand_nv s (fun i s => ?_) ..) ..
  have keeps : ∀ b t, (if list then bufRead s c addr ((if rejection then 8 else 4) * k) else some ([], s)) = some (b, t) →
      t.nv = s.nv := by
    intro b t e
    split at e
    · exact bufRead_nv e
    · cases e; rfl
  dsimp only
  split
  any_goals rfl
  simp [keeps _ _ ‹_›]
@[simp] theorem runFrameQuota_nv (c q f) : (runFrameQuota c q f s).nv = s.nv := by
  unfold runFrameQuota
  split <;> simp
@[simp] theorem runFrameQuery_nv (c addr) : (runFrameQuery c addr s).nv = s.nv := by
  unfold runFrameQuery
  split <;> simp
@[simp] theorem runKvExport_nv (c addr limit) : (runKvExport c addr limit s).nv = s.nv := by
  refine hostCommand_nv s (fun s => plainSession_nv s (fun i s => ?_) ..) ..
  simp -implicitDefEqProofs
@[simp] theorem runKvImport_nv (c addr length p) : (runKvImport c addr length p s).nv = s.nv := by
  refine hostCommand_nv s (fun s => sessionCommand_nv s (fun i s => ?_) ..) ..
  dsimp only
  split
  · rfl
  · split
    · rfl
    · split
      · rfl
      next h => simp [bufRead_nv h]

/-! Adapter and frame commands. -/

@[simp] theorem runAdapterLoad_nv (c addr length replaces) : (runAdapterLoad c addr length replaces s).nv = s.nv := by
  refine hostCommand_nv s (fun s => ?_) ..
  dsimp only
  split
  · rfl
  · split
    · rfl
    · split
      · rfl
      next h => repeat' split
                all_goals simp [bufRead_nv h]
@[simp] theorem adapterArrived_nv (p seq kind i replaces ok) :
    (adapterArrived s p seq kind i replaces ok).nv = s.nv := by
  unfold adapterArrived
  dsimp only
  repeat' split
  all_goals simp
@[simp] theorem runAdapterRetire_nv (c) : (runAdapterRetire c s).nv = s.nv := by
  refine hostCommand_nv s (fun s => ?_) ..
  dsimp only
  repeat' split
  all_goals simp
@[simp] theorem adapterFree_nv (kind i) : (adapterFree kind i s).nv = s.nv := by simp [adapterFree]
@[simp] theorem freeAdapters_nv : (freeAdapters s).nv = s.nv := by simp [freeAdapters]
@[simp] theorem freeAdapter_nv (kind i) : (freeAdapter kind i s).nv = s.nv := by
  unfold freeAdapter
  dsimp only
  repeat' split
  all_goals simp
@[simp] theorem runAdapterQuery_nv (c) : (runAdapterQuery c s).nv = s.nv := by
  refine hostCommand_nv s (fun s => ?_) ..
  dsimp only
  repeat' split
  all_goals simp
@[simp] theorem runSteerBankLoad_nv (c addr first count) : (runSteerBankLoad c addr first count s).nv = s.nv := by
  refine hostCommand_nv s (fun s => ?_) ..
  dsimp only
  repeat' split
  any_goals rfl
  simp [bufRead_nv ‹_›]
@[simp] theorem bankArrived_nv (p seq mi first b ok) : (bankArrived s p seq mi first b ok).nv = s.nv := by
  simp [bankArrived]

/-! Model commands. -/

@[simp] theorem runBundleStage_nv (c addr length mode first count keels) :
    (runBundleStage c addr length mode first count keels s).nv = s.nv := by
  refine hostCommand_nv s (fun s => ?_) ..
  dsimp only
  split
  · rfl
  · split
    · rfl
    next h => simp [bufRead_nv h]
@[simp] theorem linesRepaired_nv (mi idx) : (linesRepaired s mi idx).nv = s.nv := rfl
@[simp] theorem bundleArrived_nv (p seq mi mode first count b ks ok) :
    (bundleArrived s p seq mi mode first count b ks ok).nv = s.nv := by
  unfold bundleArrived
  dsimp only
  repeat' split
  all_goals simp
@[simp] theorem runModelPlace_nv (c st formats) : (runModelPlace c st formats s).nv = s.nv := by
  refine hostCommand_nv s (fun s => ?_) ..
  dsimp only
  repeat' split
  all_goals simp
@[simp] theorem failWrite_nv (t row) : (failWrite s t row).nv = s.nv := rfl
@[simp] theorem recordTraffic_nv (t src) : (recordTraffic s t src).nv = s.nv := by
  unfold recordTraffic
  dsimp only
  split <;> simp
@[simp] theorem queueWrite_nv (t src) : (queueWrite s t src).nv = s.nv := by simp [queueWrite]
@[simp] theorem queueAll_nv (mi l epoch) : (queueAll s mi l epoch).nv = s.nv := by simp [queueAll]
@[simp] theorem runModelWrite_nv (c) : (runModelWrite c s).nv = s.nv := by
  refine hostCommand_nv s (fun s => ?_) ..
  dsimp only
  repeat' split
  all_goals simp
@[simp] theorem settleWrites_nv : (settleWrites s).nv = s.nv := by simp [settleWrites]
@[simp] theorem runModelCommit_nv (c) : (runModelCommit c s).nv = s.nv := by
  refine hostCommand_nv s (fun s => ?_) ..
  dsimp only
  repeat' split
  all_goals simp
@[simp] theorem runModelReplace_nv (c fate e) : (runModelReplace c fate e s).nv = s.nv := by
  refine hostCommand_nv s (fun s => ?_) ..
  dsimp only
  repeat' split
  all_goals simp
@[simp] theorem dropShadow_nv (m) : (dropShadow s m).nv = s.nv := by
  unfold dropShadow
  split
  · rfl
  · refine foldl_nv (fun s u => ?_) ..
    split
    · rfl
    · simp -implicitDefEqProofs
@[simp] theorem undoBarrier_nv (mi m r) : (undoBarrier s mi m r).nv = s.nv := by
  refine foldl_nv (fun s u => ?_) ..
  split <;> simp
@[simp] theorem dropTiles_nv (mi) : (dropTiles s mi).nv = s.nv := rfl
@[simp] theorem dropForeign_nv (mi) : (dropForeign s mi).nv = s.nv := by simp [dropForeign]
@[simp] theorem runModelUnload_nv (c pend) : (runModelUnload c pend s).nv = s.nv := by
  refine hostCommand_nv s (fun s => ?_) ..
  dsimp only
  repeat' split
  all_goals simp
@[simp] theorem runPanelRetire_nv (c p) : (runPanelRetire c p s).nv = s.nv := by simp [runPanelRetire]
@[simp] theorem runPanelRemap_nv (c mode p sp addr) : (runPanelRemap c mode p sp addr s).nv = s.nv := by
  refine hostCommand_nv s (fun s => ?_) ..
  dsimp only
  repeat' split
  all_goals simp
@[simp] theorem settleRemaps_nv (acts) : (settleRemaps acts s).nv = s.nv := by simp [settleRemaps]
@[simp] theorem exchangePanels_nv (p q) : (exchangePanels s p q).nv = s.nv := by
  simp -implicitDefEqProofs [exchangePanels]
@[simp] theorem retirePanel_nv (p) : (retirePanel s p).nv = s.nv := rfl

/-! Calibration commands. -/

@[simp] theorem runCalRun_nv (c panel keels) : (runCalRun c panel keels s).nv = s.nv := by
  simp -implicitDefEqProofs [runCalRun]
@[simp] theorem runCalRead_nv (c panel addr) : (runCalRead c panel addr s).nv = s.nv := by simp [runCalRead]
@[simp] theorem runCalWrite_nv (c addr) : (runCalWrite c addr s).nv = s.nv := by
  refine hostCommand_nv s (fun s => ?_) ..
  split
  · rfl
  next h => simp [bufRead_nv h]
@[simp] theorem runTrimRead_nv (c first count addr) : (runTrimRead c first count addr s).nv = s.nv := by
  simp [runTrimRead]
@[simp] theorem runTrimWrite_nv (c addr count) : (runTrimWrite c addr count s).nv = s.nv := by
  refine hostCommand_nv s (fun s => ?_) ..
  split
  · rfl
  next h => simp [bufRead_nv h]
@[simp] theorem loadRedundancy_nv (t es) : (loadRedundancy s t es).nv = s.nv := by simp [loadRedundancy]
@[simp] theorem runRedundancyLoad_nv (c addr count) : (runRedundancyLoad c addr count s).nv = s.nv := by
  refine hostCommand_nv s (fun s => ?_) ..
  split
  · rfl
  next h => simp [bufRead_nv h]
@[simp] theorem settleRedundancy_nv : (settleRedundancy s).nv = s.nv := by simp [settleRedundancy]
@[simp] theorem calRunNote_nv (p agreed disagreed skipped) : (calRunNote s p agreed disagreed skipped).nv = s.nv := rfl
@[simp] theorem settleCalRuns_nv : (settleCalRuns s).nv = s.nv := by simp -implicitDefEqProofs [settleCalRuns]
@[simp] theorem runRefreshPolicy_nv (c dies divisor) : (runRefreshPolicy c dies divisor s).nv = s.nv := by
  simp -implicitDefEqProofs [runRefreshPolicy]

/-! Fault and test commands. -/

@[simp] theorem runTestPanel_nv (c panel) : (runTestPanel c panel s).nv = s.nv := by
  simp -implicitDefEqProofs [runTestPanel]
@[simp] theorem runTestCore_nv (c core) : (runTestCore c core s).nv = s.nv := by simp [runTestCore]
@[simp] theorem runBistRun_nv (c keels) : (runBistRun c keels s).nv = s.nv := by simp [runBistRun]
@[simp] theorem runFaultRead_nv (c addr first count) : (runFaultRead c addr first count s).nv = s.nv := by
  simp [runFaultRead]
@[simp] theorem runExposureRead_nv (c panel count addr) : (runExposureRead c panel count addr s).nv = s.nv := by
  simp [runExposureRead]
@[simp] theorem runCaptureRead_nv (c tile addr) : (runCaptureRead c tile addr s).nv = s.nv := by
  refine hostCommand_nv s (fun s => ?_) ..
  split <;> simp
@[simp] theorem runCheckPolicy_nv (c panel pol) : (runCheckPolicy c panel pol s).nv = s.nv := by
  simp -implicitDefEqProofs [runCheckPolicy]
@[simp] theorem clearSuspect_nv (p) : (clearSuspect s p).nv = s.nv := by simp -implicitDefEqProofs [clearSuspect]
@[simp] theorem capture_nv (t codes) : (capture s t codes).nv = s.nv := by simp [capture]
@[simp] theorem markSuspect_nv (t) : (markSuspect s t).nv = s.nv := rfl
@[simp] theorem finishJobs_nv (p code res) : (finishJobs s p code res).nv = s.nv := by simp [finishJobs]
@[simp] theorem bistRunDone_nv (failed) : (bistRunDone failed s).nv = s.nv := by simp [bistRunDone]

/-! The option image. -/

@[simp] theorem loadImage_nv (inUse b) : (loadImage s inUse b).nv = s.nv := rfl

/-! Security and housekeeping commands. -/

@[simp] theorem runAttest_nv (c addr limit nonce) : (runAttest c addr limit nonce s).nv = s.nv := by simp [runAttest]
@[simp] theorem measureReport_nv (p seq) : (measureReport s p seq).nv = s.nv := rfl
@[simp] theorem measureSpdm_nv (i nonce) : (measureSpdm s i nonce).nv = s.nv := rfl
@[simp] theorem attestReportDone_nv (ok) : (attestReportDone ok s).nv = s.nv := by
  unfold attestReportDone
  split <;> simp
@[simp] theorem runImageWrite_factory (c addr k) : (runImageWrite c addr k s).nv.factory = s.nv.factory := by
  refine hostCommand_keeps s Nv.factory (fun s => ?_) ..
  split
  · rfl
  · split
    · rfl
    next h => simp [bufRead_nv h]
@[simp] theorem nextPulse_nv : (nextPulse s).nv = s.nv := rfl
@[simp] theorem runKeyInfo_nv (c addr) : (runKeyInfo c addr s).nv = s.nv := by simp [runKeyInfo]
@[simp] theorem runAdcSequence_nv (c addr) : (runAdcSequence c addr s).nv = s.nv := by
  refine hostCommand_nv s (fun s => ?_) ..
  split
  · rfl
  next h => simp [bufRead_nv h]
@[simp] theorem runAdcRead_nv (c chans addr) : (runAdcRead c chans addr s).nv = s.nv := by simp [runAdcRead]
@[simp] theorem runThermalConfig_nv (c addr) : (runThermalConfig c addr s).nv = s.nv := by
  refine hostCommand_nv s (fun s => ?_) ..
  split
  · rfl
  next h => simp [bufRead_nv h]
@[simp] theorem runSupplyStatus_nv (c) : (runSupplyStatus c s).nv = s.nv := by simp [runSupplyStatus]

/-! Reset: the one place, with IMAGE_WRITE, power and bring-up, where NV flash is written. -/

@[simp] theorem wiped_nv : (wiped s).nv = s.nv := rfl
@[simp] theorem cutPower_factory : (cutPower s).nv.factory = s.nv.factory := rfl
@[simp] theorem takeReset_factory (src) : (takeReset s src).nv.factory = s.nv.factory := by simp [takeReset]
@[simp] theorem startReset_factory (src) : (startReset s src).nv.factory = s.nv.factory := by simp [startReset]
@[simp] theorem takeLatched_factory : (takeLatched s).nv.factory = s.nv.factory :=
  foldl_keeps (State.nv · |>.factory) (fun _ _ => takeReset_factory ..) ..
@[simp] theorem resetAfterNvPulse_factory : (resetAfterNvPulse s).nv.factory = s.nv.factory := by
  simp [resetAfterNvPulse]
@[simp] theorem nvProgramDone_factory (ok) : (nvProgramDone ok s).nv.factory = s.nv.factory := by
  unfold nvProgramDone
  split <;> simp
@[simp] theorem pinReset_factory (src ns held) : (pinReset s src ns held).nv.factory = s.nv.factory := by
  simp [pinReset]
@[simp] theorem perst_factory (ns held) : (perst ns held s).nv.factory = s.nv.factory := by simp [perst]
@[simp] theorem mrst_factory (ns held) : (mrst ns held s).nv.factory = s.nv.factory := by simp [mrst]
@[simp] theorem hotReset_factory : (hotReset s).nv.factory = s.nv.factory := by simp [hotReset]
@[simp] theorem powerOn_factory (backup) : (powerOn backup s).nv.factory = s.nv.factory := by
  unfold powerOn
  split
  · rfl
  · exact (foldl_keeps (State.nv · |>.factory) (fun _ _ => takeReset_factory ..) _ _).trans (takeReset_factory ..)
@[simp] theorem resetCtrlWrite_factory (v) : (resetCtrlWrite s v).nv.factory = s.nv.factory := by simp [resetCtrlWrite]
@[simp] theorem resetCtrl_factory (v) : (resetCtrl v s).nv.factory = s.nv.factory := by simp [resetCtrl]
@[simp] theorem imageGo_nv : (imageGo s).nv = s.nv := by simp -implicitDefEqProofs [imageGo]

/-! Supplies and temperature. -/

@[simp] theorem alert_nv (bit) : (alert s bit).nv = s.nv := rfl
@[simp] theorem inject_nv (ch) : (inject s ch).nv = s.nv := rfl
@[simp] theorem writeNotes_nv : (writeNotes s).nv = s.nv := by simp [writeNotes]
@[simp] theorem moveLoad_nv (toBackup) : (moveLoad s toBackup).nv = s.nv := by simp [moveLoad]
@[simp] theorem supplySwitch_nv (ov) : (supplySwitch ov s).nv = s.nv := by simp [supplySwitch]
@[simp] theorem supplyReturn_nv : (supplyReturn s).nv = s.nv := by simp [supplyReturn]
@[simp] theorem supplyFault_nv (level) : (supplyFault level s).nv = s.nv := by simp [supplyFault]
@[simp] theorem inputGood_nv (backup good) : (inputGood backup good s).nv = s.nv := by simp [inputGood]
@[simp] theorem brownout_factory (ov) : (brownout ov s).nv.factory = s.nv.factory := by simp [brownout]
@[simp] theorem capUnmet_nv : (capUnmet s).nv = s.nv := by simp [capUnmet]
@[simp] theorem notePower_nv (w) : (notePower s w).nv = s.nv := rfl
@[simp] theorem sensorChange_nv (loc th broken) : (sensorChange s loc th broken).nv = s.nv := by
  simp -implicitDefEqProofs [sensorChange]
@[simp] theorem diodeReading_nv (mv t) : (diodeReading mv t s).nv = s.nv := by simp [diodeReading]
@[simp] theorem thermReading_nv (ch code) : (thermReading s ch code).nv = s.nv := by simp [thermReading]
@[simp] theorem openWirePass_nv (ch up down) : (openWirePass s ch up down).nv = s.nv := by simp [openWirePass]
@[simp] theorem thermalTrip_factory (die) : (thermalTrip die s).nv.factory = s.nv.factory := by simp [thermalTrip]
@[simp] theorem convert_nv (ch code) : (convert s ch code).nv = s.nv := by simp [convert]
@[simp] theorem fixedScan_nv (ch code) : (fixedScan s ch code).nv = s.nv := by simp [fixedScan]
@[simp] theorem scanConversion_nv (code down) : (scanConversion code down s).nv = s.nv := by simp [scanConversion]
@[simp] theorem adcTrigger_nv (src) : (adcTrigger src s).nv = s.nv := by simp [adcTrigger]
@[simp] theorem endInjection_nv (ch code own) : (endInjection s ch code own).nv = s.nv := by simp [endInjection]
@[simp] theorem endSequenced_nv (code) : (endSequenced s code).nv = s.nv := by simp [endSequenced]
@[simp] theorem adcConversion_nv (code) : (adcConversion code s).nv = s.nv := by
  unfold adcConversion
  repeat' split
  all_goals simp
@[simp] theorem bandEdge_nv (d) : (bandEdge s d).nv = s.nv := by simp [bandEdge]
@[simp] theorem stopTiles_nv (k) : (stopTiles s k).nv = s.nv := rfl
@[simp] theorem stackEdge_nv (k) : (stackEdge s k).nv = s.nv := by simp [stackEdge]
@[simp] theorem stackResume_nv (k) : (stackResume k s).nv = s.nv := by simp [stackResume]
@[simp] theorem coolantOne_nv (loc v limit) : (coolantOne s loc v limit).nv = s.nv := by simp [coolantOne]
@[simp] theorem coolantEdge_nv : (coolantEdge s).nv = s.nv := by simp [coolantEdge]
@[simp] theorem capEdge_nv : (capEdge s).nv = s.nv := by simp [capEdge]
@[simp] theorem supplyEdge_nv : (supplyEdge s).nv = s.nv := by simp [supplyEdge]
@[simp] theorem powerEdge_nv : (powerEdge s).nv = s.nv := by simp [powerEdge]

/-! Orphaned and closed spools. -/

@[simp] theorem endEntry_nv (e) : (endEntry s e).nv = s.nv := by simp [endEntry]
@[simp] theorem dropEntries_nv (i) : (dropEntries s i).nv = s.nv := by simp [dropEntries]
@[simp] theorem cancelSession_nv (i free) : (cancelSession s i free).nv = s.nv := by simp [cancelSession]
@[simp] theorem closeSpool_nv (p) : (closeSpool s p).nv = s.nv := rfl
@[simp] theorem closeWhenWritten_nv (p) : (closeWhenWritten s p).nv = s.nv := by simp [closeWhenWritten]
@[simp] theorem closeDue_nv (p) : (closeDue s p).nv = s.nv := by simp [closeDue]
@[simp] theorem finishClose_nv (p seq t) : (finishClose s p seq t).nv = s.nv := by simp [finishClose]
@[simp] theorem stopOutput_nv (io parts) : (stopOutput s io parts).nv = s.nv := by simp [stopOutput]
@[simp] theorem freePartial_nv (o) : (freePartial s o).nv = s.nv := by
  unfold freePartial
  split <;> simp
@[simp] theorem endCommands_nv (p keep) : (endCommands s p keep).nv = s.nv := by simp [endCommands]
@[simp] theorem holdSession_nv (i) : (holdSession s i).nv = s.nv := rfl
@[simp] theorem orphanSpool_nv (p) : (orphanSpool s p).nv = s.nv := by simp -implicitDefEqProofs [orphanSpool]
@[simp] theorem resumeSession_nv (i) : (resumeSession s i).nv = s.nv := rfl
@[simp] theorem closeSpool0_nv : (closeSpool0 s).nv = s.nv := by simp [closeSpool0]
@[simp] theorem resyncSpool_nv (p) : (resyncSpool s p).nv = s.nv := by simp -implicitDefEqProofs [resyncSpool]
@[simp] theorem resyncSpool0_nv : (resyncSpool0 s).nv = s.nv := rfl
@[simp] theorem closeAtEdge_nv (t p seq) : (closeAtEdge s t p seq).nv = s.nv := by simp [closeAtEdge]
@[simp] theorem runSpoolClose_nv (c release) : (runSpoolClose c release s).nv = s.nv := by
  unfold runSpoolClose
  split <;> simp
@[simp] theorem adoptSession_nv (p i) : (adoptSession s p i).nv = s.nv := rfl
@[simp] theorem runSpoolAdopt_nv (c) : (runSpoolAdopt c s).nv = s.nv := by
  unfold runSpoolAdopt
  dsimp only
  repeat' split
  all_goals simp -implicitDefEqProofs
@[simp] theorem spoolTimeout_nv (p) : (spoolTimeout p s).nv = s.nv := by simp [spoolTimeout]
@[simp] theorem orphanAll_nv (f) : (orphanAll s f).nv = s.nv := by simp [orphanAll]
@[simp] theorem flr_nv (fn) : (flr fn s).nv = s.nv := by simp [flr]
@[simp] theorem viral_nv : (viral s).nv = s.nv := by simp [viral]

/-! Links. -/

@[simp] theorem resumeLink_nv (l) : (resumeLink s l).nv = s.nv := by simp [resumeLink]
@[simp] theorem laneRecord_nv (l lane) : (laneRecord s l lane).nv = s.nv := by simp [laneRecord]
@[simp] theorem loseLink_nv (l detail) : (loseLink s l detail).nv = s.nv := by simp [loseLink]
@[simp] theorem laneFault_nv (l lane) : (laneFault l lane s).nv = s.nv := by simp -implicitDefEqProofs [laneFault]
@[simp] theorem someLaneFault_nv (l) : (someLaneFault l s).nv = s.nv := by simp [someLaneFault]
@[simp] theorem resendFault_nv (k) : (resendFault s k).nv = s.nv := by simp [resendFault]
@[simp] theorem retrainDone_nv (l working) : (retrainDone l working s).nv = s.nv := by simp [retrainDone]
@[simp] theorem linkLost_nv (l failed) : (linkLost l failed s).nv = s.nv := by simp [linkLost]
@[simp] theorem linkTrainRetry_nv (l working) : (linkTrainRetry l working s).nv = s.nv := by simp [linkTrainRetry]
@[simp] theorem rewiden_nv (l) : (rewiden l s).nv = s.nv := by simp [rewiden]
@[simp] theorem chainNeighbourLearn_nv (l addr) : (chainNeighbourLearn l addr s).nv = s.nv := by
  simp [chainNeighbourLearn]
@[simp] theorem clearWire_nv (l) : (clearWire s l).nv = s.nv := by simp -implicitDefEqProofs [clearWire]
@[simp] theorem ackTimeout_nv (l) : (ackTimeout l s).nv = s.nv := by simp -implicitDefEqProofs [ackTimeout]
@[simp] theorem fecInterval_nv (l) : (fecInterval s l).nv = s.nv := by simp [fecInterval]
@[simp] theorem ackOnlyTimer_nv (l) : (ackOnlyTimer l s).nv = s.nv := by simp [ackOnlyTimer]
@[simp] theorem hdmAccess_nv (write w data keeps) : (hdmAccess write w data keeps s).nv = s.nv := by simp [hdmAccess]
@[simp] theorem configOp_nv (op) : (configOp op s).nv = s.nv := by
  cases op with
  | other => rfl
  | vfEnable => exact State.onBoot_nv ..
  | measurement => exact atEdge_nv ..
  | _ => exact State.onBus_nv ..
@[simp] theorem configRequest_nv (fn op) : (configRequest fn op s).nv = s.nv := by simp [configRequest]
@[simp] theorem cxlError_nv (status) : (cxlError status s).nv = s.nv := by simp [cxlError]
@[simp] theorem ideStreamState_nv (mem secure) : (ideStreamState mem secure s).nv = s.nv := rfl
@[simp] theorem runStream_nv (u alg b) : (runStream s u alg b).nv = s.nv := by
  unfold runStream
  split <;> simp
@[simp] theorem onHostCtx_nv (u f) : (onHostCtx s u f).nv = s.nv := by simp [onHostCtx]
@[simp] theorem cvuHostPoly_nv (u v) : (cvuHostPoly u v s).nv = s.nv := by simp [cvuHostPoly]
@[simp] theorem cvuHostInit_nv (u) : (cvuHostInit u s).nv = s.nv := by simp [cvuHostInit]
@[simp] theorem cvuHostValueWrite_nv (u off size v) : (cvuHostValueWrite u off size v s).nv = s.nv := by
  simp [cvuHostValueWrite]
@[simp] theorem cvuHostData_nv (u size v) : (cvuHostData u size v s).nv = s.nv := by simp [cvuHostData]
@[simp] theorem dramArbitration_nv (k ch new) : (dramArbitration k ch new s).nv = s.nv := rfl
@[simp] theorem arbWindowEnd_nv (k ch) : (arbWindowEnd k ch s).nv = s.nv := rfl

/-! Bring-up. -/

@[simp] theorem enterHold_nv (code bist step) : (enterHold s code bist step).nv = s.nv := rfl
@[simp] theorem startBoot_nv (b) : (startBoot s b).nv = s.nv := rfl
@[simp] theorem chooseImage_nv : (chooseImage s).nv = s.nv := by simp [chooseImage]
@[simp] theorem becomeReady_factory (lanes rate) : (becomeReady s lanes rate).nv.factory = s.nv.factory := by
  simp -implicitDefEqProofs [becomeReady]
@[simp] theorem negotiate_factory (b) : (negotiate s b).nv.factory = s.nv.factory := by simp [negotiate]
@[simp] theorem finishBoot_factory (b) : (finishBoot s b).nv.factory = s.nv.factory := by simp [finishBoot]
@[simp] theorem bringUp_factory (b) : (bringUp b s).nv.factory = s.nv.factory := by simp [bringUp]

/-! Alignment of the tick. -/

@[simp] theorem broadcast_nv (but c) : (broadcast s but c).nv = s.nv := by simp [broadcast]
@[simp] theorem runTickConfig_nv (c period ext) : (runTickConfig c period ext s).nv = s.nv := by
  refine hostCommand_nv s (fun s => ?_) ..
  dsimp only
  repeat' split
  all_goals simp
@[simp] theorem applyPeriod_nv : (applyPeriod s).nv = s.nv := by
  unfold applyPeriod
  repeat' split
  all_goals simp
@[simp] theorem periodChange_nv : (periodChange s).nv = s.nv := by simp [periodChange]
@[simp] theorem cancelPeriod_nv : (cancelPeriod s).nv = s.nv := by
  unfold cancelPeriod
  repeat' split
  all_goals simp
@[simp] theorem followerAnswerTimeout_nv : (followerAnswerTimeout s).nv = s.nv := by
  unfold followerAnswerTimeout
  split <;> simp
@[simp] theorem periodHeard_nv (port period at_) : (periodHeard s port period at_).nv = s.nv := by simp [periodHeard]
@[simp] theorem periodAnswered_nv (port ok) : (periodAnswered s port ok).nv = s.nv := by
  unfold periodAnswered
  split <;> simp
@[simp] theorem tickInEdge_nv (phase) : (tickInEdge phase s).nv = s.nv := by simp [tickInEdge]
@[simp] theorem holdover_nv : (holdover s).nv = s.nv := by simp [holdover]
@[simp] theorem countEdge_nv : (countEdge s).nv = s.nv := by
  unfold countEdge
  dsimp only
  split <;> simp

/-! Replacement of a model. -/

@[simp] theorem sessionFate_nv (r i) : (sessionFate r s i).nv = s.nv := by simp [sessionFate]
@[simp] theorem settleReplace_nv (mi) : (settleReplace s mi).nv = s.nv := by
  unfold settleReplace
  dsimp only
  split <;> simp
@[simp] theorem cutOver_nv (mi) : (cutOver mi s).nv = s.nv := by
  unfold cutOver
  dsimp only
  split <;> simp
@[simp] theorem queueUnit_nv (mi u r l) : (queueUnit s mi u r l).nv = s.nv := by simp [queueUnit]
@[simp] theorem shadowWriteStart_nv (mi u) : (shadowWriteStart mi u s).nv = s.nv := by
  unfold shadowWriteStart
  dsimp only
  repeat' split
  all_goals simp
@[simp] theorem layerSwitched_nv (mi u) : (layerSwitched mi u s).nv = s.nv := by
  unfold layerSwitched
  dsimp only
  repeat' split
  all_goals simp -implicitDefEqProofs
@[simp] theorem replaceEdge_nv : (replaceEdge s).nv = s.nv := by
  refine foldl_nv (fun s e => ?_) ..
  split <;> simp

/-! Register reads. -/

@[simp] theorem readLow_nv (fn bar o) : (readLow s fn bar o).nv = s.nv := rfl
@[simp] theorem readHigh_nv (fn bar o) : (readHigh s fn bar o).nv = s.nv := by
  unfold readHigh
  dsimp only
  split <;> simp
@[simp] theorem afterComponent_nv (bar o) : (afterComponent bar o s).nv = s.nv := by simp [afterComponent]
@[simp] theorem readFour_nv (fn bar o) : (readFour s fn bar o).nv = s.nv := by simp [readFour]
@[simp] theorem readEight_nv (fn bar o) : (readEight s fn bar o).nv = s.nv := rfl
@[simp] theorem readAccess_nv (fn bar o size) : (readAccess s fn bar o size).nv = s.nv := by simp [readAccess]
@[simp] theorem latchedLowRead_nv (fn bar r) : (latchedLowRead fn bar r s).nv = s.nv := by simp [latchedLowRead]
@[simp] theorem latchedHighRead_nv (fn bar o) : (latchedHighRead fn bar o s).nv = s.nv := by simp [latchedHighRead]

/-! Register writes. -/

@[simp] theorem sqTailDoorbell_nv (fn p v) : (sqTailDoorbell fn p v s).nv = s.nv := by simp [sqTailDoorbell]
@[simp] theorem cqHeadWrite_nv (fn p v) : (cqHeadWrite fn p v s).nv = s.nv := by simp [cqHeadWrite]
@[simp] theorem spoolCtrlOpen_nv (fn p) : (spoolCtrlOpen fn p s).nv = s.nv := by simp [spoolCtrlOpen]
@[simp] theorem spoolCtrlResync_nv (fn p) : (spoolCtrlResync fn p s).nv = s.nv := by simp [spoolCtrlResync]
@[simp] theorem writeSpoolWord_nv (fn p o v) : (writeSpoolWord fn p o v s).nv = s.nv := by
  unfold writeSpoolWord
  dsimp only
  split <;> simp
@[simp] theorem syncCounterWrite_nv (fn n size v) : (syncCounterWrite fn n size v s).nv = s.nv := by
  simp [syncCounterWrite]
@[simp] theorem calSnap_nv (k) : (calSnap k s).nv = s.nv := by simp [calSnap]
@[simp] theorem writeCalWord_nv (k o v) : (writeCalWord k o v s).nv = s.nv := by
  unfold writeCalWord
  split <;> simp
@[simp] theorem writeInject_nv (v) : (writeInject v s).nv = s.nv := by simp [writeInject]
@[simp] theorem adcInjectGo_nv (v) : (adcInjectGo v s).nv = s.nv := by simp [adcInjectGo]
@[simp] theorem onChan_nv (c f) : (onChan s c f).nv = s.nv := rfl
@[simp] theorem writeSupplyWord_nv (o v) : (writeSupplyWord o v s).nv = s.nv := by
  unfold writeSupplyWord
  repeat' split
  all_goals simp
@[simp] theorem writeResetWord_factory (o v) : (writeResetWord o v s).nv.factory = s.nv.factory := by
  unfold writeResetWord
  split <;> simp
@[simp] theorem writeBar2Word_nv (o v) : (writeBar2Word o v s).nv = s.nv := by
  unfold writeBar2Word
  repeat' split
  all_goals simp
@[simp] theorem writeBar0Word_factory (fn o v) : (writeBar0Word fn o v s).nv.factory = s.nv.factory := by
  simp [writeBar0Word]
@[simp] theorem writeWord_factory (fn bar o v) : (writeWord fn bar o v s).nv.factory = s.nv.factory := by
  simp [writeWord]
@[simp] theorem registerWrite_factory (fn bar o size v) : (registerWrite fn bar o size v s).nv.factory = s.nv.factory := by
  simp [registerWrite]
@[simp] theorem sidebandWord_factory (o v) : (sidebandWord o v s).nv.factory = s.nv.factory := by simp [sidebandWord]
@[simp] theorem sidebandWords_factory (o vs) : (sidebandWords o vs s).nv.factory = s.nv.factory := by
  induction vs generalizing o s with
  | nil => rfl
  | cons v r ih => simp [sidebandWords, ih]
@[simp] theorem privateWrite_factory (addr o data) : (privateWrite addr o data s).nv.factory = s.nv.factory := by
  simp [privateWrite]
@[simp] theorem sidebandWrite_factory (w) : (sidebandWrite w s).nv.factory = s.nv.factory := by
  unfold sidebandWrite
  split <;> simp
@[simp] theorem sidebandRead_nv (addr) : (sidebandRead addr s).nv = s.nv := by
  unfold sidebandRead
  dsimp only
  repeat' split
  all_goals simp

/-! Intake and records. -/

@[simp] theorem runHost_factory (i) : (runHost i s).nv.factory = s.nv.factory := by
  cases i <;> simp [runHost]
@[simp] theorem takeFetch_nv (p) : (takeFetch s p).nv = s.nv := rfl
@[simp] theorem fetchError_nv (p op seq handle code) : (fetchError s p op seq handle code).nv = s.nv := rfl
@[simp] theorem passSlot_nv (p) : (passSlot s p).nv = s.nv := rfl
@[simp] theorem sendStored_nv (p f r) : (sendStored s p f r).nv = s.nv := by simp [sendStored]
@[simp] theorem answerDuplicate_nv (p f) : (answerDuplicate s p f).nv = s.nv := by
  unfold answerDuplicate
  repeat' split
  all_goals simp
@[simp] theorem acceptPacket_nv (p f i) : (acceptPacket s p f i).nv = s.nv := by simp [acceptPacket]
@[simp] theorem newPacket_nv (p f) : (newPacket s p f).nv = s.nv := by
  unfold newPacket
  split <;> simp
@[simp] theorem packetFetch_nv (p pkt block) : (packetFetch p pkt block s).nv = s.nv := by
  unfold packetFetch
  repeat' split
  all_goals simp
@[simp] theorem commandStart_factory (p seq io) : (commandStart p seq io s).nv.factory = s.nv.factory := by
  unfold commandStart
  repeat' split
  all_goals simp
@[simp] theorem discardSpool0_nv : (discardSpool0 s).nv = s.nv := by simp -implicitDefEqProofs [discardSpool0]
@[simp] theorem putRecord_nv (p d) : (putRecord s p d).nv = s.nv := by simp [putRecord]
@[simp] theorem statusRecordWrite_nv (p ok) : (statusRecordWrite p ok s).nv = s.nv := by
  unfold statusRecordWrite
  repeat' split
  all_goals simp
@[simp] theorem fillImport_nv (p seq i b pend) : (fillImport s p seq i b pend).nv = s.nv := by simp [fillImport]
@[simp] theorem importArrived_nv (p seq i b pend ok) : (importArrived s p seq i b pend ok).nv = s.nv := by
  unfold importArrived
  dsimp only
  repeat' split
  all_goals simp
@[simp] theorem windowTraffic_nv (a n out parts) : (windowTraffic s a n out parts).nv = s.nv := by
  unfold windowTraffic
  split <;> simp
@[simp] theorem moverTraffic_nv (o) : (moverTraffic s o).nv = s.nv := by
  unfold moverTraffic
  split <;> simp
@[simp] theorem hostDmaTransfer_nv (p seq ok) : (hostDmaTransfer p seq ok s).nv = s.nv := by
  unfold hostDmaTransfer
  repeat' split
  all_goals simp

/-! Work of a position. -/

@[simp] theorem lateEntry_nv (id) : (lateEntry s id).nv = s.nv := rfl
@[simp] theorem State.onCtx_nv (id pos f) : (State.onCtx s id pos f).nv = s.nv := rfl
@[simp] theorem onArith_nv (id f) : (onArith s id f).nv = s.nv := rfl
@[simp] theorem quantisePoint_nv (e k pos l pt v) : (quantisePoint s e k pos l pt v).nv = s.nv := rfl
@[simp] theorem prepare_nv (id pos) : (prepare s id pos).nv = s.nv := by
  unfold prepare
  split
  · rfl
  · split
    · rfl
    · refine foldl_nv (fun s pt => ?_) ..
      dsimp only
      repeat' split
      all_goals simp
@[simp] theorem sendOutput_nv (id pos) : (sendOutput s id pos).nv = s.nv := by
  unfold sendOutput
  repeat' split
  all_goals simp
@[simp] theorem embedPos_nv (e pos) : (embedPos s e pos).nv = s.nv := rfl
@[simp] theorem advanceBy_nv (n id pos) : (advanceBy n s id pos).nv = s.nv := by
  induction n generalizing s with
  | zero => simp [advanceBy]
  | succ n ih =>
    unfold advanceBy
    repeat' split
    all_goals simp [ih]
@[simp] theorem advance_nv (id pos) : (advance s id pos).nv = s.nv := by simp [advance]
@[simp] theorem onBlock_nv (k f) : (onBlock s k f).nv = s.nv := rfl
@[simp] theorem entryRecord_nv (e kind source recovered loc detail) :
    (entryRecord s e kind source recovered loc detail).nv = s.nv := by simp [entryRecord]

/-! Tile products. -/

@[simp] theorem orderHead_nv (p) : (orderHead s p).nv = s.nv := rfl
@[simp] theorem driftCheck_nv (t) : (driftCheck s t).nv = s.nv := by simp [driftCheck]
@[simp] theorem refFaults_nv (keel t ls zs) : (refFaults s keel t ls zs).nv = s.nv := by simp [refFaults]
@[simp] theorem noteRefs_nv (keel t codes ch) : (noteRefs s keel t codes ch).nv = s.nv := by simp [noteRefs]
@[simp] theorem takeTime_nv (t) : (takeTime s t).nv = s.nv := rfl
@[simp] theorem countProduct_nv (w codes ch) : (countProduct s w codes ch).nv = s.nv := by simp [countProduct]
@[simp] theorem noteWords_nv (w bad) : (noteWords s w bad).nv = s.nv := by simp [noteWords]
@[simp] theorem stageWideSlip_nv (st k) : (stageWideSlip s st k).nv = s.nv := by simp [stageWideSlip]
@[simp] theorem noteLateRequest_nv (id) : (noteLateRequest s id).nv = s.nv := by
  unfold noteLateRequest
  repeat' split
  all_goals simp
@[simp] theorem askWide_nv (k rank) : (askWide s k rank).nv = s.nv := by simp [askWide]
@[simp] theorem acceptProduct_nv (w codes terms vals sa flags work words) :
    (acceptProduct s w codes terms vals sa flags work words).nv = s.nv := by simp [acceptProduct]
@[simp] theorem countFail_nv : (countFail s).nv = s.nv := rfl
@[simp] theorem suspect_nv (t) : (suspect s t).nv = s.nv := by simp [suspect]
@[simp] theorem failRepeat_nv (w codes ds) : (failRepeat s w codes ds).nv = s.nv := by simp [failRepeat]
@[simp] theorem passRepeat_nv (w) : (passRepeat s w).nv = s.nv := by simp [passRepeat]
@[simp] theorem tileProduct_nv (k dev bad) : (tileProduct k dev bad s).nv = s.nv := by
  unfold tileProduct
  split <;> simp
@[simp] theorem takeNoClip_nv (w) : (takeNoClip s w).nv = s.nv := by simp [takeNoClip]
@[simp] theorem productRepeat_nv (k dev bad) : (productRepeat k dev bad s).nv = s.nv := by
  unfold productRepeat
  split <;> simp
@[simp] theorem splitFails_nv (w standIn codes ds) : (splitFails s w standIn codes ds).nv = s.nv := by simp [splitFails]
@[simp] theorem splitReplay_nv (k lo hi bad) : (splitReplay k lo hi bad s).nv = s.nv := by
  unfold splitReplay
  repeat' split
  all_goals simp

/-! The digital side path. -/

@[simp] theorem chargeRow_nv (w r) : (chargeRow s w r).nv = s.nv := by simp [chargeRow]
@[simp] theorem wideModeBlock_nv (k) : (wideModeBlock k s).nv = s.nv := by
  unfold wideModeBlock
  split <;> simp
@[simp] theorem outlierRow_nv (k row) : (outlierRow k row s).nv = s.nv := by
  unfold outlierRow
  repeat' split
  all_goals simp
@[simp] theorem deltaSection_nv (id pos l m) : (deltaSection id pos l m s).nv = s.nv := by
  unfold deltaSection
  dsimp only
  repeat' split
  all_goals simp
@[simp] theorem spotCharge_nv (k fixed) : (spotCharge s k fixed).nv = s.nv := rfl
@[simp] theorem spotGood_nv (p) : (spotGood s p).nv = s.nv := rfl
@[simp] theorem spotBad_nv (keel t handle first codes detail) :
    (spotBad s keel t handle first codes detail).nv = s.nv := by simp [spotBad]
@[simp] theorem heldSpot_nv (h) : (heldSpot s h).nv = s.nv := by
  unfold heldSpot
  dsimp only
  split <;> simp
@[simp] theorem spotToWide_nv (w) : (spotToWide s w).nv = s.nv := by simp [spotToWide]
@[simp] theorem spotCheck_nv (k) : (spotCheck k s).nv = s.nv := by
  unfold spotCheck
  repeat' split
  all_goals simp
@[simp] theorem spotCheckDue_nv (p) : (spotCheckDue p s).nv = s.nv := by simp [spotCheckDue]
@[simp] theorem residueRerun_nv (k tail tries id pos) : (residueRerun k tail tries id pos s).nv = s.nv := by
  unfold residueRerun
  split <;> simp
@[simp] theorem drain_nv (id pos l role) : (drain id pos l role s).nv = s.nv := by
  unfold drain
  split <;> simp
@[simp] theorem steeringUpdate_nv (id pos l) : (steeringUpdate id pos l s).nv = s.nv := by
  unfold steeringUpdate
  repeat' split
  all_goals simp

/-! Attention. -/

@[simp] theorem frameCopy_nv (i l idx draft) : (frameCopy i l idx draft s).nv = s.nv := by simp [frameCopy]
@[simp] theorem writeVector_nv (m l key slot which fmt codes groups) :
    (writeVector s m l key slot which fmt codes groups).nv = s.nv := rfl
@[simp] theorem kvWrite_nv (id pos l) : (kvWrite id pos l s).nv = s.nv := by
  unfold kvWrite
  dsimp only
  repeat' split
  all_goals simp
@[simp] theorem attnPassA_nv (id pos l n) : (attnPassA id pos l n s).nv = s.nv := by
  unfold attnPassA
  dsimp only
  repeat' split
  all_goals simp
@[simp] theorem attnPassB_nv (id pos l n) : (attnPassB id pos l n s).nv = s.nv := by
  unfold attnPassB
  dsimp only
  repeat' split
  all_goals simp
@[simp] theorem attnPassC_nv (id pos l n) : (attnPassC id pos l n s).nv = s.nv := by
  unfold attnPassC
  dsimp only
  repeat' split
  all_goals simp

/-! Sampling. -/

@[simp] theorem keepProbs_nv (e q) : (keepProbs s e q).nv = s.nv := by simp [keepProbs]
@[simp] theorem samplingJob_nv (id) : (samplingJob id s).nv = s.nv := by
  unfold samplingJob
  split <;> simp
@[simp] theorem acceptanceJob_nv (id) : (acceptanceJob id s).nv = s.nv := by
  unfold acceptanceJob
  repeat' split
  all_goals simp

/-! Service operations. -/

@[simp] theorem markRan_nv (v) : (markRan s v).nv = s.nv := rfl
@[simp] theorem serve_nv {f : State → State} (h : ∀ u, (f u).nv = u.nv) (urgent v) : (serve s urgent v f).nv = s.nv := by
  simp [serve, h]
@[simp] theorem refreshHalf_nv (t h) : (refreshHalf t h s).nv = s.nv := by
  unfold refreshHalf
  dsimp only
  repeat' split
  all_goals simp -implicitDefEqProofs
@[simp] theorem refreshUrgent_nv (t) : (refreshUrgent t s).nv = s.nv := by simp [refreshUrgent]
@[simp] theorem judgeRefresh_nv : (judgeRefresh s).nv = s.nv := rfl
@[simp] theorem endHalves_nv : (endHalves s).nv = s.nv := rfl
@[simp] theorem calInterval_nv (p) : (calInterval p s).nv = s.nv := by simp [calInterval]
@[simp] theorem recalUrgent_nv (p) : (recalUrgent p s).nv = s.nv := by simp [recalUrgent]
@[simp] theorem passFaults_nv (p held a) : (passFaults s p held a).nv = s.nv := by simp [passFaults]
@[simp] theorem calAttempt_nv (p m) : (calAttempt s p m).nv = s.nv := rfl
@[simp] theorem usedTry_nv (p) : (usedTry s p).nv = s.nv := rfl
@[simp] theorem calDisagree_nv (p diffs) : (calDisagree s p diffs).nv = s.nv := by simp [calDisagree]
@[simp] theorem recalibration_nv (p a b) : (recalibration p a b s).nv = s.nv := by
  unfold recalibration
  split
  · rfl
  · exact serve_nv s (fun s => by simp) ..
@[simp] theorem scrubUrgent_nv (t) : (scrubUrgent t s).nv = s.nv := by simp [scrubUrgent]
@[simp] theorem scrubLate_nv (t) : (scrubLate t s).nv = s.nv := by simp [scrubLate]
@[simp] theorem noteRow_nv (t rec_ x) : (noteRow t rec_ s x).nv = s.nv := rfl
@[simp] theorem scrubDone_nv (t lost) : (scrubDone s t lost).nv = s.nv := by simp [scrubDone]
@[simp] theorem scrubUnit_nv (t u codes) : (scrubUnit t u codes s).nv = s.nv := by
  unfold scrubUnit
  dsimp only
  repeat' split
  all_goals simp -implicitDefEqProofs
@[simp] theorem rewriteUrgent_nv (t) : (rewriteUrgent t s).nv = s.nv := by
  unfold rewriteUrgent
  split <;> simp
@[simp] theorem rowRewrite_nv (t r good) : (rowRewrite t r good s).nv = s.nv := by
  unfold rowRewrite
  split <;> simp
@[simp] theorem substitutionWrite_nv (t) : (substitutionWrite t s).nv = s.nv := by
  unfold substitutionWrite
  split
  · split
    · rfl
    · exact serve_nv s (fun s => by simp) ..
  · rfl
@[simp] theorem checkStoreRewrite_nv (t) : (checkStoreRewrite t s).nv = s.nv := by
  unfold checkStoreRewrite
  split
  · split
    · rfl
    · exact serve_nv s (fun s => by simp) ..
  · rfl
@[simp] theorem writeRow_nv (t w) : (writeRow t s w).nv = s.nv := by simp [writeRow]
@[simp] theorem writePiece_nv (t ok) : (writePiece t ok s).nv = s.nv := by
  unfold writePiece
  dsimp only
  split <;> simp
@[simp] theorem tileWriteDone_nv (t) : (tileWriteDone t s).nv = s.nv := by
  unfold tileWriteDone
  dsimp only
  split <;> simp
@[simp] theorem noteTest_nv (kind keel loc n bad) : (noteTest s kind keel loc n bad).nv = s.nv := by simp [noteTest]
@[simp] theorem testCharge_nv (p) : (testCharge s p).nv = s.nv := rfl
@[simp] theorem testProduct_nv (t img x) (a : State × Bool) : (testProduct t img a x).1.nv = a.1.nv := by simp [testProduct]
@[simp] theorem testTiles_nv (p dev) : (testTiles p dev s).1.nv = s.nv := by
  refine foldl_keeps (fun a : State × Option Nat => a.1.nv) (fun a t => ?_) ..
  split
  · rfl
  · exact foldl_keeps (fun a : State × Bool => a.1.nv) (fun _ _ => testProduct_nv ..) ..
@[simp] theorem panelFieldTest_nv (p dev) : (panelFieldTest p dev s).nv = s.nv := by simp [panelFieldTest]
@[simp] theorem coreFieldTest_nv (c pass) : (coreFieldTest c pass s).nv = s.nv := by simp [coreFieldTest]

/-! Failing memory. -/

@[simp] theorem dramRecord_nv (k r off) : (dramRecord s k r off).nv = s.nv := by simp [dramRecord]
@[simp] theorem lateSession_nv (k i) : (lateSession s k i).nv = s.nv := rfl
@[simp] theorem redoPasses_nv (id p) : (redoPasses id s p).nv = s.nv := rfl
@[simp] theorem redoScores_nv (id) : (redoScores s id).nv = s.nv := by
  unfold redoScores
  dsimp only
  repeat' split
  all_goals simp -implicitDefEqProofs
@[simp] theorem redoWork_nv (id) : (redoWork s id).nv = s.nv := by
  unfold redoWork
  split
  · rfl
  · rw [foldl_nv fun s pos => ?_]
    · simp
    · split <;> simp
@[simp] theorem masterLine_nv (k mi pend sect rec_ line second) :
    (masterLine s k mi pend sect rec_ line second).nv = s.nv := by
  unfold masterLine
  split <;> simp
@[simp] theorem lineGood_nv (k off) : (lineGood s k off).nv = s.nv := rfl
@[simp] theorem countsFail_nv (p) : (countsFail s p).nv = s.nv := by simp [countsFail]
@[simp] theorem waitFor_nv (k r off) : (waitFor s k r off).nv = s.nv := by simp [waitFor]
@[simp] theorem lineFails_nv (k r off) : (lineFails s k r off).nv = s.nv := by
  unfold lineFails
  split <;> simp
@[simp] theorem dramLineFail_nv (k r off first reread) : (dramLineFail k r off first reread s).nv = s.nv := by
  simp [dramLineFail]
@[simp] theorem sramFails_nv (k word c) : (sramFails k word c s).nv = s.nv := by
  unfold sramFails
  dsimp only
  repeat' split
  all_goals simp
@[simp] theorem sramParity_nv (k word c data parity) : (sramParity k word c data parity s).nv = s.nv := by
  simp [sramParity]

/-! Flights. -/

@[simp] theorem admitItem_nv (pk e r i resv) : (admitItem s pk e r i resv).1.nv = s.nv := by simp [admitItem]
@[simp] theorem tryItem_nv (pk e r i) : (tryItem s pk e r i).2.1.nv = s.nv := by
  unfold tryItem
  dsimp only
  repeat' split
  all_goals simp
@[simp] theorem packPos_nv (id r l pk) : (packPos id r l s pk).1.nv = s.nv := by
  induction l generalizing s pk with
  | nil => rfl
  | cons i l ih =>
    unfold packPos
    dsimp only
    repeat' split
    all_goals simp [ih]
theorem takeTurns_nv {k : Nat} {f : Entry → StageRec → Nat → State → Pack → State × Pack}
    (h : ∀ e r n s pk, (f e r n s pk).1.nv = s.nv) (l sp) : (takeTurns k f l sp).1.nv = sp.1.nv := by
  refine foldl_keeps (fun a : State × Pack => a.1.nv) (fun a t => ?_) ..
  repeat' split
  all_goals simp [h]
@[simp] theorem packCarried_nv (e r n pk) : (packCarried e r n s pk).1.nv = s.nv := by
  unfold packCarried
  repeat' split
  all_goals simp
@[simp] theorem packFlights_nv (k) : (packFlights s k).1.nv = s.nv := by
  unfold packFlights
  split
  · rfl
  · rw [takeTurns_nv (fun _ _ _ _ _ => packPos_nv ..), takeTurns_nv (fun _ _ _ _ _ => packCarried_nv ..)]
@[simp] theorem packKeel_nv (k) : (packKeel s k).nv = s.nv := by simp [packKeel]
@[simp] theorem formAll_nv : (formAll s).nv = s.nv := rfl
@[simp] theorem startItems_nv : (startItems s).nv = s.nv := by simp [startItems]
@[simp] theorem packAll_nv : (packAll s).nv = s.nv := by simp [packAll]

/-! Entries. -/

theorem openForeign_nv {s n t} (h : openForeign s n = some t) : t.nv = s.nv := by
  unfold openForeign at h
  extract_lets g m x hd freed blank s1 len at h
  have keeps : s1.nv = s.nv := by simp [s1, freed]
  have lenKeeps (u) : (len u).nv = u.nv := rfl
  split at h
  · split at h
    · cases h
    next e => rw [← Option.some.inj h, lenKeeps, State.onSess_nv, allocRuns_nv e, keeps]
  · rw [← Option.some.inj h, lenKeeps, keeps]
@[simp] theorem takeArrivals_nv (id mi b) : (takeArrivals s id mi b).nv = s.nv := by
  simp -implicitDefEqProofs [takeArrivals]
@[simp] theorem returnEntries_nv : (returnEntries s).nv = s.nv := by
  refine foldl_nv (fun s b => ?_) ..
  split <;> simp
@[simp] theorem admitEntry_nv (n needs) : (admitEntry s n needs).nv = s.nv := by
  unfold admitEntry
  split <;> simp
@[simp] theorem park_nv (n k missing) : (park s n k missing).nv = s.nv := by simp [park]
@[simp] theorem grant_nv (n) : (grant s n).nv = s.nv := by simp [grant]
@[simp] theorem tryEntry_nv (sb : State × List Nat) (key) : (tryEntry sb key).1.nv = sb.1.nv := by
  obtain ⟨s, blocked⟩ := sb
  simp only [tryEntry]
  split
  · rfl
  next n _ =>
    split
    · rfl
    · split
      · rfl
      next u h =>
        have keeps : u.nv = s.nv := by
          split at h
          · cases h; rfl
          · exact openForeign_nv h
        repeat' split
        all_goals simp [keeps]
@[simp] theorem readyEdge_nv : (readyEdge s).nv = s.nv :=
  (foldl_keeps (fun a : State × List Nat => a.1.nv) (fun _ _ => tryEntry_nv ..) _ _).trans (returnEntries_nv _)
@[simp] theorem dropMasked_nv : (dropMasked s).nv = s.nv := by simp [dropMasked]

/-! Seals. -/

@[simp] theorem replaysToWide_nv (k) : (replaysToWide s k).nv = s.nv := rfl
@[simp] theorem stageOverrun_nv (st k) : (stageOverrun s st k).nv = s.nv := by simp [stageOverrun]
@[simp] theorem noteCarried_nv (e st k) : (noteCarried s e st k).nv = s.nv := by simp [noteCarried]
@[simp] theorem countFlight_nv (e st) : (countFlight s e st).nv = s.nv := rfl
@[simp] theorem sendSealMark_nv (e r) : (sendSealMark s e r).nv = s.nv := by
  unfold sendSealMark
  repeat' split
  all_goals simp
@[simp] theorem decideEntry_nv (k id) : (decideEntry k s id).nv = s.nv := by
  unfold decideEntry
  repeat' split
  all_goals simp
@[simp] theorem sealDecision_nv (k) : (sealDecision k s).nv = s.nv := by simp [sealDecision]
@[simp] theorem exposureLost_nv (st r) : (exposureLost s st r).nv = s.nv := by
  unfold exposureLost
  dsimp only
  repeat' split
  all_goals simp -implicitDefEqProofs
@[simp] theorem exposureAppend_nv (e st) : (exposureAppend s e st).nv = s.nv := by
  unfold exposureAppend
  dsimp only
  split <;> simp
@[simp] theorem emitToken_nv (e tok pos isDraft bonus stop) : (emitToken s e tok pos isDraft bonus stop).nv = s.nv := by
  unfold emitToken
  split <;> simp
@[simp] theorem sealPositions_nv (e n) : (sealPositions s e n).nv = s.nv := rfl
@[simp] theorem setPend_nv (i p) : (setPend s i p).nv = s.nv := rfl
@[simp] theorem finishDecode_nv (e r) : (finishDecode s e r).nv = s.nv := by
  unfold finishDecode
  split <;> simp
@[simp] theorem finishPrefill_nv (e r) : (finishPrefill s e r).nv = s.nv := by
  unfold finishPrefill
  repeat' split
  all_goals simp
@[simp] theorem rollBack_nv (i n) : (rollBack s i n).nv = s.nv := by
  unfold rollBack
  dsimp only
  split <;> simp
@[simp] theorem finishVerify_nv (e r) : (finishVerify s e r).nv = s.nv := by
  unfold finishVerify
  split <;> simp
@[simp] theorem finishDraft_nv (e r) : (finishDraft s e r).nv = s.nv := by
  unfold finishDraft
  split <;> simp
@[simp] theorem finishEntry_nv (e k) : (finishEntry s e k).nv = s.nv := by
  unfold finishEntry
  dsimp only
  repeat' split
  all_goals simp
@[simp] theorem moveEntry_nv (e r) : (moveEntry s e r).nv = s.nv := by simp -implicitDefEqProofs [moveEntry]
@[simp] theorem leaveEntry_nv (e r) : (leaveEntry s e r).nv = s.nv := by simp [leaveEntry]
@[simp] theorem takeSeal_nv (id) : (takeSeal s id).nv = s.nv := by
  unfold takeSeal
  repeat' split
  all_goals simp
@[simp] theorem takeSeals_nv : (takeSeals s).nv = s.nv := by simp [takeSeals]

/-! The tick edge. -/

@[simp] theorem applyOptions_nv : (applyOptions s).nv = s.nv := rfl
@[simp] theorem adoptCorrections_nv (p o gc gt) : (adoptCorrections s p o gc gt).nv = s.nv := rfl
@[simp] theorem noteAgreed_nv (p refs) : (noteAgreed s p refs).nv = s.nv := by simp [noteAgreed]
@[simp] theorem movePhys_nv (p q) : (movePhys s p q).nv = s.nv := rfl
@[simp] theorem applyRole_nv (role comp) : (applyRole s role comp).nv = s.nv := rfl
@[simp] theorem endCancel_nv (i sp seq free) : (endCancel s i sp seq free).nv = s.nv := by simp [endCancel]
@[simp] theorem setDivisor_nv (dies div) : (setDivisor s dies div).nv = s.nv := by
  simp -implicitDefEqProofs [setDivisor]
@[simp] theorem applyAct_nv (acts a) : (applyAct acts s a).nv = s.nv := by
  unfold applyAct
  split <;> simp
@[simp] theorem setActs_nv (l) : (setActs s l).nv = s.nv := rfl
@[simp] theorem applySealed_nv : (applySealed s).nv = s.nv := by simp [applySealed]
@[simp] theorem applyActs_nv : (applyActs s).nv = s.nv := by simp [applyActs]
@[simp] theorem settleAll_nv : (settleAll s).nv = s.nv := by simp [settleAll]
@[simp] theorem quotaWindowEnd_nv : (quotaWindowEnd s).nv = s.nv := by simp [quotaWindowEnd]
@[simp] theorem takeSnaps_nv : (takeSnaps s).nv = s.nv := rfl
@[simp] theorem showSeal_nv : (showSeal s).nv = s.nv := rfl
@[simp] theorem longestStay_nv : (longestStay s).nv = s.nv := by simp -implicitDefEqProofs [longestStay]
@[simp] theorem writeTokens_nv (n) : (writeTokens n s).nv = s.nv := by
  induction n generalizing s with
  | zero => rfl
  | succ n ih => unfold writeTokens; split <;> simp [ih]
@[simp] theorem decideAll_nv : (decideAll s).nv = s.nv := by simp [decideAll]
@[simp] theorem beginTick_nv (adjust) : (beginTick adjust s).nv = s.nv := by simp [beginTick]
@[simp] theorem clearTick_nv : (clearTick s).nv = s.nv := rfl
@[simp] theorem forceWide_nv : (forceWide s).nv = s.nv := rfl
@[simp] theorem sendCount_nv : (sendCount s).nv = s.nv := by simp [sendCount]
@[simp] theorem chooseSpots_nv (k) : (chooseSpots s k).nv = s.nv := rfl
@[simp] theorem spotChoice_nv : (spotChoice s).nv = s.nv := by simp -implicitDefEqProofs [spotChoice]
@[simp] theorem writeAll_nv (n) : (writeAll n s).nv = s.nv := by
  induction n generalizing s with
  | zero => rfl
  | succ n ih => unfold writeAll; split <;> simp [ih]
@[simp] theorem supplyStop_factory : (supplyStop s).nv.factory = s.nv.factory := by simp [supplyStop]
@[simp] theorem edgeChanges_nv (adjust) : (edgeChanges adjust s).nv = s.nv := by simp [edgeChanges]
@[simp] theorem edgeFlights_nv : (edgeFlights s).nv = s.nv := by simp [edgeFlights]
@[simp] theorem tickEdge_factory (adjust) : (tickEdge adjust s).nv.factory = s.nv.factory := by simp [tickEdge]

/-! Frames that arrive. -/

@[simp] theorem addArrival_nv (a) : (addArrival s a).nv = s.nv := rfl
@[simp] theorem handoffHere_nv (a) : (handoffHere s a).nv = s.nv := by
  unfold handoffHere
  dsimp only
  split <;> simp
@[simp] theorem maskForeign_nv (h) : (maskForeign s h).nv = s.nv := rfl
@[simp] theorem passOn_nv (port c) : (passOn s port c).nv = s.nv := by
  unfold passOn
  dsimp only
  split <;> simp
@[simp] theorem deliverCtrl_nv (port c) : (deliverCtrl s port c).nv = s.nv := by
  unfold deliverCtrl
  repeat' split
  all_goals simp
@[simp] theorem deliverHere_nv (port p) : (deliverHere s port p).nv = s.nv := by
  unfold deliverHere
  split <;> simp
@[simp] theorem deliverChain_nv (port f) : (deliverChain s port f).nv = s.nv := by simp [deliverChain]
@[simp] theorem deliverBridle_nv (k f) : (deliverBridle s k f).nv = s.nv := by
  unfold deliverBridle
  repeat' split
  all_goals simp
@[simp] theorem badFrame_nv (l) : (badFrame s l).nv = s.nv := by simp [badFrame]
@[simp] theorem takeAck_nv (k f) : (takeAck s k f).nv = s.nv := by simp [takeAck]
@[simp] theorem takeData_nv (k f) : (takeData s k f).nv = s.nv := by simp [takeData]
@[simp] theorem countFec_nv (l corrected uncorrected) : (countFec s l corrected uncorrected).nv = s.nv := by
  simp [countFec]
@[simp] theorem receiveFrame_nv (l k raw p) : (receiveFrame s l k raw p).nv = s.nv := by simp [receiveFrame]
@[simp] theorem linkFrameReceive_nv (l upper raw corrected uncorrected p) :
    (linkFrameReceive l upper raw corrected uncorrected p s).nv = s.nv := by simp [linkFrameReceive]

/-! The step. -/

theorem guarded_factory {ok : Bool} {s u t : State} (h : u.nv.factory = s.nv.factory) (e : guarded ok s u = .next t) :
    t.nv.factory = s.nv.factory := by
  rw [(guarded_eq_next s).mp e]
  cases ok
  · rfl
  · exact h

/-- Every row answers `guarded` of one function of the state, which keeps the factory's facts by its lemma above. -/
theorem exec_factory {i : Instr} {s t : State} (e : exec i s = .next t) : t.nv.factory = s.nv.factory := by
  cases i <;> exact guarded_factory (by simp) e

theorem step_factory {s t : State} (e : step s = .next t) : t.nv.factory = s.nv.factory := by
  cases h : s.pending with
  | nil => simp only [step, h, Host.Outcome.next.injEq] at e; rw [e]
  | cons c r => exact exec_factory (s := { s with pending := r }) (step_cons s c r h ▸ e)

/-- Settles O58: what the module writes in NV flash is the option image's copies and the cause word. -/
theorem factoryFacts : Obligations.FactoryFacts := fun _ _ e => Nv.factory_eq_iff.mp (step_factory e)

end Sys2Proof.Machine
end

section
/-!
SUPPORT. The host context of a check-value unit (R488, R489): what a change of it does and leaves, feeding a byte string in parts, and
the context that a stream leaves.
-/
namespace Sys2Proof.Machine

open Sys2Proof.Safety

/-! Little-endian byte strings and the bytes fed. -/

theorem toLe_add (m n x : Nat) : toLe (m + n) x = toLe m x ++ toLe n (x / 256 ^ m) := by
  induction m generalizing x with
  | zero => simp [toLe]
  | succ m ih => rw [Nat.succ_add, toLe, toLe, ih, List.cons_append, Nat.div_div_eq_div_mul, Nat.pow_succ']

/-- Bits above the bytes taken do not show in them. -/
theorem toLe_mod (n x : Nat) : toLe n (x % 256 ^ n) = toLe n x := by
  induction n generalizing x with
  | zero => rfl
  | succ n ih =>
    have low : BitVec.ofNat 8 (x % 256 ^ (n + 1)) = BitVec.ofNat 8 x := by
      apply BitVec.eq_of_toNat_eq
      simp only [BitVec.toNat_ofNat]
      exact Nat.mod_mod_of_dvd _ ⟨256 ^ n, Nat.pow_succ'⟩
    rw [toLe, toLe, low, Nat.pow_succ', Nat.mod_mul_right_div_self, ih]

/-- Eight bytes put together from two words are the bytes of the words. -/
theorem toLe_eight (a b : Nat) :
    toLe 8 (BitVec.ofNat 64 (b % 2 ^ 32 * 2 ^ 32 + a % 2 ^ 32)).toNat = toLe 4 a ++ toLe 4 b := by
  have small : b % 2 ^ 32 * 2 ^ 32 + a % 2 ^ 32 < 2 ^ 64 := by omega
  have low : (b % 2 ^ 32 * 2 ^ 32 + a % 2 ^ 32) % 256 ^ 4 = a % 256 ^ 4 := by omega
  have high : (b % 2 ^ 32 * 2 ^ 32 + a % 2 ^ 32) / 256 ^ 4 = b % 256 ^ 4 := by omega
  rw [BitVec.toNat_ofNat, Nat.mod_eq_of_lt small, toLe_add 4 4, ← toLe_mod 4 (_ + _), low, high, toLe_mod, toLe_mod]

theorem crcFeed_append (g : CrcAlg) (r : W64) (x y : List Byte) : crcFeed g r (x ++ y) = crcFeed g (crcFeed g r x) y :=
  List.foldl_append

/-! A change of the host context. -/

section
variable {s : State} (u : Nat) (f : CvuCtx → CvuCtx)

theorem onHostCtx_ready (h : s.boot.ready = true) : onHostCtx s u f =
    s.onCvu u fun c => { c with ctxs := c.ctxs.upd CvuCtx.init 15 fun x => { f x with used := true } } := by
  simp [onHostCtx, h]

theorem hostCtx_onHostCtx (h : s.boot.ready = true) :
    hostCtx (onHostCtx s u f) u = { f (hostCtx s u) with used := true } := by
  simp [onHostCtx_ready u f h, hostCtx]

theorem onHostCtx_other (h : s.boot.ready = true) {w : Nat} (hw : w ≠ u) :
    (onHostCtx s u f).cvu.get Cvu.init w = s.cvu.get Cvu.init w := by
  simp [onHostCtx_ready u f h, hw]

theorem sameButHost_onHostCtx (h : s.boot.ready = true) : sameButHost s (onHostCtx s u f) u := by
  rw [onHostCtx_ready u f h]
  exact ⟨by simp, fun k hk => by simp [hk]⟩

theorem onHostCtx_frame (h : s.boot.ready = true) : onHostCtx s u f = { s with cvu := (onHostCtx s u f).cvu } := by
  rw [onHostCtx_ready u f h]
  rfl

theorem onHostCtx_boot (h : s.boot.ready = true) : (onHostCtx s u f).boot = s.boot := by
  rw [onHostCtx_frame u f h]

/-- A row that changes the host context leaves the value it gives, marked used, and every other context and unit. -/
theorem exec_hostCtx {i : Instr} (h : s.boot.ready = true) (e : exec i s = .next (onHostCtx s u f)) :
    ∃ t, exec i s = .next t ∧ hostCtx t u = { f (hostCtx s u) with used := true } ∧
      (∀ w, w ≠ u → t.cvu.get Cvu.init w = s.cvu.get Cvu.init w) ∧ sameButHost s t u ∧ t = { s with cvu := t.cvu } :=
  ⟨_, e, hostCtx_onHostCtx u f h, fun _ => onHostCtx_other u f h, sameButHost_onHostCtx u f h, onHostCtx_frame u f h⟩

end

/-! A value written by halves. -/

theorem write64_low (base : Nat) (old v : W64) :
    (write64 base base 4 old v).toNat = old.toNat / 2 ^ 32 * 2 ^ 32 + v.toNat % 2 ^ 32 := by
  have := old.isLt
  simp [write64]
  omega

theorem write64_high (base : Nat) (old v : W64) :
    (write64 base (base + 4) 4 old v).toNat = v.toNat % 2 ^ 32 * 2 ^ 32 + old.toNat % 2 ^ 32 := by
  simp [write64]
  omega

/-! The rows. -/

theorem guarded_of_wf {ok : Bool} {s t : State} (h : ok = true) : guarded ok s t = .next t := by rw [h]; rfl

section
variable {u : Nat} (s : State) (hu : u < 9)
include hu

theorem exec_cvuHostPoly (v : Nat) : exec (.cvuHostPoly u v) s = .next (cvuHostPoly u v s) :=
  guarded_of_wf (decide_eq_true hu)

theorem exec_cvuHostInit : exec (.cvuHostInit u) s = .next (cvuHostInit u s) := guarded_of_wf (decide_eq_true hu)

theorem exec_cvuHostValueWrite (off : Nat) (v : W64) {size : Nat} (h : sizeOk size = true) :
    exec (.cvuHostValueWrite u off size v) s = .next (cvuHostValueWrite u off size v s) :=
  guarded_of_wf (Bool.and_eq_true_iff.mpr ⟨decide_eq_true hu, h⟩)

theorem exec_cvuHostData (v : W64) {size : Nat} (h : size = 4 ∨ size = 8) : exec (.cvuHostData u size v) s = .next
    (onHostCtx s u fun c => { c with value := crcFeed (crcOfNat c.alg) c.value (toLe size v.toNat) }) := by
  have fed : cvuHostData u size v s = _ := if_pos (by simpa using h)
  have ok : sizeOk size = true := by rcases h with rfl | rfl <;> rfl
  rw [← fed]
  exact guarded_of_wf (Bool.and_eq_true_iff.mpr ⟨decide_eq_true hu, ok⟩)

end

/-- Data of no access that R11 answers feed nothing. -/
theorem exec_cvuHostData_other (u : Nat) (v : W64) (s : State) {size : Nat} (h4 : size ≠ 4) (h8 : size ≠ 8) :
    exec (.cvuHostData u size v) s = .next s := by
  simp [exec, execCvuHostData, cvuHostData, guarded, h4, h8]

/-- Feeding 4 bytes and then 4 bytes gives what feeding the 8 gives. -/
theorem feed_twice {u : Nat} {a b : W64} {s t x y : State} (hu : u < 9) (h : s.boot.ready = true)
    (ht : exec (.cvuHostData u 4 a) s = .next t) (hx : exec (.cvuHostData u 4 b) t = .next x)
    (hy : exec (.cvuHostData u 8 (BitVec.ofNat 64 (b.toNat % 2 ^ 32 * 2 ^ 32 + a.toNat % 2 ^ 32))) s = .next y) :
    hostCtx x u = hostCtx y u := by
  rw [exec_cvuHostData s hu a (.inl rfl), Host.Outcome.next.injEq] at ht
  rw [exec_cvuHostData t hu b (.inl rfl), Host.Outcome.next.injEq] at hx
  rw [exec_cvuHostData s hu _ (.inr rfl), Host.Outcome.next.injEq] at hy
  subst ht hx hy
  rw [hostCtx_onHostCtx u _ (by rw [onHostCtx_boot u _ h, h]), hostCtx_onHostCtx u _ h, hostCtx_onHostCtx u _ h]
  simp only [toLe_eight, crcFeed_append]

/-! Streams. -/

theorem freeCtx_lt {s : State} {u c : Nat} (h : freeCtx s u = some c) : c < 15 :=
  List.mem_range.mp (List.mem_of_find?_eq_some h)

theorem runStream_free {s : State} {u c : Nat} (alg : Nat) (b : List Byte) (h : freeCtx s u = some c) : runStream s u alg b =
    s.onCvu u fun x => { x with ctxs := x.ctxs.set c {
      alg := alg, value := crcFeed (crcOfNat alg) (crcInit (crcOfNat alg)) b, inUse := false, used := true } } := by
  simp [runStream, h]

/-- Settles O15, each row as a change of the host context. -/
theorem checkValueUnit : Obligations.CheckValueUnit := by
  refine ⟨fun u s hu h => ⟨fun v => ?poly, ?init, fun v => ?whole, fun v => ?low, fun v => ?high, fun size v => ?other,
    fun size v hs => ?data⟩, fun u a b s t x y => feed_twice, fun u alg b s c hc => ?stream, fun _ => rfl⟩
  case poly =>
    obtain ⟨t, e, keeps⟩ := exec_hostCtx u _ h (exec_cvuHostPoly s hu v)
    refine ⟨t, e, keeps.1.trans ?_, keeps.2⟩
    simp only [Bool.or_eq_true, decide_eq_true_eq]
    split <;> rfl
  case init => exact exec_hostCtx u _ h (exec_cvuHostInit s hu)
  case whole => exact exec_hostCtx u _ h (exec_cvuHostValueWrite s hu 0x18 v rfl)
  case low => simpa only [write64_low] using exec_hostCtx u _ h (exec_cvuHostValueWrite s hu 0x18 v (size := 4) rfl)
  case high => simpa only [write64_high 0x18] using exec_hostCtx u _ h (exec_cvuHostValueWrite s hu (0x18 + 4) v (size := 4) rfl)
  case other => exact exec_cvuHostData_other u v s
  case data => exact exec_hostCtx u _ h (exec_cvuHostData s hu v hs)
  case stream =>
    rw [runStream_free alg b hc]
    exact ⟨by simp, fun k hk => by simp [hk], fun w hw => by simp [hw], rfl, freeCtx_lt hc⟩

end Sys2Proof.Machine
end

/-! Register accesses (R11, R12). -/

section
namespace Sys2Proof.Machine

variable {s : State} {fn bar o : Nat}

/-! The latches (R12): which offsets have one, and what a 4-byte read does with it. -/

theorem Tbl.find_del {α : Type} (t : Tbl α) (k : Nat) : (t.del k).find k = none := by
  induction t with
  | nil => rfl
  | cons p r ih =>
    obtain ⟨j, v⟩ := p
    by_cases h : j = k <;> simp [Tbl.del, Tbl.find, h, ih]

theorem latched_aligned (h : latched bar o = true) : o % 8 = 0 ∧ 8 ≤ o := by
  unfold latched at h
  split at h
  · simp only [List.contains_eq_mem, List.mem_cons, List.not_mem_nil, or_false, Bool.or_eq_true, Bool.and_eq_true,
      decide_eq_true_eq, beq_iff_eq] at h
    omega
  · simp only [List.contains_eq_mem, List.mem_cons, List.not_mem_nil, or_false, Bool.and_eq_true, decide_eq_true_eq] at h
    omega

theorem latched_pred_of_latched (h : latched bar o = true) : latched bar (o - 4) = false := by
  refine Bool.eq_false_iff.mpr fun h' => ?_
  have low := latched_aligned h
  have high := latched_aligned h'
  omega

theorem readFour_low (h : latched bar (o - 4) = false) : readFour s fn bar o = readLow s fn bar o := by
  simp [readFour, h]

theorem readFour_latched {v : W32} (h : latched bar o = true) (hv : s.bus.latch.find (latchKey fn bar o) = some v) :
    readFour s fn bar (o + 4) = s.onBus fun b =>
      { b with rdata := BitVec.ofNat 64 v.toNat, latch := b.latch.del (latchKey fn bar o) } := by
  simp [readFour, readHigh, h, hv]

theorem readFour_unlatched
    (h : latched bar (o - 4) = false ∨ s.bus.latch.find (latchKey fn bar (o - 4)) = none) :
    (readFour s fn bar o).bus.rdata = BitVec.ofNat 64 (readWord s fn bar o) ∧
    (latched bar o = false → (readFour s fn bar o).bus.latch = s.bus.latch) ∧
    readFour s fn bar o = s.onBus fun b =>
      { b with rdata := (readFour s fn bar o).bus.rdata, latch := (readFour s fn bar o).bus.latch } := by
  cases hl : latched bar (o - 4) with
  | false =>
    rw [readFour_low hl]
    exact ⟨rfl, fun ho => by simp [readLow, State.onBus, ho], rfl⟩
  | true =>
    have hn : s.bus.latch.find (latchKey fn bar (o - 4)) = none := h.resolve_left (by simp [hl])
    have low := latched_aligned hl
    have e : readFour s fn bar o = s.onBus fun b => { b with rdata := BitVec.ofNat 64 (readWord s fn bar o) } := by
      have : 4 ≤ o := by omega
      simp [readFour, readHigh, hl, hn, this]
    rw [e]
    exact ⟨rfl, fun _ => rfl, rfl⟩

/-! The read instructions, once bring-up has ended. -/

theorem afterComponent_frame (bar o : Nat) (s : State) :
    afterComponent bar o s = { s with free := (afterComponent bar o s).free } := by
  unfold afterComponent
  split <;> rfl

@[simp] theorem afterComponent_bus (bar o : Nat) (s : State) : (afterComponent bar o s).bus = s.bus := by
  rw [afterComponent_frame]

theorem afterComponent_of_bus {x : State} {b : Bus} (hx : x = { s with bus := b }) :
    afterComponent bar o x = { s with bus := b, free := (afterComponent bar o x).free } := by
  subst hx
  exact afterComponent_frame bar o _

theorem barOk_of_or (h : bar = 0 ∨ bar = 2) : (bar == 0 || bar == 2) = true := by simpa using h

theorem sizeOk_of_le {size : Nat} (h1 : 1 ≤ size) (h64 : size ≤ 64) : sizeOk size = true := by simp [sizeOk, h1, h64]

theorem exec_latchedLowRead {size : Nat} (hfn : fn < 65) (hbar : bar = 0 ∨ bar = 2) (h : s.boot.ready = true)
    (hs : sizeOk size = true) :
    exec (.latchedLowRead fn bar ⟨o, size⟩) s = .next (afterComponent bar o (readAccess s fn bar o size)) := by
  have wf : Instr.wf (.latchedLowRead fn bar ⟨o, size⟩) = true := by
    simp [Instr.wf, Instr.cmd?, Instr.unitsOk, fnOk, hfn, hs, barOk_of_or hbar]
  exact (guarded_of_wf wf).trans (by simp [latchedLowRead, h])

theorem exec_latchedHighRead (hfn : fn < 65) (hbar : bar = 0 ∨ bar = 2) (h : s.boot.ready = true) :
    exec (.latchedHighRead fn bar o) s = .next (afterComponent bar o (readAccess s fn bar o 4)) := by
  have wf : Instr.wf (.latchedHighRead fn bar o) = true := by
    simp [Instr.wf, Instr.cmd?, Instr.unitsOk, fnOk, hfn, barOk_of_or hbar]
  exact (guarded_of_wf wf).trans (by simp [latchedHighRead, h])

theorem readAccess_four (h : o % 4 = 0) : readAccess s fn bar o 4 = readFour s fn bar o := by simp [readAccess, h]

theorem readAccess_eight (h : o % 8 = 0) : readAccess s fn bar o 8 = readEight s fn bar o := by simp [readAccess, h]

theorem readAccess_none {size : Nat} (h : o % size ≠ 0 ∨ (size ≠ 4 ∧ size ≠ 8)) :
    readAccess s fn bar o size = s.onBus fun b => { b with rdata := 0 } := by
  unfold readAccess
  split
  case isTrue h4 =>
    simp only [Bool.and_eq_true, decide_eq_true_eq] at h4
    obtain ⟨rfl, h4⟩ := h4
    omega
  split
  case isTrue h8 =>
    simp only [Bool.and_eq_true, decide_eq_true_eq] at h8
    obtain ⟨rfl, h8⟩ := h8
    omega
  rfl

/-! CAL_SNAP (R116, R117). -/

theorem exec_calSnap {k : Nat} (hk : k < 8) (h : s.boot.ready = true) : exec (.calSnap k) s =
    .next (s.onWin k fun w => if w.busy.isSome then w else { w with busy := some (winPanel k w) }) := by
  have wf : Instr.wf (.calSnap k) = true := by simp [Instr.wf, Instr.cmd?, Instr.unitsOk, keelOk, hk]
  exact (guarded_of_wf wf).trans (by simp [calSnap, h])

theorem busy_snap (k : Nat) (w : CalWin) : (if w.busy.isSome then w else { w with busy := some (winPanel k w) }).busy =
    some (w.busy.getD (winPanel k w)) := by
  cases h : w.busy <;> simp [h]

/-! Register writes (R11, R333). -/

theorem exec_registerWrite {size : Nat} (v : W64) (hfn : fn < 65) (hbar : bar = 0 ∨ bar = 2) (hs : sizeOk size = true) :
    exec (.registerWrite fn bar o size v) s = .next (registerWrite fn bar o size v s) := by
  refine guarded_of_wf ?_
  simp [Instr.wf, Instr.cmd?, Instr.unitsOk, fnOk, hfn, hs, barOk_of_or hbar]

theorem registerWrite_misaligned {size : Nat} (v : W64) (h : o % size ≠ 0) : registerWrite fn bar o size v s = s := by
  simp [registerWrite, h]

theorem registerWrite_words {size : Nat} (v : W64) (hc : ¬ (bar = 0 ∧ 0x80000 ≤ o ∧ o < 0x90000))
    (h : s.boot.ready = true) (ho : o % size = 0) : registerWrite fn bar o size v s =
      if size = 4 then writeWord fn bar o (v.toNat % 4294967296) s
      else if size = 8 then
        writeWord fn bar (o + 4) (v.toNat / 4294967296) (writeWord fn bar o (v.toNat % 4294967296) s)
      else s := by
  have hc' : (bar = 0 && decide (0x80000 ≤ o) && decide (o < 0x90000)) = false := by
    simpa [and_assoc] using hc
  simp only [registerWrite, hc', h, ho]
  rfl

theorem registerWrite_counter {size : Nat} (v : W64) (h : s.boot.ready = true) (ho : o % size = 0) (h1 : 0x80000 ≤ o)
    (h2 : o < 0x90000) : registerWrite fn 0 o size v s = syncCounterWrite fn ((o - 0x80000) / 8) size v s := by
  simp [registerWrite, h, ho, h1, h2]

theorem syncCounterWrite_size {n size : Nat} (v : W64) (h : size ≠ 8) : syncCounterWrite fn n size v s = s := by
  simp [syncCounterWrite, h]

theorem syncCounterWrite_foreign {n size : Nat} (v : W64) (h : counterOwner s n ≠ fn) :
    syncCounterWrite fn n size v s = s := by
  simp [syncCounterWrite, h]

theorem writeWord_vf {v : Nat} (hfn : fn ≠ 0) (hd : ¬ (bar = 0 ∧ 0x100000 ≤ o ∧ o < 0x200000)) :
    writeWord fn bar o v s = s := by
  by_cases hbar : bar = 0
  · have hd' : (decide (0x100000 ≤ o) && decide (o < 0x200000)) = false := by simpa [hbar] using hd
    simp [writeWord, hbar, writeBar0Word, hd', hfn]
  · simp [writeWord, hbar, hfn]

theorem registerWrite_unready {size : Nat} (v : W64) (h : s.boot.ready = false) : registerWrite fn bar o size v s = s := by
  simp [registerWrite, h]

theorem registerWrite_size {size : Nat} (v : W64) (h : o % size ≠ 0 ∨ (size ≠ 4 ∧ size ≠ 8)) :
    registerWrite fn bar o size v s = s := by
  cases hr : s.boot.ready with
  | false => exact registerWrite_unready v hr
  | true =>
    by_cases ho : o % size = 0
    case neg => exact registerWrite_misaligned v ho
    case pos =>
      obtain ⟨h4, h8⟩ := h.resolve_left (not_not_intro ho)
      by_cases hc : bar = 0 ∧ 0x80000 ≤ o ∧ o < 0x90000
      · obtain ⟨rfl, h1, h2⟩ := hc
        rw [registerWrite_counter v hr ho h1 h2, syncCounterWrite_size v h8]
      · rw [registerWrite_words v hc hr ho, if_neg h4, if_neg h8]

theorem registerWrite_vf {size : Nat} (v : W64) (hfn : fn ≠ 0) (hc : ¬ (bar = 0 ∧ 0x80000 ≤ o ∧ o < 0x90000))
    (hd : ¬ (bar = 0 ∧ 0x100000 ≤ o ∧ o < 0x200000)) : registerWrite fn bar o size v s = s := by
  cases hr : s.boot.ready with
  | false => exact registerWrite_unready v hr
  | true =>
    by_cases ho : o % size = 0
    case neg => exact registerWrite_misaligned v ho
    case pos =>
      rw [registerWrite_words v hc hr ho]
      split
      · exact writeWord_vf hfn hd
      split
      · have hd4 : ¬ (bar = 0 ∧ 0x100000 ≤ o + 4 ∧ o + 4 < 0x200000) := by subst size; omega
        rw [writeWord_vf hfn hd4, writeWord_vf hfn hd]
      · rfl

/-! An instruction whose effect is the state itself leaves it whether its operands are well formed or not. -/

theorem guarded_self (ok : Bool) (s : State) : guarded ok s s = .next s := by simp [guarded]

theorem exec_unready (size k : Nat) (v : W64) (h : s.boot.ready = false) :
    exec (.latchedLowRead fn bar ⟨o, size⟩) s = .next s ∧ exec (.latchedHighRead fn bar o) s = .next s ∧
    exec (.calSnap k) s = .next s ∧ exec (.registerWrite fn bar o size v) s = .next s := by
  have low : latchedLowRead fn bar ⟨o, size⟩ s = s := by simp [latchedLowRead, h]
  have high : latchedHighRead fn bar o s = s := by simp [latchedHighRead, h]
  have snap : calSnap k s = s := by simp [calSnap, h]
  refine ⟨?_, ?_, ?_, ?_⟩
  · exact (congrArg (guarded _ s) low).trans (guarded_self _ s)
  · exact (congrArg (guarded _ s) high).trans (guarded_self _ s)
  · exact (congrArg (guarded _ s) snap).trans (guarded_self _ s)
  · exact (congrArg (guarded _ s) (registerWrite_unready v h)).trans (guarded_self _ s)

/-! A read of the low half and the read of the high half after it (R12). -/

theorem latchedLowRead_latches (hfn : fn < 65) (hbar : bar = 0 ∨ bar = 2) (h : s.boot.ready = true)
    (hl : latched bar o = true) : ∃ t, exec (.latchedLowRead fn bar ⟨o, 4⟩) s = .next t ∧
      t.bus.rdata = BitVec.ofNat 64 (readWord s fn bar o) ∧
      t.bus.latch.find (latchKey fn bar o) = some (BitVec.ofNat 32 (readWord s fn bar (o + 4))) ∧
      t = { s with bus := t.bus, free := t.free } := by
  obtain ⟨h8, _⟩ := latched_aligned hl
  refine ⟨_, exec_latchedLowRead hfn hbar h rfl, ?_⟩
  rw [readAccess_four (by omega), readFour_low (latched_pred_of_latched hl)]
  rw [afterComponent_bus]
  exact ⟨rfl, by simp [readLow, State.onBus, hl, Tbl.find_set], afterComponent_of_bus rfl⟩

theorem latchedHighRead_releases {v : W32} (hfn : fn < 65) (hbar : bar = 0 ∨ bar = 2) (h : s.boot.ready = true)
    (hl : latched bar o = true) (hv : s.bus.latch.find (latchKey fn bar o) = some v) :
    ∃ t, exec (.latchedHighRead fn bar (o + 4)) s = .next t ∧ t.bus.rdata = BitVec.ofNat 64 v.toNat ∧
      t.bus.latch.find (latchKey fn bar o) = none ∧ t = { s with bus := t.bus, free := t.free } := by
  obtain ⟨h8, _⟩ := latched_aligned hl
  refine ⟨_, exec_latchedHighRead hfn hbar h, ?_⟩
  rw [readAccess_four (by omega), readFour_latched hl hv]
  rw [afterComponent_bus]
  exact ⟨rfl, Tbl.find_del _ _, afterComponent_of_bus rfl⟩

/-- Settles O12: the reads by what `readFour` does at a low and at a high half, the writes by `registerWrite`'s words. -/
theorem registerAccess : Obligations.RegisterAccess := by
  refine ⟨fun fn bar o s hfn hbar h hl => ?latches, ⟨fun fn bar o s hfn hbar h ho hl => ?four,
    fun fn bar o s hfn hbar h ho => ?eight, fun fn bar o size s hfn hbar h h1 h64 hs => ?none⟩,
    fun k s hk h => ?snap, fun fn bar o size k v s h => exec_unready size k v h,
    fun fn bar o v s hfn hbar h hc => ?words, fun fn o v s hfn h h1 h2 => ?counter,
    fun fn bar o size v s hfn hbar h1 h64 hs => ?size, fun fn bar o size v s hfn hpf hbar h1 h64 hc hd => ?vf⟩
  case latches =>
    obtain ⟨t, e, hr, hf, frame⟩ := latchedLowRead_latches hfn hbar h hl
    refine ⟨t, e, hr, frame, fun x hx hlatch => ?_⟩
    exact latchedHighRead_releases hfn hbar hx hl (hlatch ▸ hf)
  case four =>
    obtain ⟨hr, hk, frame⟩ := readFour_unlatched hl
    refine ⟨_, exec_latchedHighRead hfn hbar h, exec_latchedLowRead hfn hbar h rfl, ?_⟩
    rw [readAccess_four ho, afterComponent_bus]
    exact ⟨hr, hk, afterComponent_of_bus frame⟩
  case eight =>
    refine ⟨_, exec_latchedLowRead hfn hbar h rfl, ?_⟩
    rw [readAccess_eight ho, afterComponent_bus]
    exact ⟨rfl, afterComponent_of_bus rfl⟩
  case none =>
    refine ⟨_, exec_latchedLowRead hfn hbar h (sizeOk_of_le h1 h64), ?_⟩
    rw [readAccess_none hs, afterComponent_bus]
    exact ⟨rfl, afterComponent_of_bus rfl⟩
  case snap =>
    refine ⟨_, exec_calSnap hk h, ?_, fun j hj => ?_, rfl⟩
    · simpa [State.onWin, State.onArr, winPanel] using busy_snap k _
    · simp [State.onWin, State.onArr, hj]
  case words =>
    refine ⟨fun ho => ?_, fun ho => ?_⟩
    · rw [exec_registerWrite v hfn hbar rfl, registerWrite_words v hc h ho, if_pos rfl]
    · rw [exec_registerWrite v hfn hbar rfl, registerWrite_words v hc h ho, if_neg (by decide), if_pos rfl]
  case counter =>
    refine ⟨fun hown ho => ?_, fun hown => ?_, ?_⟩
    · rw [exec_registerWrite v hfn (.inl rfl) rfl, registerWrite_counter v h ho h1 h2]
      simp [syncCounterWrite, h, hown]
    · rw [exec_registerWrite v hfn (.inl rfl) rfl]
      by_cases ho : o % 8 = 0
      · rw [registerWrite_counter v h ho h1 h2, syncCounterWrite_foreign v hown]
      · rw [registerWrite_misaligned v ho]
    · rw [exec_registerWrite v hfn (.inl rfl) rfl]
      by_cases ho : o % 4 = 0
      · rw [registerWrite_counter v h ho h1 h2, syncCounterWrite_size v (by decide)]
      · rw [registerWrite_misaligned v ho]
  case size => rw [exec_registerWrite v hfn hbar (sizeOk_of_le h1 h64), registerWrite_size v hs]
  case vf => rw [exec_registerWrite v hfn hbar (sizeOk_of_le h1 h64), registerWrite_vf v hpf hc hd]

end Sys2Proof.Machine
end

section
/-!
SUPPORT. A host command that starts: what `exec` answers is what its body replies, in a state that differs from the one before in
the spools and the waits only.
-/
namespace Sys2Proof.Machine

open Sys2Proof.Safety

variable {s t : State} {c : Cmd} {i : Instr}

/-- The state in which a body's reply leaves the module. -/
def answered (c : Cmd) (r : State × Reply) : State := reply r.1 c r.2

@[simp] theorem answered_error (u : State) (code : Nat) (res : List Byte) :
    answered c (u, .error code res) = errorAt u c code res := rfl

@[simp] theorem answered_done (u : State) (res : List Byte) : answered c (u, .done res) = doneAt u c res := rfl

@[simp] theorem answered_sessError (u : State) (k code : Nat) :
    answered c (sessError u k code) = errorAt u c code (sessResult (u.sess k) 0 0) := rfl

@[simp] theorem answered_startRun (u : State) (k : Nat) (r : Run) (p : Option Nat) :
    answered c (startRun u k r p) = runBegun u c k r p := rfl

/-- Where a host command starts, `exec` answers what its body replies. -/
theorem exec_of_starts {body : State → State × Reply} (h : Starts i c s)
    (e : exec i s = guarded c.wf s (hostCommand i c (opcodeOf i) (paramCheck i) body s)) :
    exec i s = .next (answered c (body (begun i c s))) := by
  rw [e, hostCommand_starts body h, h.2.1, guarded_true, answered]

theorem begun_onlySpools (h : Starts i c s) : OnlySpools s (begun i c s) := by
  refine begun_only s i c ?_
  obtain ⟨-, -, hout, -, -⟩ := h
  cases hf : findFetched s c with
  | none => exact .inl (hout.trans hf)
  | some o => exact .inr rfl

theorem OnlySpools.sess (h : OnlySpools s t) (k : Nat) : t.sess k = s.sess k := by rw [h]; rfl
theorem OnlySpools.model (h : OnlySpools s t) (k : Nat) : t.model k = s.model k := by rw [h]; rfl
theorem OnlySpools.opt (h : OnlySpools s t) (o : Nat) : opt t o = opt s o := by rw [h]; rfl

theorem writeBack_onlyKv (s : State) (ls : List Nat) (back : List (Nat × List Byte)) :
    writeBack s ls back = { s with kv := (writeBack s ls back).kv } := by
  refine List.foldlRecOn (motive := fun t : State => t = { s with kv := t.kv }) _ _ rfl fun t ht x _ => ?_
  rw [ht]
  rfl

theorem takeLines_frame (s : State) (w n : Nat) (back : List (Nat × List Byte)) :
    takeLines s w n back = { s with kv := (takeLines s w n back).kv, bus := (takeLines s w n back).bus } := by
  unfold takeLines
  dsimp only
  rw [writeBack_onlyKv]
  rfl

/-- Reading a buffer changes what the key-value store and the CXL port hold, and nothing else. -/
theorem bufRead_frame {a n : Nat} {b : List Byte} (h : bufRead s c a n = some (b, t)) :
    t = { s with kv := t.kv, bus := t.bus } := by
  cases hw : hdmOffset s a n with
  | none =>
    rw [bufRead_host c hw] at h
    obtain ⟨_, -, e⟩ := Option.map_eq_some_iff.mp h
    cases e
    rfl
  | some w =>
    rw [bufRead_window c hw] at h
    cases h
    rw [takeLines_frame]

theorem bufRead_sess {a n : Nat} {b : List Byte} (h : bufRead s c a n = some (b, t)) (k : Nat) : t.sess k = s.sess k := by
  rw [bufRead_frame h]; rfl

theorem bufRead_opt {a n : Nat} {b : List Byte} (h : bufRead s c a n = some (b, t)) (o : Nat) : opt t o = opt s o := by
  rw [bufRead_frame h]; rfl

end Sys2Proof.Machine
end

section
/-!
SUPPORT. MODEL_PLACE (R286, R302, R405, R565).
-/
namespace Sys2Proof.Machine

open Sys2Proof.Safety

/-- A map that no test of a placement refuses has a run of free module stage indices. -/
theorem stageBase_of_placeRefusal_none {s : State} {m : Model} {st : List StageRec} {f : Option (List Nat)}
    (h : placeRefusal s m st f = none) : ∃ base, stageBase s st.length = some base := by
  cases hb : stageBase s st.length with
  | some base => exact ⟨base, rfl⟩
  | none => simp [placeRefusal, hb] at h

/-- What a placement makes of a model. -/
def placedModel (s : State) (st : List StageRec) (f : Option (List Nat)) (base : Nat) (m : Model) : Model :=
  { m with st := .placed, stages := st, base := base, units := mapUnits m.bytes st,
           fmts := f.getD (List.replicate (bLayers m.bytes) (opt s oKvFormat)) }

section
variable {s : State} {c : Cmd} {st : List StageRec} {f : Option (List Nat)} {i : Nat}
variable (h : Starts (.modelPlace c st f) c s)
include h

theorem exec_modelPlace_stale (hf : findModel (begun (.modelPlace c st f) c s) c.handle = none) :
    exec (.modelPlace c st f) s = .next (errorAt (begun (.modelPlace c st f) c s) c 0x0401 []) := by
  rw [exec_of_starts h rfl]
  simp [hf]

theorem exec_modelPlace_state (hf : findModel (begun (.modelPlace c st f) c s) c.handle = some i)
    (hbad : (s.model i).st ≠ .staged ∨ modelBusy (begun (.modelPlace c st f) c s) i false = true) :
    exec (.modelPlace c st f) s = .next (errorAt (begun (.modelPlace c st f) c s) c 0x0209 (toLe 1 0xFF)) := by
  rw [exec_of_starts h rfl]
  simp [hf, hbad, (begun_onlySpools h).model]

variable (hf : findModel (begun (.modelPlace c st f) c s) c.handle = some i) (hst : (s.model i).st = .staged)
  (hidle : modelBusy (begun (.modelPlace c st f) c s) i false = false)
include hf hst hidle

theorem exec_modelPlace_refused {code fault : Nat}
    (hr : placeRefusal (begun (.modelPlace c st f) c s) (s.model i) st f = some (code, fault)) :
    exec (.modelPlace c st f) s = .next (errorAt (begun (.modelPlace c st f) c s) c code (toLe 1 fault)) := by
  rw [exec_of_starts h rfl]
  simp [hf, hst, hidle, hr, (begun_onlySpools h).model]

theorem exec_modelPlace_placed {base : Nat}
    (hr : placeRefusal (begun (.modelPlace c st f) c s) (s.model i) st f = none)
    (hb : stageBase (begun (.modelPlace c st f) c s) st.length = some base) :
    exec (.modelPlace c st f) s =
      .next (doneAt ((begun (.modelPlace c st f) c s).onModel i (placedModel s st f base)) c (toLe 2 base)) := by
  rw [exec_of_starts h rfl]
  simp [hf, hst, hidle, hr, hb, (begun_onlySpools h).model, (begun_onlySpools h).opt]
  rfl

end

/-- Settles O23: each branch of the command in turn, in the state in which it starts. -/
theorem modelPlace : Obligations.ModelPlace := by
  intro c st f s i h u
  have frame : OnlySpools s u := begun_onlySpools h
  refine ⟨exec_modelPlace_stale h, fun hf => ⟨exec_modelPlace_state h hf, fun hst hidle =>
    ⟨fun _ _ hr => exec_modelPlace_refused h hf hst hidle hr, fun hr => ?_⟩⟩⟩
  obtain ⟨base, hb⟩ := stageBase_of_placeRefusal_none hr
  refine ⟨u.onModel i (placedModel s st f base), base, hb, exec_modelPlace_placed h hf hst hidle hr hb, ?_, fun j hj => ?_, rfl⟩
  · rw [State.model_onModel_self, frame.model]
    rfl
  · rw [State.model_onModel_ne _ _ hj, frame.model]

end Sys2Proof.Machine
end

section
/-!
SUPPORT. SESSION_PREFILL, SESSION_STEP and SPEC_VERIFY (R239, R243, R245, R248, R253, R254, R262, R317).
-/
namespace Sys2Proof.Machine

open Sys2Proof.Safety

variable {s : State} {c : Cmd} {i : Instr} {k : Nat} {body : Nat → State → State × Reply}

/-- A command that is legal on an IDLE session alone, with what it does there. -/
def RunsWhenIdle (i : Instr) (c : Cmd) (body : Nat → State → State × Reply) : Prop :=
  ∀ s, exec i s = guarded c.wf s
    (hostCommand i c (opcodeOf i) (paramCheck i) (sessionCommand c (· == .idle) body) s)

/-- A run does not begin on a session that is importing or whose K and V are stale (R245, R317). -/
def RefusesStaleKv (body : Nat → State → State × Reply) : Prop :=
  ∀ k u, ((u.sess k).importing = true → body k u = sessError u k 0x0208) ∧
    ((u.sess k).importing = false → (u.sess k).kvStale = true → body k u = sessError u k 0x020A)

section
variable (h : Starts i c s) (hr : RunsWhenIdle i c body)
include h hr

theorem exec_session_stale (hf : findSession (begun i c s) c = none) :
    exec i s = .next (errorAt (begun i c s) c 0x0401 []) := by
  rw [exec_of_starts h (hr s)]
  simp [sessionCommand, onSession, hf]

theorem exec_session_busy (hf : findSession (begun i c s) c = some k) (hst : (s.sess k).st ≠ .idle) :
    exec i s = .next (errorAt (begun i c s) c 0x0208 (sessResult (s.sess k) 0 0)) := by
  rw [exec_of_starts h (hr s)]
  simp [sessionCommand, onSession, hf, (begun_onlySpools h).sess, hst]

theorem exec_session_idle (hf : findSession (begun i c s) c = some k) (hst : (s.sess k).st = .idle) :
    exec i s = .next (answered c (body k (begun i c s))) := by
  rw [exec_of_starts h (hr s)]
  simp [sessionCommand, onSession, hf, (begun_onlySpools h).sess, hst]

/-- The refusals that the three commands share. -/
theorem exec_session_refusals (hb : RefusesStaleKv body) :
    let u := begun i c s
    (findSession u c = none → exec i s = .next (errorAt u c 0x0401 [])) ∧
    (∀ k, findSession u c = some k →
      let x := s.sess k
      ((x.st ≠ .idle ∨ x.importing = true) → exec i s = .next (errorAt u c 0x0208 (sessResult x 0 0))) ∧
      (x.st = .idle → x.importing = false → x.kvStale = true →
        exec i s = .next (errorAt u c 0x020A (sessResult x 0 0)))) := by
  have sess := (begun_onlySpools h).sess
  refine ⟨exec_session_stale h hr, fun k hf => ⟨fun hbad => ?_, fun hst himp hkv => ?_⟩⟩
  · by_cases hst : (s.sess k).st = .idle
    · have himp : (s.sess k).importing = true := hbad.resolve_left (not_not_intro hst)
      rw [exec_session_idle h hr hf hst, (hb k _).1 (by rw [sess, himp]), answered_sessError, sess]
    · exact exec_session_busy h hr hf hst
  · rw [exec_session_idle h hr hf hst, (hb k _).2 (by rw [sess, himp]) (by rw [sess, hkv]), answered_sessError, sess]

end

/-- Each of the three commands runs on an IDLE session, and refuses one whose K and V it may not extend. -/
theorem sessionRun_body
    (hi : (∃ a n p d, i = .sessionPrefill c a n p d) ∨ (∃ n, i = .sessionStep c n) ∨ ∃ k r l a, i = .specVerify c k r l a) :
    ∃ body, RunsWhenIdle i c body ∧ RefusesStaleKv body := by
  rcases hi with ⟨a, n, p, d, rfl⟩ | ⟨n, rfl⟩ | ⟨k, r, l, a, rfl⟩
  all_goals
    refine ⟨_, fun _ => rfl, fun k u => ⟨fun himp => ?_, fun himp hkv => ?_⟩⟩
    · simp [himp]
    · simp [himp, hkv]

section Prefill
variable {a n : Nat} {sample drop : Bool}
variable (h : Starts (.sessionPrefill c a n sample drop) c s)
  (hf : findSession (begun (.sessionPrefill c a n sample drop) c s) c = some k) (hst : (s.sess k).st = .idle)
  (himp : (s.sess k).importing = false) (hkv : (s.sess k).kvStale = false)
include h hf hst himp hkv

theorem exec_sessionPrefill_unread (hr : Unread (.sessionPrefill c a n sample drop) c s a (4 * n)) :
    exec (.sessionPrefill c a n sample drop) s =
      .next (errorAt (begun (.sessionPrefill c a n sample drop) c s) c 0x0501 (sessResult (s.sess k) 0 0)) := by
  rw [Unread] at hr
  rw [exec_session_idle h (fun _ => rfl) hf hst]
  simp [(begun_onlySpools h).sess, himp, hkv, hr]

/-- The tests of a prefill whose tokens have been read, in order, and its run. -/
theorem exec_sessionPrefill_read {b : List Byte} {v : State}
    (hr : Reads (.sessionPrefill c a n sample drop) c s a (4 * n) b v) :
    let x := s.sess k
    let all := (if drop then [] else x.pend.toList) ++ words b n
    exec (.sessionPrefill c a n sample drop) s = .next
      (if tokensOk (s.model (modelOf x)) (words b n) = false then errorAt v c 0x0105 (sessResult x 0 0)
       else if x.maxCtx < x.length + all.length then errorAt v c 0x0301 (sessResult x 0 0)
       else if frameQuotaOk v k (x.length + all.length) false = true then
         runBegun v c k
           { Run.blank c 0x21 .prefill with
             tokens := all, pos := x.length, total := all.length, sample := sample, chunk := opt s oPrefillChunk }
           all.head?
       else errorAt v c 0x060A (sessResult x 0 0)) := by
  intro x all
  have frame := begun_onlySpools h
  rw [Reads] at hr
  have hv : v.sess k = x := (bufRead_sess hr k).trans (frame.sess k)
  have ho : opt v oPrefillChunk = opt s oPrefillChunk := (bufRead_opt hr _).trans (frame.opt _)
  rw [exec_session_idle h (fun _ => rfl) hf hst]
  simp only [frame.sess, frame.model, himp, hkv, hr, ho, Bool.false_eq_true, if_false, Bool.not_eq_true',
    apply_ite (answered c), answered_sessError, answered_startRun, hv]
  cases frameQuotaOk v k (x.length + all.length) false <;> rfl

end Prefill

section Step
variable {n : Nat}
variable (h : Starts (.sessionStep c n) c s) (hf : findSession (begun (.sessionStep c n) c s) c = some k)
  (hst : (s.sess k).st = .idle) (himp : (s.sess k).importing = false) (hkv : (s.sess k).kvStale = false)
include h hf hst himp hkv

theorem exec_sessionStep_noPending (hp : (s.sess k).pend = none) :
    exec (.sessionStep c n) s = .next (errorAt (begun (.sessionStep c n) c s) c 0x0208 (sessResult (s.sess k) 0 0)) := by
  rw [exec_session_idle h (fun _ => rfl) hf hst]
  simp [(begun_onlySpools h).sess, himp, hkv, hp]

/-- The tests of a step from PENDING, in order, and its run. -/
theorem exec_sessionStep_pending {t : Nat} (hp : (s.sess k).pend = some t) :
    let x := s.sess k
    exec (.sessionStep c n) s = .next
      (if x.maxCtx ≤ x.length then errorAt (begun (.sessionStep c n) c s) c 0x0301 (sessResult x 0 0)
       else if frameQuotaOk (begun (.sessionStep c n) c s) k (min x.maxCtx (x.length + n)) false = true then
         runBegun (begun (.sessionStep c n) c s) c k
           { Run.blank c 0x22 .step with tokens := [t], pos := x.length, total := n, sample := true, left := n } (some t)
       else errorAt (begun (.sessionStep c n) c s) c 0x060A (sessResult x 0 0)) := by
  intro x
  have frame := begun_onlySpools h
  rw [exec_session_idle h (fun _ => rfl) hf hst]
  simp only [frame.sess, himp, hkv, hp, Bool.not_eq_true', apply_ite (answered c), answered_sessError, answered_startRun]
  cases frameQuotaOk (begun (.sessionStep c n) c s) k (min x.maxCtx (x.length + n)) false <;> rfl

end Step

section Verify
variable {n a : Nat} {rj l : Bool}
variable (h : Starts (.specVerify c n rj l a) c s) (hf : findSession (begun (.specVerify c n rj l a) c s) c = some k)
  (hst : (s.sess k).st = .idle) (himp : (s.sess k).importing = false) (hkv : (s.sess k).kvStale = false)
include h hf hst himp hkv

theorem exec_specVerify_noPending (hp : (s.sess k).pend = none) :
    exec (.specVerify c n rj l a) s =
      .next (errorAt (begun (.specVerify c n rj l a) c s) c 0x0208 (sessResult (s.sess k) 0 0)) := by
  rw [exec_session_idle h (fun _ => rfl) hf hst]
  simp [(begun_onlySpools h).sess, himp, hkv, hp]

theorem exec_specVerify_unread {t : Nat} (hp : (s.sess k).pend = some t) (hl : l = true)
    (hr : Unread (.specVerify c n rj l a) c s a ((if rj then 8 else 4) * n)) :
    exec (.specVerify c n rj l a) s =
      .next (errorAt (begun (.specVerify c n rj l a) c s) c 0x0501 (sessResult (s.sess k) 0 0)) := by
  subst hl
  rw [Unread] at hr
  rw [exec_session_idle h (fun _ => rfl) hf hst]
  simp only [(begun_onlySpools h).sess, himp, hkv, hp, if_true, hr, answered_sessError]

/-- The tests of a verify from PENDING whose drafts have been read or are the draft model's, in order, and its run. -/
theorem exec_specVerify_pending {t : Nat} {b : List Byte} {v : State} (hp : (s.sess k).pend = some t)
    (hb : (l = true ∧ Reads (.specVerify c n rj l a) c s a ((if rj then 8 else 4) * n) b v) ∨
      (l = false ∧ b = [] ∧ v = begun (.specVerify c n rj l a) c s)) :
    let x := s.sess k
    let ds := if l then words b n else []
    let qs := if l && rj then (words (b.drop (4 * n)) n).map (BitVec.ofNat 32) else []
    exec (.specVerify c n rj l a) s = .next
      (if l = false ∧ x.draft = none then errorAt v c 0x0110 (sessResult x 0 0)
       else if tokensOk (s.model (modelOf x)) ds = false then errorAt v c 0x0105 (sessResult x 0 0)
       else if ∃ q ∈ qs, probOk q = false then errorAt v c 0x0111 (sessResult x 0 0)
       else if x.maxCtx < x.length + n + 1 then errorAt v c 0x0301 (sessResult x 0 0)
       else if frameQuotaOk v k (x.length + n + 1) (!l) = true then
         runBegun v c k
           { Run.blank c 0x2A .verify with
             tokens := t :: ds, pos := x.length, total := n + 1, sample := true, k := n, rejection := rj,
             list := l, drafts := ds, probs := qs.map fun q => [q] } (some t)
       else errorAt v c 0x060A (sessResult x 0 0)) := by
  intro x ds qs
  have frame := begun_onlySpools h
  have hin : (if l then bufRead (begun (.specVerify c n rj l a) c s) c a ((if rj then 8 else 4) * n)
      else some ([], begun (.specVerify c n rj l a) c s)) = some (b, v) := by
    rcases hb with ⟨rfl, hr⟩ | ⟨rfl, rfl, rfl⟩
    · exact hr
    · rfl
  have hv : v.sess k = x := by
    rcases hb with ⟨-, hr⟩ | ⟨-, -, rfl⟩
    · exact (bufRead_sess hr k).trans (frame.sess k)
    · exact frame.sess k
  have hdraft : ((!l && (s.sess k).draft.isNone) = true) = (l = false ∧ (s.sess k).draft = none) := by simp
  rw [exec_session_idle h (fun _ => rfl) hf hst]
  simp only [frame.sess, frame.model, himp, hkv, hp, hin, Bool.not_eq_true', apply_ite (answered c), answered_sessError,
    answered_startRun, hv, hdraft, List.all_eq_false, Bool.not_eq_true]
  cases frameQuotaOk v k (x.length + n + 1) (!l) <;> rfl

end Verify

/-- Settles O29: the refusals that the three commands share, then the tests of each in the order in which it makes them. -/
theorem sessionRuns : Obligations.SessionRuns := by
  refine ⟨fun i c s hi h => ?shared, ?prefill, fun c s i => ⟨?step, ?verify⟩⟩
  case shared =>
    obtain ⟨body, hr, hb⟩ := sessionRun_body (c := c) hi
    exact exec_session_refusals h hr hb
  case prefill =>
    intro c a n sample drop s i h u x hf hst himp hkv
    refine ⟨exec_sessionPrefill_unread h hf hst himp hkv, fun b v hr => ?_⟩
    have e := exec_sessionPrefill_read h hf hst himp hkv hr
    refine ⟨fun htok => ?_, fun htok hlen => ?_, fun htok hlen => ?_⟩
    · rw [e, if_pos htok]
    · rw [e, if_neg (ne_false_of_eq_true htok), if_pos hlen]
    · rw [e, if_neg (ne_false_of_eq_true htok), if_neg (Nat.not_lt.mpr hlen)]
  case step =>
    intro n h u x hf hst himp hkv
    refine ⟨exec_sessionStep_noPending h hf hst himp hkv, fun t hp => ?_⟩
    have e := exec_sessionStep_pending h hf hst himp hkv hp
    refine ⟨fun hfull => ?_, fun hroom => ?_⟩
    · rw [e, if_pos hfull]
    · rw [e, if_neg (Nat.not_le.mpr hroom)]
  case verify =>
    intro k rj l a h u x hf hst himp hkv
    exact ⟨exec_specVerify_noPending h hf hst himp hkv, fun t hp hl hr => exec_specVerify_unread h hf hst himp hkv hp hl hr,
      fun t b v hp hb => exec_specVerify_pending h hf hst himp hkv hp hb⟩

end Sys2Proof.Machine
end

section
/-!
SUPPORT. TICK_EDGE at a supply stop during an NV pulse (R348, R377, R506, R538).
-/
namespace Sys2Proof.Machine

/-- The header of a command on a spool. -/
def plainHeader (spool : Nat) (seq handle : W32) : Cmd :=
  { spool := spool, seq := seq, slot := 0, handle := handle, expert := false, fence := false, signalOnDone := false,
    quiet := false, mode := .none, counter := 0, io := { rd := none, wr := true } }

/-- An IMAGE_WRITE of spool 1 is in its erase pulse, a SPOOL_CLOSE of that spool with RELEASE, sent on spool 2, waits for the
edge, and a supply stop is asked for. -/
def stopDuringClose : State :=
  { State.reset with
    boot := { Boot.init with
      ready := true, imageBusy := true, pulse := true,
      imgJob := some { spool := 1, seq := 7, copy := 0, bytes := [], pulses := 0 } }
    supply := { Supply.init with stopping := true }
    tick := { Tick.init with acts := [.closeSpool 1 2 9] }
    spools :=
      [(1, { Spool.init with
          st := .opened
          out := [{ fetchedCmd State.reset 7 0 0x71 (.imageWrite (plainHeader 1 7 0xFFFFFFFF) 0 0) with
            started := true, accepted := true, job := .image }] }),
       (2, { Spool.init with
          st := .opened
          out := [{ fetchedCmd State.reset 9 0 0x09 (.spoolClose (plainHeader 2 9 1) true) with
            started := true, job := .close 1 }] })] }

/-- The release at the edge lets the IMAGE_WRITE go on apart from its spool (R377), under key 4,097: its job in the boot part
names that key from then on. -/
theorem tickEdge_stopDuringClose_imgJob :
    (tickEdge 0 stopDuringClose).boot.imgJob.map ImgJob.spool = some 4097 := by decide +kernel

theorem exec_tickEdge (adjust : Int) (s : State) : exec (.tickEdge adjust) s = .next (tickEdge adjust s) := rfl

/-- Refutes O52: at an edge that a stop waits for during an NV pulse the statement leaves the boot part as it is but for what is
latched; where a SPOOL_CLOSE with RELEASE takes effect at that edge, the spool's IMAGE_WRITE goes on under another key, and the
boot part's job with it. -/
theorem not_tickEdge : ¬ Obligations.TickEdge := by
  intro h
  have kept : ∀ s : State, s.boot.ready = true → s.supply.stopping = true → s.boot.pulse = true →
      (tickEdge 0 s).boot.imgJob = s.boot.imgJob := by
    intro s ready stopping pulse
    obtain ⟨-, -, -, stop⟩ := h 0 s
    obtain ⟨t, e, hboot, -⟩ := stop ready stopping pulse
    rw [exec_tickEdge] at e
    rw [Host.Outcome.next.inj e, hboot]
  have moved := tickEdge_stopDuringClose_imgJob
  rw [kept stopDuringClose rfl rfl rfl] at moved
  exact absurd moved (by decide)

end Sys2Proof.Machine
end
